-- ==== Sys2Proof/Word.lean ====
section
/-! DEFINITION. The word types of the V24: bytes, the line clock's 32-bit times, and the index types of its
fixed tables. -/

namespace Sys2Proof

/-- One byte of a frame, of a tag or of the store. -/
abbrev Byte := BitVec 8

/-- A value of the line clock: a 32-bit count of milliseconds (R173). -/
abbrev LineTime := BitVec 32

/-- A tag ID: the 8 bytes of the tag, the first byte at the top (11, "The carrier tag"). -/
abbrev TagId := BitVec 64

/-- The index of a carrier record, 0..23 (R5). -/
abbrev RecIx := Fin 24

/-- The index of a Recipe Slot, 0..7 (R36). -/
abbrev SlotIx := Fin 8

/-- A bench position: 0..3 stands for the positions 1..4 of the rework spur (R146). -/
abbrev BenchIx := Fin 4

/-- A thermal zone: 0..3 stands for Z1..Z4 (R120). -/
abbrev ZoneIx := Fin 4

end Sys2Proof
end

