-- ==== Sys2Proof/Syntax.lean ====
section
/-! DEFINITION. The commands of the V24: one constructor of `Instr` per row of spec/opcode_table.json, and the
named things that their operands are made of. -/

namespace Sys2Proof

/-- The two links that carry requests (R176). -/
inductive Link where
  | host
  | bench
deriving DecidableEq, Repr

/-- The two spray cells (R66). -/
inductive CellId where
  | a
  | b
deriving DecidableEq, Repr

/-- The two inspection heads: the mask head at MASK and the fluorescence head at INSPECT (R46). -/
inductive HeadId where
  | mask
  | inspect
deriving DecidableEq, Repr

/-- The two tunnel belts (R106). -/
inductive LaneId where
  | lane1
  | lane2
deriving DecidableEq, Repr

/-- The places a carrier can be at (R5). -/
inductive Place where
  | load
  | mask
  | sprayA
  | sprayB
  | inspect
  | wetq
  | lane1
  | lane2
  | unload
  | bench (n : BenchIx)
  | offline
deriving DecidableEq, Repr

/-- What a tag read that succeeds delivers: the ID and the mark byte (R192). -/
structure TagRead where
  id : TagId
  mark : Byte
deriving DecidableEq, Repr

/-- A request with the fields of its body as R190 lays them out. Numeric and coded fields are the bytes of the
frame: their ranges are checked by the Link Interface Unit when the request is screened. -/
inductive Request where
  | identify
  | lineStatus
  | lineModeSet (mode : Byte)
  | resume
  | lineConfig (nearFull : Byte) (lampMin : BitVec 16)
  | lineClear
  | faultRead
  | faultAck (classes : Byte)
  | admitCarrier (tagId : TagId) (recipe : Byte) (serial : List Byte)
  | remove (index : Byte)
  | markClear (tagId : TagId)
  | carrierRead (index : Byte)
  | traceTake (index : Byte)
  | holdPlace (index severity : Byte)
  | holdRead (index : Byte)
  | holdClaim (index : Byte)
  | holdUnclaim (index : Byte)
  | instructionPost (index : Byte) (text : List Byte)
  | findingPost (index : Byte) (text : List Byte)
  | findingRead (index : Byte)
  | benchList
  | holdDispose (index disposition : Byte)
  | cellHome (cell : Byte)
  | cellAbort (cell : Byte)
  | cellClear (cell : Byte)
  | headClear (head : Byte)
  | lampSet (lamp : Byte)
  | storeRead (offset : BitVec 24) (count : Byte)
  | storeWrite (offset : BitVec 24) (data : List Byte)
  | recipeCheck (recipe : Byte)
  | slotList
deriving DecidableEq, Repr

/-- The commands of the V24, one constructor per row of spec/opcode_table.json. A request row carries the link it
comes on, the tag of its frame, and its body fields. -/
inductive Instr where
  /-- POR (R172); `fast` is the Host Link speed strap (R176). -/
  | por (fast : Bool)
  | emergencyStop
  | emergencyStopRelease
  /-- FRAME_VALID (R177): the bytes received on the link, in order, up to the one that completes the frame. -/
  | frameValid (link : Link) (bytes : List Byte)
  /-- FRAME_DISCARD (R177): the bytes of the discarded frame; `framing` when its last character had a framing error. -/
  | frameDiscard (link : Link) (bytes : List Byte) (framing : Bool)
  | rxGapTimeout (link : Link)
  | heldFrameScreen
  | hostTxDone
  | benchTxDone
  | benchSilenceExpiry
  | identify (link : Link) (tag : Byte)
  | lineStatus (link : Link) (tag : Byte)
  | lineModeSet (link : Link) (tag mode : Byte)
  | resume (link : Link) (tag : Byte)
  | lineConfig (link : Link) (tag nearFull : Byte) (lampMin : BitVec 16)
  | lineClear (link : Link) (tag : Byte)
  | faultRead (link : Link) (tag : Byte)
  | faultAck (link : Link) (tag classes : Byte)
  | admitCarrier (link : Link) (tag : Byte) (tagId : TagId) (recipe : Byte) (serial : List Byte)
  | remove (link : Link) (tag index : Byte)
  | markClear (link : Link) (tag : Byte) (tagId : TagId)
  | carrierRead (link : Link) (tag index : Byte)
  | traceTake (link : Link) (tag index : Byte)
  | holdPlace (link : Link) (tag index severity : Byte)
  | holdRead (link : Link) (tag index : Byte)
  | holdClaim (link : Link) (tag index : Byte)
  | holdUnclaim (link : Link) (tag index : Byte)
  | instructionPost (link : Link) (tag index : Byte) (text : List Byte)
  | findingPost (link : Link) (tag index : Byte) (text : List Byte)
  | findingRead (link : Link) (tag index : Byte)
  | benchList (link : Link) (tag : Byte)
  | holdDispose (link : Link) (tag index disposition : Byte)
  | cellHome (link : Link) (tag cell : Byte)
  | cellAbort (link : Link) (tag cell : Byte)
  | cellClear (link : Link) (tag cell : Byte)
  | headClear (link : Link) (tag head : Byte)
  | lampSet (link : Link) (tag lamp : Byte)
  | storeRead (link : Link) (tag : Byte) (offset : BitVec 24) (count : Byte)
  | storeWrite (link : Link) (tag : Byte) (offset : BitVec 24) (data : List Byte)
  | recipeCheck (link : Link) (tag recipe : Byte)
  | slotList (link : Link) (tag : Byte)
  | storeGrant
  | storeAccessEnd
  | storeAccessTimeout
  | loadArrival
  /-- TAG_READ_ATTEMPT_END (R22): what the attempt read, or `none` for no tag or a corrupt read. -/
  | tagReadAttemptEnd (place : Place) (result : Option TagRead)
  /-- TAG_WRITE_ATTEMPT_END (R149): the mark byte read back, or `none` when the writer reports no tag. -/
  | tagWriteAttemptEnd (place : Place) (readBack : Option Byte)
  | loadEntryClear
  | moveBegin (ix : RecIx)
  | moveEnd (ix : RecIx)
  | transportTimeout (ix : RecIx)
  | sourceCleared (place : Place)
  | carrierMissing (place : Place)
  | carrierLifted (place : Place)
  | walkStart (head : HeadId)
  /-- POSITIONER_ARRIVAL (R50): `answers` is false for an arrival that answers a superseded or abandoned command. -/
  | positionerArrival (head : HeadId) (answers : Bool)
  | inspectPositionTimeout (head : HeadId)
  | channelResult (head : HeadId) (channel : Fin 4) (reading : BitVec 10)
  | groupWaitExpiry (head : HeadId)
  | resultTimerExpiry (head : HeadId) (channel : Fin 4)
  | homeReached (cell : CellId)
  | homeTimeout (cell : CellId)
  | programStart (cell : CellId)
  | seekEnd (cell : CellId)
  | leadTimerExpiry (cell : CellId)
  | valveCloseTimer (cell : CellId)
  | motionEnd (cell : CellId)
  | gantryTimeout (cell : CellId)
  /-- GANTRY_HALT_REPORT (R79): the position, in 0.1 mm, at which the drive stopped. -/
  | gantryHaltReport (cell : CellId) (x y z : Nat)
  | starveLimit (cell : CellId)
  | valveFault (cell : CellId)
  | entryTransferStart
  | laneEntryEnd (lane : LaneId)
  | encoderPulse (lane : LaneId)
  /-- UV_SAMPLE (R119): the radiometer's raw count, `none` when it was not delivered in time. -/
  | uvSample (raw : Option (BitVec 12))
  /-- THERMAL_SAMPLE (R120): the eight ADC channels, raw in 0.1 degC, `none` for an open thermocouple. -/
  | thermalSample (adc : Vector (Option Int) 8)
  | warmUpEnd
  | ballastFault
  | exitTransferStart
  | exitTransferEnd
  | benchMoveStart
  | carrierSetBack (place : Place)
  | doneCarrierLifted (place : Place)
  | ballastFaultInactive
deriving DecidableEq, Repr

/-- The link, tag and request that a request row stands for; `none` for the other rows. -/
def Instr.request? : Instr → Option (Link × Byte × Request)
  | .identify l t => some (l, t, .identify)
  | .lineStatus l t => some (l, t, .lineStatus)
  | .lineModeSet l t m => some (l, t, .lineModeSet m)
  | .resume l t => some (l, t, .resume)
  | .lineConfig l t x m => some (l, t, .lineConfig x m)
  | .lineClear l t => some (l, t, .lineClear)
  | .faultRead l t => some (l, t, .faultRead)
  | .faultAck l t c => some (l, t, .faultAck c)
  | .admitCarrier l t i r s => some (l, t, .admitCarrier i r s)
  | .remove l t i => some (l, t, .remove i)
  | .markClear l t i => some (l, t, .markClear i)
  | .carrierRead l t i => some (l, t, .carrierRead i)
  | .traceTake l t i => some (l, t, .traceTake i)
  | .holdPlace l t i s => some (l, t, .holdPlace i s)
  | .holdRead l t i => some (l, t, .holdRead i)
  | .holdClaim l t i => some (l, t, .holdClaim i)
  | .holdUnclaim l t i => some (l, t, .holdUnclaim i)
  | .instructionPost l t i x => some (l, t, .instructionPost i x)
  | .findingPost l t i x => some (l, t, .findingPost i x)
  | .findingRead l t i => some (l, t, .findingRead i)
  | .benchList l t => some (l, t, .benchList)
  | .holdDispose l t i d => some (l, t, .holdDispose i d)
  | .cellHome l t c => some (l, t, .cellHome c)
  | .cellAbort l t c => some (l, t, .cellAbort c)
  | .cellClear l t c => some (l, t, .cellClear c)
  | .headClear l t h => some (l, t, .headClear h)
  | .lampSet l t c => some (l, t, .lampSet c)
  | .storeRead l t o n => some (l, t, .storeRead o n)
  | .storeWrite l t o d => some (l, t, .storeWrite o d)
  | .recipeCheck l t r => some (l, t, .recipeCheck r)
  | .slotList l t => some (l, t, .slotList)
  | .por _ | .emergencyStop | .emergencyStopRelease | .frameValid _ _ | .frameDiscard _ _ _ | .rxGapTimeout _ => none
  | .heldFrameScreen | .hostTxDone | .benchTxDone | .benchSilenceExpiry => none
  | .storeGrant | .storeAccessEnd | .storeAccessTimeout | .loadArrival => none
  | .tagReadAttemptEnd _ _ | .tagWriteAttemptEnd _ _ | .loadEntryClear => none
  | .moveBegin _ | .moveEnd _ | .transportTimeout _ | .sourceCleared _ | .carrierMissing _ | .carrierLifted _ => none
  | .walkStart _ | .positionerArrival _ _ | .inspectPositionTimeout _ | .channelResult _ _ _ => none
  | .groupWaitExpiry _ | .resultTimerExpiry _ _ => none
  | .homeReached _ | .homeTimeout _ | .programStart _ | .seekEnd _ | .leadTimerExpiry _ | .valveCloseTimer _ => none
  | .motionEnd _ | .gantryTimeout _ | .gantryHaltReport _ _ _ _ | .starveLimit _ | .valveFault _ => none
  | .entryTransferStart | .laneEntryEnd _ | .encoderPulse _ | .uvSample _ | .thermalSample _ => none
  | .warmUpEnd | .ballastFault | .exitTransferStart | .exitTransferEnd | .benchMoveStart => none
  | .carrierSetBack _ | .doneCarrierLifted _ | .ballastFaultInactive => none

end Sys2Proof
end

