-- ==== Sys2Proof/Decode.lean ====
section
/-! DEFINITION. The command that a word spells by the bits of spec/opcode_table.json. No row of the table gives bits: the
commands come as frames and events, and the layouts of frames stand in Machine/Layout.lean and Machine/Operands.lean. -/

namespace Sys2Proof

/-- The command that a word of the table spells; the table gives no row any bits, so no word spells one. -/
def decodeTableWord (_nbits _w : Nat) : Option Instr := none

end Sys2Proof
end

