-- ==== Sys2Proof/Config.lean ====
section
/-! DEFINITION. What is fixed for the machine: sizes, durations, codes of the part, the defaults of the live
configuration, and the one free value. -/

namespace Sys2Proof.Config

/-- FREE VALUE (log 8): the n-th byte drawn for store bytes that a page write ended by an access error leaves "of
unknown content" (R26). Nothing is known of it. -/
opaque freeByte : Nat → Byte

/-- The store holds 262,144 bytes (02, opening). -/
def storeBytes : Nat := 262144

/-- What every byte of an erased memory reads as (R27); the value of an unlisted byte of `State.store`. -/
def erasedByte : Byte := 0xFF

/-- The Report Queue holds at most 32 reports (R183). -/
def reportQueueMax : Nat := 32

/-- The reply store has 4 places (R178). -/
def replyPlaces : Nat := 4

/-- The lost count saturates at 255 (R183). -/
def lostMax : Nat := 255

/-- The 20 s move timer (R2). -/
def moveMs : Nat := 20000

/-- The positioner timer (R46). -/
def positionerMs : Nat := 1000

/-- The group wait and result timers (R46). -/
def resultMs : Nat := 200

/-- The home timer (R66). -/
def homeMs : Nat := 10000

/-- The seek timer, and what the motion timer adds to T (R76, R77). -/
def gantryMs : Nat := 2000

/-- The starve timer (R66). -/
def starveMs : Nat := 250

/-- The lamp warm-up timer (R115). -/
def warmUpMs : Nat := 60000

/-- The Bench Link silence timer (R186). -/
def silenceMs : Nat := 30000

/-- The ready poll and write completion limit of the Store Port (R26). -/
def accessMs : Nat := 5

/-- A gap of MORE than 20 ms between bytes discards a frame (R177), so the first ms that does is 21. -/
def gapMs : Nat := 21

/-- HOLDING lasts 10,000 ms (R121). -/
def holdingMs : Nat := 10000

/-- The exit lies at 4,800 mm (06, "Tunnel geometry"). -/
def exitMm : Nat := 4800

/-- Carriers enter a lane at least 350 mm apart (R111). -/
def spacingMm : Nat := 350

/-- A lane holds at most 8 carriers (R106). -/
def laneMax : Nat := 8

/-- Doses saturate here (R133). -/
def doseMax : Nat := 2147483647

/-- Zone accumulators saturate here (R97). -/
def accumulatorMax : Nat := 4294967295

/-- The zone temperature above which ZONE_OVERTEMP is raised, in 0.1 degC (R122). -/
def overtemp : Int := 2300

/-- Vendor code of the IDENTIFY reply (R189). -/
def vendorCode : BitVec 16 := 0x0F3A

/-- Part code of the IDENTIFY reply (R189). -/
def partCode : BitVec 16 := 0x0B24

/-- Revision of the IDENTIFY reply (R189). -/
def revision : Byte := 0x01

end Sys2Proof.Config
end

