-- ==== Sys2Proof/Machine/State.lean ====
section
/-! DEFINITION. The state of the V24 as plain data, block by block (00, "Blocks"), its faults and refusals, and the
state right after reset. What each field holds at reset, and the rule that names it, is listed in INVENTORY.md. -/

namespace Sys2Proof.Machine

/-! ## Shared values -/

/-- A running timer: when it was started and for how many ms. Every duration is a difference of line times taken
modulo 2^32 (R173). -/
structure Timer where
  since : LineTime
  ms : Nat
deriving DecidableEq, Repr

/-- The line modes (R163). -/
inductive LineMode where
  | idle
  | run
  | pause
  | stop
deriving DecidableEq, Repr

/-- The outcome of a DONE record (R5). -/
inductive DoneOutcome where
  | good
  | concession
  | scrapped
  | removed
deriving DecidableEq, Repr

/-- The status of a record in use (R7). FREE is the absence of a record. -/
inductive Status where
  | loading
  | waitLane
  | active
  | done (outcome : DoneOutcome)
deriving DecidableEq, Repr

/-- A record's position (R5): standing at a place, or IN_TRANSIT(from, to). -/
inductive Position where
  | standing (p : Place)
  | inTransit (src dst : Place)
deriving DecidableEq, Repr

/-- The tag check at the present position (R22). -/
inductive TagCheck where
  | none
  | passed
  | failed
deriving DecidableEq, Repr

/-- The entries of a route plan (R17). -/
inductive RouteEntry where
  | mask
  | sprayA
  | sprayB
  | inspect
  | wetq
  | lane
  | exit
deriving DecidableEq, Repr

/-- The mask verdict (R5). -/
inductive MaskVerdict where
  | none
  | ok
  | fail
deriving DecidableEq, Repr

/-- The point verdicts of the three lists (R54). -/
inductive PointVerdict where
  | present
  | absent
  | misplaced
  | clean
  | contaminated
  | covered
  | void
  | noResult
  | notChecked
deriving DecidableEq, Repr

/-- The verdict of a board zone (R102). -/
inductive ZoneVerdict where
  | none
  | ok
  | low
  | high
  | unknown
deriving DecidableEq, Repr

/-- An entry of the zone list (R5): accumulator in nL, thickness in 0.1 um. -/
structure ZoneEntry where
  acc : Nat
  thickness : Nat
  verdict : ZoneVerdict
  abandoned : Bool
deriving DecidableEq, Repr

/-- The cure verdict (R138). -/
inductive CureVerdict where
  | none
  | cured
  | notCured
deriving DecidableEq, Repr

/-! ## The hold part (R141) -/

/-- Severities, MINOR < MAJOR < CRITICAL (R141). -/
inductive Severity where
  | minor
  | major
  | critical
deriving DecidableEq, Repr

/-- The reason codes, in the order of the reason table (08, "Raising reasons"). -/
inductive ReasonCode where
  | maskAbsent
  | maskMisplaced
  | maskNoResult
  | filmLow
  | filmHigh
  | filmUnknown
  | keepout
  | void
  | inspectNoResult
  | openTime
  | undercureThermal
  | undercureUv
  | overcure
  | cureUnknown
  | overtemp
  | passLimit
  | ordered
deriving DecidableEq, Repr

/-- An entry of the reasons list (R141). -/
structure Reason where
  code : ReasonCode
  severity : Severity
  count : Nat
  firstRaise : LineTime
deriving DecidableEq, Repr

/-- The hold states (R141). -/
inductive HoldState where
  | opened
  | atBench
  | disposed
deriving DecidableEq, Repr

/-- The stages of a hold (R157). -/
inductive Stage where
  | none
  | mask
  | inspect
  | exit
  | stripped
deriving DecidableEq, Repr

/-- The seven dispositions (R155). -/
inductive Disposition where
  | remask
  | respray
  | recure
  | wetWipe
  | strip
  | useAsIs
  | scrap
deriving DecidableEq, Repr

/-- A text slot: the text and its unread flag (R141). -/
structure TextSlot where
  text : List Byte
  unread : Bool
deriving DecidableEq, Repr

/-- A disposition with its disposer and line time (R141). -/
structure DispositionEntry where
  what : Disposition
  disposer : Link
  time : LineTime
deriving DecidableEq, Repr

/-- The hold part (R141). The claim is absent for NONE. The hold severity is computed from the reasons list. -/
structure Hold where
  state : HoldState
  reasons : List Reason
  stage : Stage
  claim : Option Link
  instruction : Option TextSlot
  finding : Option TextSlot
  disposition : Option DispositionEntry
  markWritten : Bool
  raiseTime : LineTime
deriving DecidableEq, Repr

/-- A closed hold in the history list (R161). -/
structure HistoryEntry where
  reasons : List Reason
  severity : Severity
  disposition : Option DispositionEntry
deriving DecidableEq, Repr

/-! ## The carrier record (R5) -/

/-- A carrier record in use. -/
structure CarrierRecord where
  status : Status
  removalPending : Bool
  position : Position
  tagCheck : TagCheck
  plan : List RouteEntry
  tagId : TagId
  serial : List Byte
  recipe : Nat
  slot : Option SlotIx
  qualified : Bool
  pass : Nat
  maskVerdict : MaskVerdict
  maskPoints : List PointVerdict
  zones : List ZoneEntry
  sprayEnd : Option LineTime
  flowClamps : Nat
  starves : Nat
  keepoutPoints : List PointVerdict
  coveragePoints : List PointVerdict
  lane : Option LaneId
  posInLane : Option Nat
  thermalDose : Nat
  uvDose : Nat
  peak : Option Int
  entryTime : Option LineTime
  exitTime : Option LineTime
  cureUnknown : Bool
  cureVerdict : CureVerdict
  hold : Option Hold
  history : List HistoryEntry
deriving DecidableEq, Repr

/-! ## The Line Tracker -/

/-- The presence sensors: set for present (R1). -/
structure Sensors where
  load : Bool
  mask : Bool
  sprayA : Bool
  sprayB : Bool
  inspect : Bool
  unload : Bool
  bench : Vector Bool 4
deriving DecidableEq, Repr

/-- The drive of a transport move in flight: driven under its 20 s timer, timed out (R3), or halted by STOP (R4). -/
inductive Drive where
  | driven (timer : Timer)
  | timedOut
  | halted
deriving DecidableEq, Repr

/-- A transport move in flight (R2). -/
structure Move where
  ix : RecIx
  src : Place
  dst : Place
  drive : Drive
deriving DecidableEq, Repr

/-- The match results of LOAD (R8). -/
inductive MatchResult where
  | reentry
  | duplicate
  | new
  | marked
  | unreadable
deriving DecidableEq, Repr

/-- The LOAD entry (R8): tag ID and mark (absent for UNREADABLE), the match, and the record that has taken it. -/
structure LoadEntry where
  tag : Option TagRead
  result : MatchResult
  takenBy : Option RecIx
deriving DecidableEq, Repr

/-- What a tag read in progress is for: an arrival at LOAD (R8), or the tag check of a record (R22). -/
inductive ReadFor where
  | arrival
  | check (ix : RecIx)
deriving DecidableEq, Repr

/-- A tag read in progress at a place, with its attempt 1..3. -/
structure TagReadJob where
  place : Place
  why : ReadFor
  attempt : Nat
deriving DecidableEq, Repr

/-- What a mark write is for: re-entry (R10, with the disposition whose pass begins when the write ends; absent once its
record has become DONE or FREE), MARK_CLEAR (R15), the hold mark (R149; `live` falls when its record becomes DONE or
FREE), a closing disposition (R160). -/
inductive WriteFor where
  | reentry (ix : RecIx) (next : Option Disposition)
  | markClear (tagId : TagId)
  | holdMark (ix : RecIx) (live : Bool)
  | closing (ix : RecIx)
deriving DecidableEq, Repr

/-- A mark write asked of the writer of a place. The writes of one writer are taken in list order (R149); `attempt`
is 1..3. -/
structure TagWriteJob where
  place : Place
  value : Byte
  why : WriteFor
  attempt : Nat
deriving DecidableEq, Repr

/-- The Line Tracker. -/
structure Ltk where
  table : Vector (Option CarrierRecord) 24
  sensors : Sensors
  moves : List Move
  loadEntry : Option LoadEntry
  reads : List TagReadJob
  writes : List TagWriteJob
deriving DecidableEq, Repr

/-! ## The Recipe Store Controller -/

/-- The store states (R27): BLANK, OPEN, PROTECTED. -/
inductive StoreState where
  | blank
  | opened
  | guarded
deriving DecidableEq, Repr

/-- The live configuration (R28). -/
structure LiveConfig where
  nearFull : Nat
  lampMin : Nat
  fmaxA : Nat
  fmaxB : Nat
  tcOffsets : Vector Int 8
  gain : Nat
deriving DecidableEq, Repr

/-- The MATERIAL section (R35). -/
structure Material where
  solids : Nat
  efficiency : Nat
  zLow : Nat
  derate : Nat
  openTime : Nat
deriving DecidableEq, Repr

/-- A zone of the ZONES section (R35). -/
structure ZoneSpec where
  area : Nat
  low : Nat
  high : Nat
deriving DecidableEq, Repr

/-- A program of the SPRAY section (R35). -/
structure ProgramSpec where
  offset : Nat
  count : Nat
deriving DecidableEq, Repr

/-- The point kinds (11, "Recipes and sections"). -/
inductive PointKind where
  | cap
  | tape
  | boot
  | plug
  | keepout
  | cover
deriving DecidableEq, Repr

/-- An inspection point (R47). -/
structure Point where
  x : Nat
  y : Nat
  kind : PointKind
  low : Nat
  high : Nat
deriving DecidableEq, Repr

/-- The walk modes (R47). -/
inductive WalkMode where
  | full
  | firstFail
deriving DecidableEq, Repr

/-- The MASK and KEEPOUT sections. -/
structure PointSection where
  mode : WalkMode
  points : List Point
deriving DecidableEq, Repr

/-- The CURE section (07, "The CURE section"). -/
structure CureSpec where
  rates : List Nat
  thermalTarget : Nat
  thermalMax : Nat
  uvTarget : Nat
  speedClass : Nat
  peakMax : Nat
deriving DecidableEq, Repr

/-- The decoded sections found so far in a walk of a chain. -/
structure Sections where
  material : Option Material
  zones : Option (List ZoneSpec)
  spray : Option (ProgramSpec × ProgramSpec)
  mask : Option PointSection
  keepout : Option PointSection
  coverage : Option (List Point)
  cure : Option CureSpec
deriving DecidableEq, Repr

/-- A decoded recipe, as a VALID slot holds it (R36). -/
structure Recipe where
  name : List Byte
  material : Material
  zones : List ZoneSpec
  progA : ProgramSpec
  progB : ProgramSpec
  mask : Option PointSection
  keepout : Option PointSection
  coverage : Option (List Point)
  cure : CureSpec
deriving DecidableEq, Repr

/-- An (offset, length) range of the store. -/
structure Extent where
  offset : Nat
  length : Nat
deriving DecidableEq, Repr

/-- What a LOADING or VALID slot holds beside its sections (R36). -/
structure SlotHead where
  recipe : Nat
  use : Nat
  lastUse : LineTime
  extents : List Extent
deriving DecidableEq, Repr

/-- A Recipe Slot (R36). An EMPTY slot, so every slot after POR, holds neither last-use time nor qualified flag; DESIGN
CHOICE (log 46). -/
inductive Slot where
  | empty
  | loading (h : SlotHead)
  | valid (h : SlotHead) (qualified : Bool) (recipe : Recipe)
deriving DecidableEq, Repr

/-- A walk of a recipe chain (R33, R34). `inSection` is clear while the recipe header is read; `off` is the offset of
the present item, `got` its bytes so far, `total` its length (known from its first grant); `count` sections have
been begun, with `kinds` in chain order; `lastOff` is the offset of the last section read. -/
structure ChainWalk where
  recipe : Nat
  header : Nat
  name : List Byte
  inSection : Bool
  off : Nat
  got : List Byte
  total : Nat
  count : Nat
  kinds : List Byte
  sections : Sections
  lastOff : Nat
deriving DecidableEq, Repr

/-- The requestors of the arbiter (R40), with start-up's own reads (R27). -/
inductive Requestor where
  | startUp
  | fetch (c : CellId)
  | readBack
  | loader
  | host
deriving DecidableEq, Repr

/-- An access of the Store Port (R26). -/
inductive AccessOp where
  | read (offset length : Nat)
  | write (offset : Nat) (data : List Byte)
deriving DecidableEq, Repr

/-- The access in progress: who was granted, what, and when it began (its ready poll is timed from then). -/
structure Access where
  who : Requestor
  op : AccessOp
  since : LineTime
deriving DecidableEq, Repr

/-- The host store request in execution (R180), with the tag of its frame and its progress. -/
inductive HostReq where
  | read (tag : Byte) (offset count : Nat) (got : List Byte)
  | write (tag : Byte) (offset : Nat) (data : List Byte) (readBack : Bool)
  | check (tag : Byte) (walk : ChainWalk)
deriving DecidableEq, Repr

/-- Start-up's reads (R27): the header block or the directory, which of its four grants is due, the bytes so far,
whether a grant of the header has failed, and the live configuration to be taken when start-up ends (R28, R172). -/
structure StartUp where
  directory : Bool
  grant : Nat
  bytes : List Byte
  failed : Bool
  config : LiveConfig
deriving DecidableEq, Repr

/-- The Recipe Store Controller. -/
structure Rsc where
  storeState : StoreState
  lockBoundary : Nat
  qCount : Nat
  dir : Vector Byte 256
  live : LiveConfig
  slots : Vector Slot 8
  loadList : List SlotIx
  walk : Option ChainWalk
  port : Option Access
  lastFetch : CellId
  hostReq : Option HostReq
  startUp : Option StartUp
deriving DecidableEq, Repr

/-! ## The Inspection Engine -/

/-- The head states (R46). -/
inductive HeadState where
  | idle
  | walking
  | evaluating
  | faulted
deriving DecidableEq, Repr

/-- The list a walk point belongs to (R48). -/
inductive PointList where
  | mask
  | keepout
  | coverage
deriving DecidableEq, Repr

/-- The point states (R48). -/
inductive PointState where
  | waiting
  | triggered
  | landed
  | retry
  | judged
deriving DecidableEq, Repr

/-- An entry of the walk table (R48). -/
structure WalkPoint where
  list : PointList
  place : Nat
  point : Point
  channel : Fin 4
  attempt : Nat
  state : PointState
  verdict : Option PointVerdict
deriving DecidableEq, Repr

/-- The walk table (R48). `group` is the current group; `todo` its points still to be triggered, the first being the one
the positioner is commanded to; `nextGroup` the number of the next group of R47. The counters and the start time
are those of STATION_RESULT (R60). -/
structure WalkTable where
  ix : RecIx
  pass : Nat
  mode : WalkMode
  points : List WalkPoint
  group : List Nat
  todo : List Nat
  nextGroup : Nat
  retries : Nat
  spurious : Nat
  started : LineTime
deriving DecidableEq, Repr

/-- A mark naming a record in a pass (R61, R66). -/
structure RunMark where
  ix : RecIx
  pass : Nat
deriving DecidableEq, Repr

/-- An inspection head (R46). -/
structure Head where
  state : HeadState
  slots : Vector (Option Nat) 4
  pending : Vector (Option Nat) 4
  resultTimers : Vector (Option Timer) 4
  groupTimer : Option Timer
  posTimer : Option Timer
  walk : Option WalkTable
  given : Option RunMark
deriving DecidableEq, Repr

/-- The Inspection Engine. -/
structure Ine where
  mask : Head
  inspect : Head
deriving DecidableEq, Repr

/-! ## The Spray Cell Controllers -/

/-- The cell states (R66). -/
inductive CellState where
  | unhomed
  | homing
  | ready
  | priming
  | running
  | starved
  | faulted
deriving DecidableEq, Repr

/-- A gantry position in 0.1 mm. -/
structure GantryPos where
  x : Nat
  y : Nat
  z : Nat
deriving DecidableEq, Repr

/-- The segment kinds (R67). -/
inductive SegKind where
  | move
  | spray
deriving DecidableEq, Repr

/-- The axis-directions (R67). -/
inductive AxisDir where
  | plusX
  | minusX
  | plusY
  | minusY
deriving DecidableEq, Repr

/-- A decoded segment (R67, R191); kind and direction are absent when their codes are none of the defined ones. -/
structure Segment where
  kind : Option SegKind
  runStart : Bool
  dir : Option AxisDir
  zone : Nat
  x : Nat
  y : Nat
  len : Nat
  speed : Nat
  flow : Nat
  z : Nat
  lead : Nat
  trail : Nat
deriving DecidableEq, Repr

/-- The execution phases (R66). -/
inductive Phase where
  | seek
  | lead
  | motion
deriving DecidableEq, Repr

/-- The segment in execution with its computed values (R92). -/
structure Executing where
  seg : Segment
  finish : GantryPos
  phase : Phase
  time : Nat
  lead : Nat
  trail : Nat
  feff : Nat
  deposit : Nat
deriving DecidableEq, Repr

/-- The fetch of a cell (R73): none, waiting at the arbiter, in progress, or in progress for a program that has ended
(R74). The fetch flag is set in every case but the first. -/
inductive Fetch where
  | none
  | waiting
  | inProgress
  | stale
deriving DecidableEq, Repr

/-- The program in progress (R66). -/
structure Program where
  ix : RecIx
  pass : Nat
  offset : Nat
  count : Nat
  next : Nat
deriving DecidableEq, Repr

/-- A fetched segment in a buffer slot: its index in the program and its 12 bytes as one number (R66, R191). -/
structure Fetched where
  index : Nat
  bits : BitVec 96
deriving DecidableEq, Repr

/-- The program counters (R66). -/
structure ProgramCounts where
  executed : Nat
  discarded : Nat
  abandoned : Nat
  starves : Nat
deriving DecidableEq, Repr

/-- A spray cell (R66). `haltDue` is set while the drive's halt report is awaited (R79). -/
structure SprayCell where
  state : CellState
  gantry : Option GantryPos
  haltDue : Bool
  buffer : Vector (Option Fetched) 4
  fill : Fin 4
  exec : Fin 4
  fetchIndex : Nat
  fetch : Fetch
  program : Option Program
  runZone : Option Nat
  skip : Bool
  executing : Option Executing
  homeTimer : Option Timer
  gantryTimer : Option Timer
  leadTimer : Option Timer
  valveTimer : Option Timer
  starveTimer : Option Timer
  runMark : Option RunMark
  counts : ProgramCounts
  valveOpen : Bool
deriving DecidableEq, Repr

/-- The two Spray Cell Controllers. -/
structure Scc where
  a : SprayCell
  b : SprayCell
deriving DecidableEq, Repr

/-! ## The Cure Tunnel Controller -/

/-- The lane states (R113). -/
inductive LaneState where
  | stopped
  | running
  | blocked
deriving DecidableEq, Repr

/-- An entry of the Lane Binding Table (R106), with the lane's place in the exit-transfer arbiter (R124): the
exit-arrival time of its waiting front. The occupancy is the length of the order. `belt` is the belt drive command
(R113): a speed in mm/min, absent for the commanded stop. -/
structure Lane where
  cls : Option Nat
  bound : Nat
  state : LaneState
  belt : Option Nat
  order : List RecIx
  lastEntry : Option Nat
  arrival : Option LineTime
deriving DecidableEq, Repr

/-- The limit kinds of a binding (R107). -/
inductive LimitKind where
  | new
  | reentry
deriving DecidableEq, Repr

/-- The waiting binding (R107). -/
structure WaitingBinding where
  ix : RecIx
  cls : Nat
  kind : LimitKind
deriving DecidableEq, Repr

/-- The lamp states (R115). -/
inductive LampState where
  | off
  | warming
  | ready
  | low
  | fault
deriving DecidableEq, Repr

/-- The lamp with its warm-up timer, sample count, ballast command and ballast fault input (R115, R116). -/
structure Lamp where
  state : LampState
  warmUp : Option Timer
  count : Nat
  ballastOn : Bool
  ballastFault : Bool
deriving DecidableEq, Repr

/-- The sensor conditions of a tunnel zone (R120, R121). -/
inductive ZoneCond where
  | normal
  | degraded
  | holding
  | lost
deriving DecidableEq, Repr

/-- A thermal zone: its condition, its temperature in 0.1 degC (in HOLDING and LOST the last good one), and the hold
start time (R120, R121). -/
structure ZoneSense where
  cond : ZoneCond
  temp : Option Int
  holdStart : Option LineTime
deriving DecidableEq, Repr

/-- The Cure Tunnel Controller. `uvAt` and `thermalAt` are the model's own: the multiples of 100 ms and 1,000 ms that
were sampled last (log 3). -/
structure Ctc where
  lane1 : Lane
  lane2 : Lane
  waiting : Option WaitingBinding
  wetQueue : List RecIx
  exitHolder : Option RecIx
  lamp : Lamp
  shutterOpen : Bool
  measured : Nat
  zones : Vector ZoneSense 4
  uvAt : LineTime
  thermalAt : LineTime
deriving DecidableEq, Repr

/-! ## The Hold Manager -/

/-- The Hold Manager: bench positions (R146) and Bench Queue, head first (R147). -/
structure Hmg where
  bench : Vector (Option RecIx) 4
  queue : List RecIx
deriving DecidableEq, Repr

/-! ## The Line Mode and Fault unit -/

/-- The fault codes, in the order of the fault table (09, "Faults"). -/
inductive FaultCode where
  | transportTimeout
  | tagMismatch
  | tagWriteRetry
  | tagWriteFail
  | storeFault
  | inspectPositionTimeout
  | probeRetry
  | spuriousResult
  | homeTimeout
  | segmentBad
  | runZone
  | gantryTimeout
  | valveFault
  | starveLimit
  | starveRecovered
  | lampFault
  | lampLow
  | sensorDegraded
  | zoneSensorLost
  | zoneOvertemp
  | reportLost
deriving DecidableEq, Repr

/-- The fault classes (R170). -/
inductive FaultClass where
  | correctable
  | nonfatal
  | fatal
deriving DecidableEq, Repr

/-- The origins of a fault (09, "Faults"). -/
inductive Origin where
  | ltk
  | rsc
  | ine (head : HeadId)
  | scc (cell : CellId)
  | ctc
  | hmg
  | liu
deriving DecidableEq, Repr

/-- The detail of a fault: what its raising rule gives (R170). -/
structure FaultDetail where
  ix : Option RecIx := none
  zone : Option ZoneIx := none
  channel : Option (Fin 8) := none
  segment : Option Nat := none
  position : Option Position := none
deriving DecidableEq, Repr

/-- A fault entry (R170). -/
structure FaultEntry where
  code : FaultCode
  origin : Origin
  time : LineTime
  detail : FaultDetail
deriving DecidableEq, Repr

/-- The fault record (R170). -/
structure FaultRecord where
  correctable : Bool
  nonfatal : Bool
  fatal : Bool
  lastCorrectable : Option FaultEntry
  lastNonfatal : Option FaultEntry
  lastFatal : Option FaultEntry
  firstFatal : Option FaultEntry
deriving DecidableEq, Repr

/-- The Line Mode and Fault unit. -/
structure Lmf where
  mode : LineMode
  estop : Bool
  clock : LineTime
  record : FaultRecord
deriving DecidableEq, Repr

/-! ## Reports (R183) -/

/-- Why a load failed (R13). -/
inductive LoadFailure where
  | recipeBad
  | noSlot
  | storeFault
deriving DecidableEq, Repr

/-- STATION_RESULT (R60). -/
structure StationResult where
  station : HeadId
  ix : RecIx
  pass : Nat
  mode : WalkMode
  maskVerdict : Option MaskVerdict
  first : List PointVerdict
  second : List PointVerdict
  retries : Nat
  spurious : Nat
  elapsed : Nat
deriving DecidableEq, Repr

/-- The outcomes of a program (R86). -/
inductive ProgramOutcome where
  | completed
  | aborted
  | stopped
  | faulted
  | carrierLost
  | removed
deriving DecidableEq, Repr

/-- SPRAY_DONE (R86). -/
structure SprayDone where
  cell : CellId
  ix : RecIx
  pass : Nat
  outcome : ProgramOutcome
  fault : Option (FaultCode × Nat)
  counts : ProgramCounts
  evaluated : Bool
  sprayEnd : Option LineTime
deriving DecidableEq, Repr

/-- The causes of HOLD_RAISED and HOLD_CHANGED (R145). -/
inductive HoldCause where
  | reason
  | reopened
  | bench
  | offline
  | mark
  | claim
  | instructionRead
  | finding
  | disposed
  | closed
deriving DecidableEq, Repr

/-- HOLD_RAISED and HOLD_CHANGED (R145): for each slot, whether it is present and, if so, unread. -/
structure HoldReport where
  ix : RecIx
  pass : Nat
  serial : List Byte
  cause : HoldCause
  state : HoldState
  stage : Stage
  claim : Option Link
  reasons : List Reason
  severity : Severity
  instruction : Option Bool
  finding : Option Bool
  disposition : Option (Disposition × Link)
  markWritten : Bool
deriving DecidableEq, Repr

/-- The causes of CELL_STATE (R86). -/
inductive CellCause where
  | cellHome
  | homeReached
  | homeTimeout
  | programStart
  | programEnd
  | cellAbort
  | cellClear
  | removed
  | carrierLost
  | stop
  | emergencyStop
  | fault (code : FaultCode)
deriving DecidableEq, Repr

/-- The causes of LANE_STATE (R113). -/
inductive LaneCause where
  | lineMode
  | exitWait
  | exitStart
  | removed
  | bound
  | unbound
  | lineClear
deriving DecidableEq, Repr

/-- The causes of LAMP_STATE (R115). -/
inductive LampCause where
  | lampSet
  | warmUpEnd
  | irradiance
  | ballastFault
deriving DecidableEq, Repr

/-- The causes of LINE_MODE (R163). -/
inductive ModeCause where
  | startUp
  | lineModeSet
  | resume
  | emergencyStop
  | fault (code : FaultCode)
deriving DecidableEq, Repr

/-- TUNNEL_ENTRY (R112). -/
structure TunnelEntry where
  ix : RecIx
  pass : Nat
  lane : LaneId
  entryTime : LineTime
  sinceSpray : Option Nat
  openTimeRaised : Bool
deriving DecidableEq, Repr

/-- TUNNEL_EXIT (R125). -/
structure TunnelExit where
  ix : RecIx
  pass : Nat
  lane : LaneId
  exitTime : LineTime
  thermalDose : Nat
  uvDose : Nat
  peak : Option Int
  cureUnknown : Bool
  verdict : CureVerdict
  target : Place
  waited : Nat
deriving DecidableEq, Repr

/-- LANE_STATE (R113). -/
structure LaneReport where
  lane : LaneId
  state : LaneState
  cls : Option Nat
  occupancy : Nat
  bound : Nat
  cause : LaneCause
deriving DecidableEq, Repr

/-- The reports (10, "The Report Queue"), in the order of their codes (R189). -/
inductive ReportBody where
  | loadArrival (tag : Option TagRead) (result : MatchResult)
  | admitted (ix : RecIx) (pass : Nat)
  | admitFailed (tagId : TagId) (why : LoadFailure)
  | stationResult (r : StationResult)
  | sprayDone (r : SprayDone)
  | tunnelEntry (r : TunnelEntry)
  | tunnelExit (r : TunnelExit)
  | holdRaised (r : HoldReport)
  | holdChanged (r : HoldReport)
  | carrierDone (ix : RecIx)
  | cellState (cell : CellId) (state : CellState) (cause : CellCause) (ix : Option RecIx)
  | laneState (r : LaneReport)
  | lampState (state : LampState) (cause : LampCause) (irradiance : Nat)
  | lineMode (mode previous : LineMode) (time : LineTime) (cause : ModeCause)
  | fault (cls : FaultClass) (e : FaultEntry)
deriving DecidableEq, Repr

/-- A queued report with the line time at which it was queued (R183). -/
structure Report where
  time : LineTime
  body : ReportBody
deriving DecidableEq, Repr

/-! ## The Link Interface Unit -/

/-- The status codes, in the order of their values (R189). -/
inductive ReplyStatus where
  | ok
  | unknownKind
  | badLength
  | badValue
  | wrongMode
  | busy
  | notFound
  | marked
  | lineFull
  | storeBlank
  | noRecipe
  | recipeBad
  | noSlot
  | inUse
  | locked
  | storeFault
  | claimedElsewhere
  | notClaimed
  | slotFull
  | instructionUnread
  | notPermitted
  | notDone
  | notClear
deriving DecidableEq, Repr

/-- A reply (R179): the kind and tag of its request, its status, and the bytes of its data. -/
structure Reply where
  kind : Byte
  tag : Byte
  status : ReplyStatus
  data : List Byte
deriving DecidableEq, Repr

/-- A frame (R188): kind, tag, body. -/
structure Frame where
  kind : Byte
  tag : Byte
  body : List Byte
deriving DecidableEq, Repr

/-- A receiver (R177): HUNT, LENGTH or BODY. `early` marks a frame whose start byte came before start-up ended (it is
discarded whole); `at` is the line time of the last byte; BODY holds the length byte and the bytes so far. -/
inductive Rx where
  | hunt
  | length (early : Bool) (last : LineTime)
  | body (early : Bool) (last : LineTime) (len : Byte) (got : List Byte)
deriving DecidableEq, Repr

/-- What the Host Link transmitter sends (R181): a reply, or a report with the lost count written into its header
(R184). -/
inductive HostTx where
  | reply (r : Reply)
  | report (lost : Nat) (r : Report)
deriving DecidableEq, Repr

/-- The Link Interface Unit. A place of the reply store is reserved while a host store request is in execution. -/
structure Liu where
  hostRx : Rx
  benchRx : Rx
  hostFast : Bool
  replies : List Reply
  held : Option Frame
  hostTx : Option HostTx
  benchTx : Option Reply
  reports : List Report
  lost : Nat
  full : Bool
  online : Bool
  silence : Option Timer
deriving DecidableEq, Repr

/-! ## The whole part -/

/-- The state of the V24: the queue of commands, the blocks, the external store, and the model's counter of free
values drawn. -/
structure State where
  pending : List Instr
  ltk : Ltk
  rsc : Rsc
  ine : Ine
  scc : Scc
  ctc : Ctc
  hmg : Hmg
  lmf : Lmf
  liu : Liu
  store : List Host.Cell
  freeCount : Nat
deriving DecidableEq, Repr

/-- Why the machine stops. -/
inductive Fault where
  /-- Raised by STORE_ACCESS_END and STORE_ACCESS_TIMEOUT when the access in progress reaches beyond byte 262,143 of
  the store, an address that does not exist (02, opening). Safe: the model stops where the part has no behaviour; no
  state reached from reset does it. -/
  | storeRange
deriving DecidableEq, Repr

/-- Why a command has no meaning. -/
inductive Refusal where
  /-- Raised by a refused arm of `exec` for a command that has no meaning yet. Safe: nothing is proved of it. No arm
  raises it at present. -/
  | notModelled (mnemonic : String)
deriving DecidableEq, Repr

/-! ## Reset -/

/-- No sensor reads present. Input pins are not the part's to reset; DESIGN CHOICE (log 5), unsafe. -/
def Sensors.clear : Sensors :=
  { load := false, mask := false, sprayA := false, sprayB := false, inspect := false, unload := false
    bench := Vector.replicate 4 false }

/-- The defaults of the live configuration (R28). -/
def LiveConfig.default : LiveConfig :=
  { nearFull := 2, lampMin := 40, fmaxA := 1000, fmaxB := 1000, tcOffsets := Vector.replicate 8 0, gain := 1000 }

/-- A head at POR (R46). -/
def Head.reset : Head :=
  { state := .idle, slots := Vector.replicate 4 none, pending := Vector.replicate 4 none
    resultTimers := Vector.replicate 4 none, groupTimer := none, posTimer := none, walk := none, given := none }

/-- The program counters at 0 (R66). -/
def ProgramCounts.zero : ProgramCounts := { executed := 0, discarded := 0, abandoned := 0, starves := 0 }

/-- A spray cell at POR (R66). R66 gives the fetch index no POR value: 0, DESIGN CHOICE (log 6). -/
def SprayCell.reset : SprayCell :=
  { state := .unhomed, gantry := none, haltDue := false, buffer := Vector.replicate 4 none, fill := 0, exec := 0
    fetchIndex := 0, fetch := .none, program := none, runZone := none, skip := false, executing := none
    homeTimer := none, gantryTimer := none, leadTimer := none, valveTimer := none, starveTimer := none
    runMark := none, counts := ProgramCounts.zero, valveOpen := false }

/-- A lane at POR (R106). -/
def Lane.reset : Lane :=
  { cls := none, bound := 0, state := .stopped, belt := none, order := [], lastEntry := none, arrival := none }

/-- A thermal zone at POR (R120). -/
def ZoneSense.reset : ZoneSense := { cond := .normal, temp := none, holdStart := none }

/-- The fault record at POR (R170). -/
def FaultRecord.clear : FaultRecord :=
  { correctable := false, nonfatal := false, fatal := false, lastCorrectable := none, lastNonfatal := none
    lastFatal := none, firstFatal := none }

/-- The Line Tracker at POR, its sensor inputs as they are (R172). -/
def Ltk.reset (sensors : Sensors) : Ltk :=
  { table := Vector.replicate 24 none, sensors := sensors, moves := [], loadEntry := none, reads := [], writes := [] }

/-- The Recipe Store Controller at POR: slots EMPTY, cell B's the last fetch grant (R40), the first header grant due
(R27). Store state, boundary, Q, directory copy and live configuration are set by start-up; until then they hold
DESIGN CHOICE values (log 6). -/
def Rsc.reset : Rsc :=
  { storeState := .blank, lockBoundary := 0, qCount := 0, dir := Vector.replicate 256 0, live := LiveConfig.default
    slots := Vector.replicate 8 .empty, loadList := [], walk := none, port := none, lastFetch := .b, hostReq := none
    startUp := some { directory := false, grant := 0, bytes := [], failed := false, config := LiveConfig.default } }

/-- The Cure Tunnel Controller at POR, its ballast fault input as it is (R106, R115, R118, R120, R124). -/
def Ctc.reset (ballastFault : Bool) : Ctc :=
  { lane1 := Lane.reset, lane2 := Lane.reset, waiting := none, wetQueue := [], exitHolder := none
    lamp := { state := .off, warmUp := none, count := 0, ballastOn := false, ballastFault := ballastFault }
    shutterOpen := false, measured := 0, zones := Vector.replicate 4 ZoneSense.reset, uvAt := 0, thermalAt := 0 }

/-- The Hold Manager at POR (R146, R147). -/
def Hmg.reset : Hmg := { bench := Vector.replicate 4 none, queue := [] }

/-- The Line Mode and Fault unit at POR, the emergency-stop input as it is (R163, R170, R173). -/
def Lmf.reset (estop : Bool) : Lmf := { mode := .idle, estop := estop, clock := 0, record := FaultRecord.clear }

/-- The Link Interface Unit at POR with the strap read (R176, R178, R183, R185, R186). -/
def Liu.reset (fast : Bool) : Liu :=
  { hostRx := .hunt, benchRx := .hunt, hostFast := fast, replies := [], held := none, hostTx := none, benchTx := none
    reports := [], lost := 0, full := false, online := false, silence := none }

/-- The machine right after reset: every block at its POR value with start-up's first store read due (R172), no command
waiting, the input pins clear (log 5), the store erased (log 7). -/
def State.reset : State :=
  { pending := [], ltk := Ltk.reset Sensors.clear, rsc := Rsc.reset
    ine := { mask := Head.reset, inspect := Head.reset }, scc := { a := SprayCell.reset, b := SprayCell.reset }
    ctc := Ctc.reset false, hmg := Hmg.reset, lmf := Lmf.reset false, liu := Liu.reset false
    store := [], freeCount := 0 }

end Sys2Proof.Machine
end

