-- ==== Sys2Proof/WellFormed.lean ====
section
/-! DEFINITION. When a command is one that the part can be given: each operand is one that its row can carry. A
command that is not well formed still has a meaning (a body of a wrong length is answered BAD_LENGTH, an event of
a sensor that does not exist changes nothing). -/

namespace Sys2Proof

/-- Places with a presence sensor (01, "Positions, occupancy and transport moves"). -/
def Place.hasSensor : Place → Bool
  | .load | .mask | .sprayA | .sprayB | .inspect | .unload | .bench _ => true
  | .wetq | .lane1 | .lane2 | .offline => false

/-- Places with a tag reader (00, "The line"). -/
def Place.hasReader : Place → Bool
  | .load | .mask | .sprayA | .sprayB | .inspect | .unload | .bench _ => true
  | .wetq | .lane1 | .lane2 | .offline => false

/-- Places with a tag writer (00, "The line"). -/
def Place.hasWriter : Place → Bool
  | .load | .unload | .bench _ => true
  | .mask | .sprayA | .sprayB | .inspect | .wetq | .lane1 | .lane2 | .offline => false

/-- The stations from which a carrier can go missing (R24). -/
def Place.isStation : Place → Bool
  | .load | .mask | .sprayA | .sprayB | .inspect => true
  | .wetq | .lane1 | .lane2 | .unload | .bench _ | .offline => false

/-- The places from which a carrier is taken off the line (R24). -/
def Place.isLiftPlace : Place → Bool
  | .unload | .bench _ => true
  | .load | .mask | .sprayA | .sprayB | .inspect | .wetq | .lane1 | .lane2 | .offline => false

/-- A bench position. -/
def Place.isBench : Place → Bool
  | .bench _ => true
  | .load | .mask | .sprayA | .sprayB | .inspect | .wetq | .lane1 | .lane2 | .unload | .offline => false

/-- The body lengths that R190 allows, for the requests whose body has a variable part. A serial of ADMIT
outside 1..20 bytes and a text outside 1..48 bytes are bodies of a wrong length (R179 step 4, R190) and so are answered
BAD_LENGTH, where R12, R152 and R153 say BAD_VALUE; DEDUCED (log 11). -/
def Request.lengthOk : Request → Bool
  | .admitCarrier _ _ serial => 1 ≤ serial.length && serial.length ≤ 20
  | .instructionPost _ text => 1 ≤ text.length && text.length ≤ 48
  | .findingPost _ text => 1 ≤ text.length && text.length ≤ 48
  | .storeWrite _ data => 1 ≤ data.length && data.length ≤ 64
  | .identify | .lineStatus | .lineModeSet _ | .resume | .lineConfig _ _ | .lineClear | .faultRead | .faultAck _ => true
  | .remove _ | .markClear _ | .carrierRead _ | .traceTake _ | .holdPlace _ _ | .holdRead _ | .holdClaim _ => true
  | .holdUnclaim _ | .findingRead _ | .benchList | .holdDispose _ _ | .cellHome _ | .cellAbort _ | .cellClear _ => true
  | .headClear _ | .lampSet _ | .storeRead _ _ | .recipeCheck _ | .slotList => true

/-- The operand checks of a command other than a request row. -/
def Instr.eventOk : Instr → Bool
  | .tagReadAttemptEnd p _ => p.hasReader
  | .tagWriteAttemptEnd p _ => p.hasWriter
  | .sourceCleared p | .carrierSetBack p | .doneCarrierLifted p => p.hasSensor
  | .carrierMissing p => p.isStation
  | .carrierLifted p => p.isLiftPlace
  | .gantryHaltReport _ x y z => x ≤ 6000 && y ≤ 5000 && z ≤ 300
  | .frameValid _ bytes => !bytes.isEmpty
  | _ => true

/-- The command is one that the part can be given. -/
def Instr.wf (i : Instr) : Bool :=
  match i.request? with
  | some (_, _, r) => r.lengthOk
  | none => i.eventOk

end Sys2Proof
end

