-- ==== Sys2Proof/Machine/Ops.lean ====
section
/-! DEFINITION. The named operations over the state that every block uses: line times, the carrier table, cells,
heads and lanes by name, sensors, the store's bytes. -/

namespace Sys2Proof.Machine

/-! ## Line times (R173) -/

/-- The present line time. -/
def State.now (s : State) : LineTime := s.lmf.clock

/-- ms from `t` to the present line time, modulo 2^32 (R173). -/
def State.since (s : State) (t : LineTime) : Nat := (s.now - t).toNat

/-- A timer of `ms` started now. -/
def State.timer (s : State) (ms : Nat) : Timer := { since := s.now, ms := ms }

/-- The same state at line time `t`. -/
def State.atTime (s : State) (t : LineTime) : State := { s with lmf := { s.lmf with clock := t } }

/-- The line clock brought up to the moment `ms` after `t`, unless it has reached it (log 3). -/
def State.reach (s : State) (t : LineTime) (ms : Nat) : State :=
  if s.since t < ms then s.atTime (t + BitVec.ofNat 32 ms) else s

/-- The line clock brought up to a timer's expiry (log 3). -/
def State.expire (s : State) (t : Timer) : State := s.reach t.since t.ms

/-- The first multiple of `period` ms after `t` on the 32-bit clock: 0 when the clock wraps first (R128). -/
def nextMultiple (period : Nat) (t : LineTime) : LineTime :=
  let m := (t.toNat / period + 1) * period
  if m < 4294967296 then BitVec.ofNat 32 m else 0

/-- The line time of a periodic sample (R119, R120): now, when the clock stands at a multiple that has not been
sampled; otherwise the next multiple (log 3). -/
def State.sampleTime (s : State) (period : Nat) (last : LineTime) : LineTime :=
  if s.now.toNat % period = 0 ∧ s.now ≠ last then s.now else nextMultiple period s.now

/-- One ms of the line clock (R173). -/
def State.tick (s : State) : State := s.atTime (s.now + 1)

/-! ## The Carrier Table (R5) -/

/-- LOADING, WAIT_LANE or ACTIVE. -/
def Status.isLive : Status → Bool
  | .loading | .waitLane | .active => true
  | .done _ => false

/-- The record of an index, absent when FREE. -/
def State.rec? (s : State) (i : RecIx) : Option CarrierRecord := s.ltk.table[i]

/-- The record of an index while it is LOADING, WAIT_LANE or ACTIVE. -/
def State.live? (s : State) (i : RecIx) : Option CarrierRecord :=
  match s.rec? i with
  | some r => if r.status.isLive then some r else none
  | none => none

/-- The entry of an index set. -/
def State.setRec (s : State) (i : RecIx) (r : Option CarrierRecord) : State :=
  { s with ltk := { s.ltk with table := s.ltk.table.set i r } }

/-- A write of the Line Tracker's to a record in use. -/
def State.modRec (s : State) (i : RecIx) (f : CarrierRecord → CarrierRecord) : State :=
  match s.rec? i with
  | some r => s.setRec i (some (f r))
  | none => s

/-- Another block's write to a record: dropped when the record has become DONE or FREE (R5). -/
def State.modLive (s : State) (i : RecIx) (f : CarrierRecord → CarrierRecord) : State :=
  match s.live? i with
  | some r => s.setRec i (some (f r))
  | none => s

/-- The record indices in order. -/
def recIxs : List RecIx := List.finRange 24

/-- The live records whose position is standing at a place. -/
def State.recordsAt (s : State) (p : Place) : List RecIx :=
  recIxs.filter fun i =>
    match s.live? i with
    | some r => decide (r.position = .standing p)
    | none => false

/-- The record in LOADING, WAIT_LANE or ACTIVE that has a place as its position. -/
def State.recordAt (s : State) (p : Place) : Option RecIx := (s.recordsAt p).head?

/-- The record in use that holds a tag ID (R5: there is at most one). -/
def State.recordOfTag (s : State) (t : TagId) : Option RecIx :=
  recIxs.find? fun i =>
    match s.rec? i with
    | some r => r.tagId == t
    | none => false

/-- No record is LOADING, WAIT_LANE or ACTIVE. -/
def State.noneLive (s : State) : Bool := recIxs.all fun i => (s.live? i).isNone

/-- The record index named by a byte of a request, when it lies in 0..23. -/
def recIxOf (b : Byte) : Option RecIx := if h : b.toNat < 24 then some ⟨b.toNat, h⟩ else none

/-! ## Cells, heads and lanes by name -/

/-- A spray cell. -/
def State.cell (s : State) : CellId → SprayCell
  | .a => s.scc.a
  | .b => s.scc.b

/-- A spray cell set. -/
def State.setCell (s : State) (c : CellId) (v : SprayCell) : State :=
  match c with
  | .a => { s with scc := { s.scc with a := v } }
  | .b => { s with scc := { s.scc with b := v } }

/-- An inspection head. -/
def State.head (s : State) : HeadId → Head
  | .mask => s.ine.mask
  | .inspect => s.ine.inspect

/-- An inspection head set. -/
def State.setHead (s : State) (h : HeadId) (v : Head) : State :=
  match h with
  | .mask => { s with ine := { s.ine with mask := v } }
  | .inspect => { s with ine := { s.ine with inspect := v } }

/-- A lane. -/
def State.lane (s : State) : LaneId → Lane
  | .lane1 => s.ctc.lane1
  | .lane2 => s.ctc.lane2

/-- A lane set. -/
def State.setLane (s : State) (l : LaneId) (v : Lane) : State :=
  match l with
  | .lane1 => { s with ctc := { s.ctc with lane1 := v } }
  | .lane2 => { s with ctc := { s.ctc with lane2 := v } }

/-- The place of a spray cell. -/
def cellPlace : CellId → Place
  | .a => .sprayA
  | .b => .sprayB

/-- The station of a head (R46). -/
def headPlace : HeadId → Place
  | .mask => .mask
  | .inspect => .inspect

/-- The place of a lane. -/
def lanePlace : LaneId → Place
  | .lane1 => .lane1
  | .lane2 => .lane2

/-- The other cell. -/
def otherCell : CellId → CellId
  | .a => .b
  | .b => .a

/-! ## Sensors and occupancy -/

/-- What a presence sensor reads. Places without a sensor read clear. -/
def Sensors.read (v : Sensors) : Place → Bool
  | .load => v.load
  | .mask => v.mask
  | .sprayA => v.sprayA
  | .sprayB => v.sprayB
  | .inspect => v.inspect
  | .unload => v.unload
  | .bench n => v.bench[n]
  | .wetq | .lane1 | .lane2 | .offline => false

/-- A presence sensor's level taken. -/
def Sensors.write (v : Sensors) (p : Place) (present : Bool) : Sensors :=
  match p with
  | .load => { v with load := present }
  | .mask => { v with mask := present }
  | .sprayA => { v with sprayA := present }
  | .sprayB => { v with sprayB := present }
  | .inspect => { v with inspect := present }
  | .unload => { v with unload := present }
  | .bench n => { v with bench := v.bench.set n present }
  | .wetq | .lane1 | .lane2 | .offline => v

/-- What the sensor of a place reads. -/
def State.present (s : State) (p : Place) : Bool := s.ltk.sensors.read p

/-- The level of a sensor taken. -/
def State.setSensor (s : State) (p : Place) (present : Bool) : State :=
  { s with ltk := { s.ltk with sensors := s.ltk.sensors.write p present } }

/-- A move in flight keeps a position occupied: its target (R1), and the station that a move to a bench position comes
from, until that move ends (R19, R20; log 34). -/
def Move.occupies (m : Move) (p : Place) : Bool := decide (m.dst = p) || (decide (m.src = p) && m.dst.isBench)

/-- A single-place or bench position is free (R1, R19). -/
def State.isFree (s : State) (p : Place) : Bool :=
  (s.recordsAt p).isEmpty && !(s.ltk.moves.any fun m => m.occupies p) && !(s.present p)

/-- The move in flight of a record. -/
def State.moveOf (s : State) (i : RecIx) : Option Move := s.ltk.moves.find? fun m => decide (m.ix = i)

/-- The moves in flight set. -/
def State.setMoves (s : State) (ms : List Move) : State := { s with ltk := { s.ltk with moves := ms } }

/-! ## The recipe of a record -/

/-- The content of a slot, when it is VALID. -/
def Slot.recipe? : Slot → Option Recipe
  | .valid _ _ r => some r
  | .empty | .loading _ => none

/-- What a LOADING or VALID slot holds beside its sections. -/
def Slot.head? : Slot → Option SlotHead
  | .valid h _ _ => some h
  | .loading h => some h
  | .empty => none

/-- The recipe resident in a record's Recipe Slot (R36). -/
def State.recipeOf (s : State) (i : RecIx) : Option Recipe :=
  match s.rec? i with
  | some r =>
    match r.slot with
    | some k => (s.rsc.slots[k]).recipe?
    | none => none
  | none => none

/-! ## The store (R26) -/

/-- One byte of the store; an unlisted byte reads as erased (R27). -/
def storeGet : List Host.Cell → Nat → Byte
  | [], _ => Config.erasedByte
  | (a, b) :: m, x => if x = a then b else storeGet m x

/-- One byte of the store written, the list kept in its canonical form: addresses strictly rising, no entry equal to
the erased byte. -/
def storePut : List Host.Cell → Nat → Byte → List Host.Cell
  | [], x, v => if v = Config.erasedByte then [] else [(x, v)]
  | (a, b) :: m, x, v =>
    if x < a then (if v = Config.erasedByte then (a, b) :: m else (x, v) :: (a, b) :: m)
    else if x = a then (if v = Config.erasedByte then m else (x, v) :: m)
    else (a, b) :: storePut m x v

/-- `n` consecutive bytes of the store. -/
def storeRead (m : List Host.Cell) (offset n : Nat) : List Byte :=
  (List.range n).map fun k => storeGet m (offset + k)

/-- Consecutive bytes of the store written. -/
def storeWrite (m : List Host.Cell) (offset : Nat) : List Byte → List Host.Cell
  | [] => m
  | v :: vs => storeWrite (storePut m offset v) (offset + 1) vs

/-- The canonical form of the store's list: addresses strictly rising and no entry erased. -/
def storeWf : List Host.Cell → Bool
  | [] => true
  | [(_, b)] => decide (b ≠ Config.erasedByte)
  | (a, b) :: (a', b') :: m => decide (b ≠ Config.erasedByte) && decide (a < a') && storeWf ((a', b') :: m)

/-! ## Small arithmetic -/

/-- Addition that saturates at a limit (00, "Arithmetic"). -/
def satAdd (limit a b : Nat) : Nat := min (a + b) limit

/-- Saturating increment. -/
def satInc (limit a : Nat) : Nat := satAdd limit a 1

/-- Big-endian number of a list of bytes (11, opening). -/
def beNat : List Byte → Nat
  | bs => bs.foldl (fun n b => n * 256 + b.toNat) 0

end Sys2Proof.Machine
end

