-- ==== Sys2Proof/Machine/Operands.lean ====
section
/-! DEFINITION. The operand forms: the coded fields of request bodies, the ranges that the Link Interface Unit checks
(R190), the kinds of requests (R189), and request bodies as bytes, both ways. -/

namespace Sys2Proof.Machine

/-! ## Coded fields (11, "Request bodies") -/

/-- The line mode codes. -/
def modeOf (b : Byte) : Option LineMode :=
  if b = 0x00 then some .idle else if b = 0x01 then some .run else if b = 0x02 then some .pause
  else if b = 0x03 then some .stop else none

/-- The cell codes. -/
def cellOf (b : Byte) : Option CellId := if b = 0x00 then some .a else if b = 0x01 then some .b else none

/-- The head codes. -/
def headOf (b : Byte) : Option HeadId := if b = 0x00 then some .mask else if b = 0x01 then some .inspect else none

/-- The lamp codes: true for ON. -/
def lampOf (b : Byte) : Option Bool := if b = 0x00 then some false else if b = 0x01 then some true else none

/-- The severity codes. -/
def severityOf (b : Byte) : Option Severity :=
  if b = 0x01 then some .minor else if b = 0x02 then some .major else if b = 0x03 then some .critical else none

/-- The disposition codes. -/
def dispositionOf (b : Byte) : Option Disposition :=
  if b = 0x01 then some .remask else if b = 0x02 then some .respray else if b = 0x03 then some .recure
  else if b = 0x04 then some .wetWipe else if b = 0x05 then some .strip else if b = 0x06 then some .useAsIs
  else if b = 0x07 then some .scrap else none

/-- A printable ASCII byte, 0x20..0x7E. -/
def printable (b : Byte) : Bool := 0x20 ≤ b.toNat && b.toNat ≤ 0x7E

/-- A recipe number, 1..64. -/
def recipeNumberOk (b : Byte) : Bool := 1 ≤ b.toNat && b.toNat ≤ 64

/-- The ranges that the Link Interface Unit checks (R179 step 5, R190 and the owning rules). The lengths of a serial (R12) and
of a text (R152, R153) are among them; step 4 has refused such a body with BAD_LENGTH before (log 11). -/
def rangesOk : Request → Bool
  | .lineModeSet m => (modeOf m).isSome
  | .lineConfig x m => 1 ≤ x.toNat && x.toNat ≤ 4 && 1 ≤ m.toNat && m.toNat ≤ 2000
  | .faultAck c => c.toNat ≠ 0 && decide (c.toNat < 8)
  | .admitCarrier _ n serial => recipeNumberOk n && 1 ≤ serial.length && serial.length ≤ 20 && serial.all printable
  | .remove i | .carrierRead i | .traceTake i | .holdRead i | .holdClaim i | .holdUnclaim i => decide (i.toNat < 24)
  | .findingRead i => decide (i.toNat < 24)
  | .holdPlace i v => decide (i.toNat < 24) && (severityOf v).isSome
  | .instructionPost i x | .findingPost i x =>
    decide (i.toNat < 24) && 1 ≤ x.length && x.length ≤ 48 && x.all printable
  | .holdDispose i d => decide (i.toNat < 24) && (dispositionOf d).isSome
  | .cellHome c | .cellAbort c | .cellClear c => (cellOf c).isSome
  | .headClear h => (headOf h).isSome
  | .lampSet b => (lampOf b).isSome
  | .storeRead o n => 1 ≤ n.toNat && n.toNat ≤ 200 && o.toNat + n.toNat ≤ Config.storeBytes
  | .storeWrite o d => o.toNat % 64 + d.length ≤ 64 && o.toNat + d.length ≤ Config.storeBytes
  | .recipeCheck n => recipeNumberOk n
  | .identify | .lineStatus | .resume | .lineClear | .faultRead | .markClear _ | .benchList | .slotList => true

/-! ## Kinds (R189) and the links that carry them (R179) -/

/-- The kind code of a request. -/
def kindOf : Request → Byte
  | .identify => 0x01
  | .lineStatus => 0x02
  | .lineModeSet _ => 0x03
  | .resume => 0x04
  | .lineConfig _ _ => 0x05
  | .lineClear => 0x06
  | .faultRead => 0x07
  | .faultAck _ => 0x08
  | .admitCarrier _ _ _ => 0x10
  | .remove _ => 0x11
  | .markClear _ => 0x12
  | .carrierRead _ => 0x13
  | .traceTake _ => 0x14
  | .holdPlace _ _ => 0x18
  | .holdRead _ => 0x19
  | .holdClaim _ => 0x1A
  | .holdUnclaim _ => 0x1B
  | .instructionPost _ _ => 0x1C
  | .findingRead _ => 0x1D
  | .findingPost _ _ => 0x1E
  | .holdDispose _ _ => 0x1F
  | .benchList => 0x20
  | .cellHome _ => 0x28
  | .cellAbort _ => 0x29
  | .cellClear _ => 0x2A
  | .headClear _ => 0x2B
  | .lampSet _ => 0x2C
  | .storeRead _ _ => 0x30
  | .storeWrite _ _ => 0x31
  | .recipeCheck _ => 0x32
  | .slotList => 0x33

/-- The assigned request kinds (R189). -/
def requestKinds : List Byte :=
  [0x01, 0x02, 0x03, 0x04, 0x05, 0x06, 0x07, 0x08, 0x10, 0x11, 0x12, 0x13, 0x14, 0x18, 0x19, 0x1A, 0x1B, 0x1C, 0x1D,
    0x1E, 0x1F, 0x20, 0x28, 0x29, 0x2A, 0x2B, 0x2C, 0x30, 0x31, 0x32, 0x33]

/-- The kinds that both links carry: HOLD_READ, HOLD_CLAIM, HOLD_UNCLAIM, HOLD_DISPOSE (R179). -/
def bothLinkKinds : List Byte := [0x19, 0x1A, 0x1B, 0x1F]

/-- The kinds that the Bench Link alone carries: BENCH_LIST, FINDING_POST (R179). -/
def benchOnlyKinds : List Byte := [0x20, 0x1E]

/-- Whether a link carries a request kind (R179 step 3). -/
def carries (l : Link) (kind : Byte) : Bool :=
  match l with
  | .bench => bothLinkKinds.contains kind || benchOnlyKinds.contains kind
  | .host => requestKinds.contains kind && !benchOnlyKinds.contains kind

/-! ## Request bodies as bytes (R190) -/

/-- The bytes of a 16-bit number, high byte first. -/
def bytes16 (v : BitVec 16) : List Byte := [v.extractLsb' 8 8, v.extractLsb' 0 8]

/-- The bytes of a 24-bit number, high byte first. -/
def bytes24 (v : BitVec 24) : List Byte := [v.extractLsb' 16 8, v.extractLsb' 8 8, v.extractLsb' 0 8]

/-- The bytes of a 32-bit number, high byte first. -/
def bytes32 (v : BitVec 32) : List Byte :=
  [v.extractLsb' 24 8, v.extractLsb' 16 8, v.extractLsb' 8 8, v.extractLsb' 0 8]

/-- The 8 bytes of a tag ID, in tag order. -/
def bytes64 (v : TagId) : List Byte :=
  [v.extractLsb' 56 8, v.extractLsb' 48 8, v.extractLsb' 40 8, v.extractLsb' 32 8, v.extractLsb' 24 8,
    v.extractLsb' 16 8, v.extractLsb' 8 8, v.extractLsb' 0 8]

/-- The body of a request, in the order of the table of request bodies. -/
def bodyOf : Request → List Byte
  | .identify | .lineStatus | .resume | .lineClear | .faultRead | .benchList | .slotList => []
  | .lineModeSet b | .lampSet b | .cellHome b | .cellAbort b | .cellClear b | .headClear b | .faultAck b => [b]
  | .remove b | .carrierRead b | .traceTake b | .holdRead b | .holdClaim b | .holdUnclaim b | .findingRead b => [b]
  | .recipeCheck b => [b]
  | .holdPlace i v => [i, v]
  | .holdDispose i d => [i, d]
  | .lineConfig x m => x :: bytes16 m
  | .markClear t => bytes64 t
  | .admitCarrier t n serial => bytes64 t ++ n :: serial
  | .instructionPost i x | .findingPost i x => i :: x
  | .storeRead o n => bytes24 o ++ [n]
  | .storeWrite o d => bytes24 o ++ d

/-- The frame that carries a request. -/
def frameOf (tag : Byte) (r : Request) : Frame := { kind := kindOf r, tag := tag, body := bodyOf r }

/-- A 24-bit number from its bytes. -/
def num24 (a b c : Byte) : BitVec 24 := (a ++ b) ++ c

/-- A tag ID from its bytes. -/
def num64 (a b c d e f g h : Byte) : TagId := ((((((a ++ b) ++ c) ++ d) ++ e) ++ f) ++ g) ++ h

/-- A body of no byte. -/
def noBody (r : Request) : List Byte → Option Request
  | [] => some r
  | _ :: _ => none

/-- A body of one byte. -/
def oneByte (f : Byte → Request) : List Byte → Option Request
  | [b] => some (f b)
  | _ => none

/-- The request of a kind and a body; `none` when the body's length is not one that the kind allows (R190). The caller
has checked that the kind is assigned. -/
def requestOf (kind : Byte) (body : List Byte) : Option Request :=
  let r : Option Request :=
    match kind.toNat with
    | 0x01 => noBody .identify body
    | 0x02 => noBody .lineStatus body
    | 0x03 => oneByte .lineModeSet body
    | 0x04 => noBody .resume body
    | 0x05 => match body with
      | [x, a, b] => some (.lineConfig x (a ++ b))
      | _ => none
    | 0x06 => noBody .lineClear body
    | 0x07 => noBody .faultRead body
    | 0x08 => oneByte .faultAck body
    | 0x10 => match body with
      | a :: b :: c :: d :: e :: f :: g :: h :: n :: serial => some (.admitCarrier (num64 a b c d e f g h) n serial)
      | _ => none
    | 0x11 => oneByte .remove body
    | 0x12 => match body with
      | [a, b, c, d, e, f, g, h] => some (.markClear (num64 a b c d e f g h))
      | _ => none
    | 0x13 => oneByte .carrierRead body
    | 0x14 => oneByte .traceTake body
    | 0x18 => match body with
      | [i, v] => some (.holdPlace i v)
      | _ => none
    | 0x19 => oneByte .holdRead body
    | 0x1A => oneByte .holdClaim body
    | 0x1B => oneByte .holdUnclaim body
    | 0x1C => match body with
      | i :: text => some (.instructionPost i text)
      | [] => none
    | 0x1D => oneByte .findingRead body
    | 0x1E => match body with
      | i :: text => some (.findingPost i text)
      | [] => none
    | 0x1F => match body with
      | [i, d] => some (.holdDispose i d)
      | _ => none
    | 0x20 => noBody .benchList body
    | 0x28 => oneByte .cellHome body
    | 0x29 => oneByte .cellAbort body
    | 0x2A => oneByte .cellClear body
    | 0x2B => oneByte .headClear body
    | 0x2C => oneByte .lampSet body
    | 0x30 => match body with
      | [a, b, c, n] => some (.storeRead (num24 a b c) n)
      | _ => none
    | 0x31 => match body with
      | a :: b :: c :: data => some (.storeWrite (num24 a b c) data)
      | _ => none
    | 0x32 => oneByte .recipeCheck body
    | 0x33 => noBody .slotList body
    | _ => none
  r.filter Request.lengthOk

end Sys2Proof.Machine
end

