-- ==== Sys2Proof/Machine/Flags.lean ====
section
/-! DEFINITION. The Report Queue with its lost count and full flag (R183 to R185), and the fault record with its
detected flags (R170). -/

namespace Sys2Proof.Machine

/-- The class of a fault (09, "Faults"). -/
def FaultCode.cls : FaultCode → FaultClass
  | .tagWriteRetry | .probeRetry | .spuriousResult | .starveRecovered | .sensorDegraded => .correctable
  | .zoneSensorLost | .zoneOvertemp => .fatal
  | .transportTimeout | .tagMismatch | .tagWriteFail | .storeFault | .inspectPositionTimeout | .homeTimeout => .nonfatal
  | .segmentBad | .runZone | .gantryTimeout | .valveFault | .starveLimit | .lampFault | .lampLow => .nonfatal
  | .reportLost => .nonfatal

/-- Steps 1 to 3 of R170: the detected flag, the last-fault entry, and the first-FATAL entry when it is absent. -/
def FaultRecord.note (r : FaultRecord) (e : FaultEntry) : FaultRecord :=
  match e.code.cls with
  | .correctable => { r with correctable := true, lastCorrectable := some e }
  | .nonfatal => { r with nonfatal := true, lastNonfatal := some e }
  | .fatal => { r with fatal := true, lastFatal := some e, firstFatal := r.firstFatal.or (some e) }

/-- The fault record set. -/
def State.setRecord (s : State) (r : FaultRecord) : State := { s with lmf := { s.lmf with record := r } }

/-- The entry that a fault leaves in the fault record. -/
def State.faultEntry (s : State) (code : FaultCode) (origin : Origin) (detail : FaultDetail) : FaultEntry :=
  { code := code, origin := origin, time := s.now, detail := detail }

/-- A discarded report counted (R183). -/
def State.countLost (s : State) : State := { s with liu := { s.liu with lost := satInc Config.lostMax s.liu.lost } }

/-- A report placed in the Report Queue, or discarded when it holds 32 (R183). The first discard while the full flag
is clear sets the flag and raises REPORT_LOST, whose own FAULT report is discarded as well (R185). -/
def State.queueReport (s : State) (body : ReportBody) : State :=
  if s.liu.reports.length < Config.reportQueueMax then
    { s with liu := { s.liu with reports := s.liu.reports ++ [{ time := s.now, body := body }] } }
  else if s.liu.full then s.countLost
  else
    let s₁ := s.countLost
    let s₂ := { s₁ with liu := { s₁.liu with full := true } }
    (s₂.setRecord (s₂.lmf.record.note (s₂.faultEntry .reportLost .liu {}))).countLost

/-- Steps 1 to 4 of R170, for a fault that does not change the line mode, or before it does. -/
def State.noteFault (s : State) (code : FaultCode) (origin : Origin) (detail : FaultDetail) : State :=
  let e := s.faultEntry code origin detail
  (s.setRecord (s.lmf.record.note e)).queueReport (.fault code.cls e)

/-- The detected flag of a class. -/
def FaultRecord.flag (r : FaultRecord) : FaultClass → Bool
  | .correctable => r.correctable
  | .nonfatal => r.nonfatal
  | .fatal => r.fatal

/-- FAULT_ACK (R171): the flags of the named classes cleared (bit 0 CORRECTABLE, bit 1 NONFATAL, bit 2 FATAL), and the
first-FATAL entry when FATAL is named. The last-fault entries are kept. -/
def FaultRecord.acknowledge (r : FaultRecord) (classes : Byte) : FaultRecord :=
  { r with
    correctable := r.correctable && !classes.getLsbD 0
    nonfatal := r.nonfatal && !classes.getLsbD 1
    fatal := r.fatal && !classes.getLsbD 2
    firstFatal := if classes.getLsbD 2 then none else r.firstFatal }

end Sys2Proof.Machine
end

