-- ==== Sys2Proof/Machine/Layout.lean ====
section
/-! DEFINITION. The byte layouts of 11_frame_and_record_layouts.md: the CRC and the frame (R188), the receiver (R177),
the segment record (R191), and the bodies of replies and reports (R190). -/

namespace Sys2Proof.Machine

/-! ## CRC-16 (R188) -/

/-- One bit of the CRC: polynomial 0x1021, unreflected. -/
def crcBit (c : BitVec 16) : BitVec 16 := if c.msb then (c <<< 1) ^^^ 0x1021 else c <<< 1

/-- One byte of the CRC. -/
def crcByte (c : BitVec 16) (b : Byte) : BitVec 16 :=
  crcBit (crcBit (crcBit (crcBit (crcBit (crcBit (crcBit (crcBit (c ^^^ (b.setWidth 16 <<< 8)))))))))

/-- The CRC-16 of a list of bytes: initial value 0xFFFF, no final XOR. -/
def crc16 (bs : List Byte) : BitVec 16 := bs.foldl crcByte 0xFFFF

/-! ## Numbers, options and lists (R190) -/

/-- One byte. -/
def e8 (n : Nat) : List Byte := [BitVec.ofNat 8 n]

/-- Two bytes, high byte first. -/
def e16 (n : Nat) : List Byte := [BitVec.ofNat 8 (n / 256), BitVec.ofNat 8 n]

/-- Three bytes, high byte first. -/
def e24 (n : Nat) : List Byte := BitVec.ofNat 8 (n / 65536) :: e16 n

/-- Four bytes, high byte first. -/
def e32 (n : Nat) : List Byte := BitVec.ofNat 8 (n / 16777216) :: e24 n

/-- Two bytes in two's complement. -/
def eInt16 (n : Int) : List Byte := e16 (n % 65536).toNat

/-- A line time. -/
def eTime (t : LineTime) : List Byte := e32 t.toNat

/-- A flag, and the state of the emergency-stop input: 1 when set or active, 0 when clear or inactive, a coding that R190
does not give; DEDUCED (log 12). -/
def eFlag (b : Bool) : List Byte := e8 b.toNat

/-- An optional field: 0x00 when absent, otherwise 0x01 and the field. -/
def eOpt {α : Type} (f : α → List Byte) : Option α → List Byte
  | none => [0x00]
  | some a => 0x01 :: f a

/-- A list: its number of entries and the entries. -/
def eList {α : Type} (f : α → List Byte) (xs : List α) : List Byte := e8 xs.length ++ xs.flatMap f

/-- A text: its number of bytes and the bytes. -/
def eText (bs : List Byte) : List Byte := e8 bs.length ++ bs

/-! ## Enumerations (R190) -/

/-- A position byte: the order of the position field of R5. -/
def placeCode : Place → Nat
  | .load => 0
  | .mask => 1
  | .sprayA => 2
  | .sprayB => 3
  | .inspect => 4
  | .wetq => 5
  | .lane1 => 6
  | .lane2 => 7
  | .unload => 8
  | .bench n => 9 + n.val
  | .offline => 13

/-- A position; IN_TRANSIT is followed by its source and its target. -/
def ePosition : Position → List Byte
  | .standing p => e8 (placeCode p)
  | .inTransit a b => e8 14 ++ e8 (placeCode a) ++ e8 (placeCode b)

/-- Line mode. -/
def modeCode : LineMode → Nat
  | .idle => 0
  | .run => 1
  | .pause => 2
  | .stop => 3

/-- Cell. -/
def cellCode : CellId → Nat
  | .a => 0
  | .b => 1

/-- Head. -/
def headCode : HeadId → Nat
  | .mask => 0
  | .inspect => 1

/-- Lane number. -/
def laneCode : LaneId → Nat
  | .lane1 => 1
  | .lane2 => 2

/-- Tunnel zone number, 1..4 for Z1..Z4, in lists of zones and in the detail of faults: R190 gives a zone no code, and the
model sends its number, not an enumeration from 0x00; DEDUCED (log 12). -/
def zoneCode (z : ZoneIx) : Nat := z.val + 1

/-- Severity. -/
def severityCode : Severity → Nat
  | .minor => 1
  | .major => 2
  | .critical => 3

/-- Disposition. -/
def dispositionCode : Disposition → Nat
  | .remask => 1
  | .respray => 2
  | .recure => 3
  | .wetWipe => 4
  | .strip => 5
  | .useAsIs => 6
  | .scrap => 7

/-- Store state. -/
def storeStateCode : StoreState → Nat
  | .blank => 0
  | .opened => 1
  | .guarded => 2

/-- A disposer: HOST_LINK or BENCH_LINK. -/
def linkCode : Link → Nat
  | .host => 0
  | .bench => 1

/-- A claim: NONE, HOST_LINK or BENCH_LINK. -/
def claimCode : Option Link → Nat
  | none => 0
  | some .host => 1
  | some .bench => 2

/-- Status, and the outcome as an optional field. -/
def eStatus : Status → List Byte
  | .loading => e8 1 ++ [0x00]
  | .waitLane => e8 2 ++ [0x00]
  | .active => e8 3 ++ [0x00]
  | .done .good => e8 4 ++ [0x01, 0x00]
  | .done .concession => e8 4 ++ [0x01, 0x01]
  | .done .scrapped => e8 4 ++ [0x01, 0x02]
  | .done .removed => e8 4 ++ [0x01, 0x03]

/-- Tag check. -/
def tagCheckCode : TagCheck → Nat
  | .none => 0
  | .passed => 1
  | .failed => 2

/-- Route entry, in the order of R17's list. -/
def routeCode : RouteEntry → Nat
  | .mask => 0
  | .sprayA => 1
  | .sprayB => 2
  | .inspect => 3
  | .wetq => 4
  | .lane => 5
  | .exit => 6

/-- Mask verdict. -/
def maskVerdictCode : MaskVerdict → Nat
  | .none => 0
  | .ok => 1
  | .fail => 2

/-- Point verdicts, each list numbered on its own: the passing one, the failing ones, NO_RESULT, NOT_CHECKED. Only the
mask list's order is the spec's (R5); the order of the keep-out and coverage lists is DEDUCED (log 12). -/
def pointVerdictCode (l : PointList) : PointVerdict → Nat
  | .present | .clean | .covered => 0
  | .absent | .contaminated | .void => 1
  | .misplaced => 2
  | .noResult => match l with
    | .mask => 3
    | .keepout | .coverage => 2
  | .notChecked => match l with
    | .mask => 4
    | .keepout | .coverage => 3

/-- Zone verdict, numbered NONE, then in the order of R102. -/
def zoneVerdictCode : ZoneVerdict → Nat
  | .none => 0
  | .unknown => 1
  | .low => 2
  | .high => 3
  | .ok => 4

/-- Cure verdict. -/
def cureVerdictCode : CureVerdict → Nat
  | .none => 0
  | .cured => 1
  | .notCured => 2

/-- Hold state. -/
def holdStateCode : HoldState → Nat
  | .opened => 0
  | .atBench => 1
  | .disposed => 2

/-- Stage. -/
def stageCode : Stage → Nat
  | .none => 0
  | .mask => 1
  | .inspect => 2
  | .exit => 3
  | .stripped => 4

/-- Reason codes, numbered from the reason table. -/
def reasonCode : ReasonCode → Nat
  | .maskAbsent => 0
  | .maskMisplaced => 1
  | .maskNoResult => 2
  | .filmLow => 3
  | .filmHigh => 4
  | .filmUnknown => 5
  | .keepout => 6
  | .void => 7
  | .inspectNoResult => 8
  | .openTime => 9
  | .undercureThermal => 10
  | .undercureUv => 11
  | .overcure => 12
  | .cureUnknown => 13
  | .overtemp => 14
  | .passLimit => 15
  | .ordered => 16

/-- Fault codes, numbered from the fault table. -/
def faultCode : FaultCode → Nat
  | .transportTimeout => 0
  | .tagMismatch => 1
  | .tagWriteRetry => 2
  | .tagWriteFail => 3
  | .storeFault => 4
  | .inspectPositionTimeout => 5
  | .probeRetry => 6
  | .spuriousResult => 7
  | .homeTimeout => 8
  | .segmentBad => 9
  | .runZone => 10
  | .gantryTimeout => 11
  | .valveFault => 12
  | .starveLimit => 13
  | .starveRecovered => 14
  | .lampFault => 15
  | .lampLow => 16
  | .sensorDegraded => 17
  | .zoneSensorLost => 18
  | .zoneOvertemp => 19
  | .reportLost => 20

/-- Fault class. -/
def faultClassCode : FaultClass → Nat
  | .correctable => 0
  | .nonfatal => 1
  | .fatal => 2

/-- Origins, numbered in the order in which the fault table first names them. -/
def originCode : Origin → Nat
  | .ltk => 0
  | .hmg => 1
  | .rsc => 2
  | .ine _ => 3
  | .scc .a => 4
  | .scc .b => 5
  | .ctc => 6
  | .liu => 7

/-- Cell state. -/
def cellStateCode : CellState → Nat
  | .unhomed => 0
  | .homing => 1
  | .ready => 2
  | .priming => 3
  | .running => 4
  | .starved => 5
  | .faulted => 6

/-- Head state. -/
def headStateCode : HeadState → Nat
  | .idle => 0
  | .walking => 1
  | .evaluating => 2
  | .faulted => 3

/-- Lane state. -/
def laneStateCode : LaneState → Nat
  | .stopped => 0
  | .running => 1
  | .blocked => 2

/-- Lamp state. -/
def lampStateCode : LampState → Nat
  | .off => 0
  | .warming => 1
  | .ready => 2
  | .low => 3
  | .fault => 4

/-- Sensor condition. -/
def zoneCondCode : ZoneCond → Nat
  | .normal => 0
  | .degraded => 1
  | .holding => 2
  | .lost => 3

/-- Match result. -/
def matchCode : MatchResult → Nat
  | .reentry => 0
  | .duplicate => 1
  | .new => 2
  | .marked => 3
  | .unreadable => 4

/-- Walk mode. -/
def walkModeCode : WalkMode → Nat
  | .full => 0
  | .firstFail => 1

/-- Status codes (R189). -/
def statusCode : ReplyStatus → Nat
  | .ok => 0x00
  | .unknownKind => 0x01
  | .badLength => 0x02
  | .badValue => 0x03
  | .wrongMode => 0x04
  | .busy => 0x05
  | .notFound => 0x06
  | .marked => 0x07
  | .lineFull => 0x08
  | .storeBlank => 0x09
  | .noRecipe => 0x0A
  | .recipeBad => 0x0B
  | .noSlot => 0x0C
  | .inUse => 0x0D
  | .locked => 0x0E
  | .storeFault => 0x0F
  | .claimedElsewhere => 0x10
  | .notClaimed => 0x11
  | .slotFull => 0x12
  | .instructionUnread => 0x13
  | .notPermitted => 0x14
  | .notDone => 0x15
  | .notClear => 0x16

/-! ## Frames (R188) -/

/-- The length byte of a frame: kind, tag and body. -/
def Frame.lengthByte (f : Frame) : Byte := BitVec.ofNat 8 (f.body.length + 2)

/-- The bytes that the frame CRC covers. -/
def Frame.covered (f : Frame) : List Byte := f.lengthByte :: f.kind :: f.tag :: f.body

/-- The bytes of a frame on the line. -/
def Frame.bytes (f : Frame) : List Byte := 0xC5 :: f.covered ++ bytes16Of (crc16 f.covered)
where
  /-- A CRC as two bytes, high byte first. -/
  bytes16Of (c : BitVec 16) : List Byte := [c.extractLsb' 8 8, c.extractLsb' 0 8]

/-! ## The receiver (R177) -/

/-- The frame in a whole payload (kind, tag, body and the two CRC bytes) after the length byte `len`, when its CRC
matches. -/
def frameIn (len : Byte) (got : List Byte) : Option Frame :=
  let data := got.take len.toNat
  match data, got.drop len.toNat with
  | kind :: tag :: body, [hi, lo] => if crc16 (len :: data) = hi ++ lo then some ⟨kind, tag, body⟩ else none
  | _, _ => none

/-- One byte taken by a receiver: the next state, and the valid frame that the byte completes, if any. `starting` is set
until start-up ends; a frame whose start byte comes before then is discarded whole. -/
def rxByte (starting : Bool) (now : LineTime) (rx : Rx) (b : Byte) : Rx × Option Frame :=
  match rx with
  | .hunt => if b = 0xC5 then (.length starting now, none) else (.hunt, none)
  | .length early _ =>
    if 2 ≤ b.toNat ∧ b.toNat ≤ 242 then (.body early now b [], none) else (.hunt, none)
  | .body early _ len got =>
    let got' := got ++ [b]
    if got'.length < len.toNat + 2 then (.body early now len got', none)
    else (.hunt, if early then none else frameIn len got')

/-- The valid frames in a run of bytes, in order, and the receiver's state after them. -/
def rxRun (starting : Bool) (now : LineTime) : Rx → List Byte → Rx × List Frame
  | rx, [] => (rx, [])
  | rx, b :: bs =>
    let step := rxByte starting now rx b
    let rest := rxRun starting now step.1 bs
    (rest.1, step.2.toList ++ rest.2)

/-! ## The segment record (R191) -/

/-- A segment's kind from its two bits. -/
def segKindOf (v : BitVec 2) : Option SegKind := if v = 1 then some .move else if v = 2 then some .spray else none

/-- A segment's axis-direction from its three bits. -/
def axisOf (v : BitVec 3) : Option AxisDir :=
  if v = 0 then some .plusX else if v = 1 then some .minusX else if v = 2 then some .plusY
  else if v = 3 then some .minusY else none

/-- A segment from its 96 bits. Bits 7..0 are ignored. -/
def decodeSegment (v : BitVec 96) : Segment :=
  { kind := segKindOf (v.extractLsb' 94 2)
    runStart := v.getLsbD 93
    dir := axisOf (v.extractLsb' 90 3)
    zone := (v.extractLsb' 86 4).toNat
    x := (v.extractLsb' 73 13).toNat
    y := (v.extractLsb' 60 13).toNat
    len := (v.extractLsb' 47 13).toNat
    speed := (v.extractLsb' 38 9).toNat
    flow := (v.extractLsb' 27 11).toNat
    z := (v.extractLsb' 18 9).toNat
    lead := (v.extractLsb' 13 5).toNat
    trail := (v.extractLsb' 8 5).toNat }

/-- The 96 bits of the 12 bytes of a segment record, byte 0 at the top. -/
def segmentBits (bs : List Byte) : BitVec 96 := BitVec.ofNat 96 (beNat bs)

/-! ## The carrier record and the hold part -/

/-- A text slot: the text and its unread flag. -/
def eSlot (t : TextSlot) : List Byte := eText t.text ++ eFlag t.unread

/-- The highest severity of two. -/
def Severity.max (a b : Severity) : Severity := if severityCode a < severityCode b then b else a

/-- The hold severity: the highest severity in the reasons list (R141). -/
def holdSeverity (rs : List Reason) : Severity := rs.foldl (fun v r => v.max r.severity) .minor

/-- A reason of the hold part. -/
def eReason (r : Reason) : List Byte :=
  e8 (reasonCode r.code) ++ e8 (severityCode r.severity) ++ e8 r.count ++ eTime r.firstRaise

/-- A reason of a report or of the history: code, severity and count. -/
def eReasonShort (r : Reason) : List Byte := e8 (reasonCode r.code) ++ e8 (severityCode r.severity) ++ e8 r.count

/-- A disposition with its disposer and line time. -/
def eDisposition (d : DispositionEntry) : List Byte :=
  e8 (dispositionCode d.what) ++ e8 (linkCode d.disposer) ++ eTime d.time

/-- The hold part, in the order of R141. -/
def eHold (h : Hold) : List Byte :=
  e8 (holdStateCode h.state) ++ eList eReason h.reasons ++ e8 (severityCode (holdSeverity h.reasons))
    ++ e8 (stageCode h.stage) ++ e8 (claimCode h.claim) ++ eOpt eSlot h.instruction ++ eOpt eSlot h.finding
    ++ eOpt eDisposition h.disposition ++ eFlag h.markWritten ++ eTime h.raiseTime

/-- A history entry, in the order of R161. -/
def eHistory (h : HistoryEntry) : List Byte :=
  eList eReasonShort h.reasons ++ e8 (severityCode h.severity) ++ (h.disposition.map eDisposition).getD []

/-- A zone entry, in the order of R104. -/
def eZone (z : ZoneEntry) : List Byte :=
  e32 z.acc ++ e16 z.thickness ++ e8 (zoneVerdictCode z.verdict) ++ eFlag z.abandoned

/-- A point verdict list. -/
def eVerdicts (l : PointList) (vs : List PointVerdict) : List Byte := eList (fun v => e8 (pointVerdictCode l v)) vs

/-- A carrier record, in the order of R5's table. The slot index is sent as an optional field, absent until the load has
succeeded: R5's table does not call it optional, and no rule gives its value in LOADING; the position in lane, to which
no rule gives an upper bound, takes 2 bytes; DEDUCED (log 12). -/
def eRecord (r : CarrierRecord) : List Byte :=
  eStatus r.status ++ eFlag r.removalPending ++ ePosition r.position ++ e8 (tagCheckCode r.tagCheck)
    ++ eList (fun p => e8 (routeCode p)) r.plan ++ bytes r.tagId ++ eText r.serial ++ e8 r.recipe
    ++ eOpt (fun k : SlotIx => e8 k.val) r.slot ++ eFlag r.qualified ++ e8 r.pass ++ e8 (maskVerdictCode r.maskVerdict)
    ++ eVerdicts .mask r.maskPoints ++ eList eZone r.zones ++ eOpt eTime r.sprayEnd ++ e16 r.flowClamps
    ++ e8 r.starves ++ eVerdicts .keepout r.keepoutPoints ++ eVerdicts .coverage r.coveragePoints
    ++ eOpt (fun l => e8 (laneCode l)) r.lane ++ eOpt e16 r.posInLane ++ e32 r.thermalDose ++ e32 r.uvDose
    ++ eOpt eInt16 r.peak ++ eOpt eTime r.entryTime ++ eOpt eTime r.exitTime ++ eFlag r.cureUnknown
    ++ e8 (cureVerdictCode r.cureVerdict) ++ eOpt eHold r.hold ++ eList eHistory r.history
where
  /-- The 8 bytes of a tag ID. -/
  bytes (t : TagId) : List Byte := e32 (t.toNat / 4294967296) ++ e32 (t.toNat % 4294967296)

/-- CARRIER_READ's data: the record, or status FREE and no further content (R25). -/
def eCarrier : Option CarrierRecord → List Byte
  | some r => eRecord r
  | none => e8 0

/-! ## Fault entries -/

/-- The detail of a fault as optional fields in R170's order: record, head, cell, zone with its channel, lane (which no
rule gives), segment index, position; DEDUCED (log 12). -/
def eDetail (o : Origin) (d : FaultDetail) : List Byte :=
  eOpt (fun i : RecIx => e8 i.val) d.ix ++ eOpt (fun h => e8 (headCode h)) (headOf o)
    ++ eOpt (fun c => e8 (cellCode c)) (cellOf o) ++ eOpt (fun z => e8 (zoneCode z)) d.zone
    ++ eOpt (fun c : Fin 8 => e8 c.val) d.channel ++ [0x00] ++ eOpt e16 d.segment ++ eOpt ePosition d.position
where
  /-- The head of an INE origin. -/
  headOf : Origin → Option HeadId
    | .ine h => some h
    | .ltk | .rsc | .scc _ | .ctc | .hmg | .liu => none
  /-- The cell of an SCC origin. -/
  cellOf : Origin → Option CellId
    | .scc c => some c
    | .ltk | .rsc | .ine _ | .ctc | .hmg | .liu => none

/-- A last-fault entry (R170). -/
def eFault (e : FaultEntry) : List Byte :=
  e8 (faultCode e.code) ++ e8 (originCode e.origin) ++ eTime e.time ++ eDetail e.origin e.detail

/-- The first-FATAL entry (R170: code, origin, detail, line time). -/
def eFirstFatal (e : FaultEntry) : List Byte :=
  e8 (faultCode e.code) ++ e8 (originCode e.origin) ++ eDetail e.origin e.detail ++ eTime e.time

/-- FAULT_READ's data (R171): the three flags, the three last-fault entries, the first-FATAL entry. -/
def eFaultRecord (r : FaultRecord) : List Byte :=
  eFlag r.correctable ++ eFlag r.nonfatal ++ eFlag r.fatal ++ eOpt eFault r.lastCorrectable
    ++ eOpt eFault r.lastNonfatal ++ eOpt eFault r.lastFatal ++ eOpt eFirstFatal r.firstFatal

/-! ## Reports (R190) -/

/-- Report kinds (R189). -/
def reportKind : ReportBody → Byte
  | .loadArrival _ _ => 0x40
  | .admitted _ _ => 0x41
  | .admitFailed _ _ => 0x42
  | .stationResult _ => 0x43
  | .sprayDone _ => 0x44
  | .tunnelEntry _ => 0x45
  | .tunnelExit _ => 0x46
  | .holdRaised _ => 0x47
  | .holdChanged _ => 0x48
  | .carrierDone _ => 0x49
  | .cellState _ _ _ _ => 0x4A
  | .laneState _ => 0x4B
  | .lampState _ _ _ => 0x4C
  | .lineMode _ _ _ _ => 0x4D
  | .fault _ _ => 0x4E

/-- Hold causes, in the order of R145. -/
def holdCauseCode : HoldCause → Nat
  | .reason => 0
  | .reopened => 1
  | .bench => 2
  | .offline => 3
  | .mark => 4
  | .claim => 5
  | .instructionRead => 6
  | .finding => 7
  | .disposed => 8
  | .closed => 9

/-- Cell causes, in the order of R86; the cause 'the fault code', which R86 does not name or number, is 11 with the fault
code behind it; DEDUCED (log 12). -/
def eCellCause : CellCause → List Byte
  | .cellHome => e8 0
  | .homeReached => e8 1
  | .homeTimeout => e8 2
  | .programStart => e8 3
  | .programEnd => e8 4
  | .cellAbort => e8 5
  | .cellClear => e8 6
  | .removed => e8 7
  | .carrierLost => e8 8
  | .stop => e8 9
  | .emergencyStop => e8 10
  | .fault c => e8 11 ++ e8 (faultCode c)

/-- Lane causes, in the order of R113. -/
def laneCauseCode : LaneCause → Nat
  | .lineMode => 0
  | .exitWait => 1
  | .exitStart => 2
  | .removed => 3
  | .bound => 4
  | .unbound => 5
  | .lineClear => 6

/-- Lamp causes, in the order of R115. -/
def lampCauseCode : LampCause → Nat
  | .lampSet => 0
  | .warmUpEnd => 1
  | .irradiance => 2
  | .ballastFault => 3

/-- LINE_MODE causes, in the order of R163; FAULT is followed by the fault code. -/
def eModeCause : ModeCause → List Byte
  | .startUp => e8 0
  | .lineModeSet => e8 1
  | .resume => e8 2
  | .emergencyStop => e8 3
  | .fault c => e8 4 ++ e8 (faultCode c)

/-- Load failures, in the order of R13. -/
def loadFailureCode : LoadFailure → Nat
  | .recipeBad => 0
  | .noSlot => 1
  | .storeFault => 2

/-- Program outcomes, in the order of R86. -/
def outcomeCode : ProgramOutcome → Nat
  | .completed => 0
  | .aborted => 1
  | .stopped => 2
  | .faulted => 3
  | .carrierLost => 4
  | .removed => 5

/-- A record index. -/
def eIx (i : RecIx) : List Byte := e8 i.val

/-- The body of HOLD_RAISED and HOLD_CHANGED, in the order of R145. Whether a slot is present and unread is one optional
field that holds the unread flag; DEDUCED (log 12). -/
def eHoldReport (r : HoldReport) : List Byte :=
  eIx r.ix ++ e8 r.pass ++ eText r.serial ++ e8 (holdCauseCode r.cause) ++ e8 (holdStateCode r.state)
    ++ e8 (stageCode r.stage) ++ e8 (claimCode r.claim) ++ eList eReasonShort r.reasons ++ e8 (severityCode r.severity)
    ++ eOpt eFlag r.instruction ++ eOpt eFlag r.finding
    ++ eOpt (fun d : Disposition × Link => e8 (dispositionCode d.1) ++ e8 (linkCode d.2)) r.disposition
    ++ eFlag r.markWritten

/-- The body of STATION_RESULT, in the order of R60. -/
def eStationResult (r : StationResult) : List Byte :=
  e8 (headCode r.station) ++ eIx r.ix ++ e8 r.pass ++ e8 (walkModeCode r.mode)
    ++ (match r.maskVerdict with
        | some v => e8 (maskVerdictCode v) ++ eVerdicts .mask r.first
        | none => eVerdicts .keepout r.first ++ eVerdicts .coverage r.second)
    ++ e8 r.retries ++ e8 r.spurious ++ e32 r.elapsed

/-- The body of SPRAY_DONE, in the order of R86; whether the film was evaluated is said by the byte before the spray-end
time (log 12). -/
def eSprayDone (r : SprayDone) : List Byte :=
  e8 (cellCode r.cell) ++ e8 (cellCode r.cell) ++ eIx r.ix ++ e8 r.pass ++ e8 (outcomeCode r.outcome)
    ++ (match r.fault with
        | some (c, k) => e8 (faultCode c) ++ e16 k
        | none => [])
    ++ e16 r.counts.executed ++ e16 r.counts.discarded ++ e16 r.counts.abandoned ++ e16 r.counts.starves
    ++ eOpt eTime (if r.evaluated then r.sprayEnd else none)

/-- The content of a report after its header. -/
def eReport : ReportBody → List Byte
  | .loadArrival t m =>
    eOpt (fun v : TagRead => eRecord.bytes v.id) t ++ eOpt (fun v : TagRead => e8 v.mark.toNat) t ++ e8 (matchCode m)
  | .admitted i p => eIx i ++ e8 p
  | .admitFailed t w => eRecord.bytes t ++ e8 (loadFailureCode w)
  | .stationResult r => eStationResult r
  | .sprayDone r => eSprayDone r
  | .tunnelEntry r =>
    eIx r.ix ++ e8 r.pass ++ e8 (laneCode r.lane) ++ eTime r.entryTime ++ eOpt e32 r.sinceSpray ++ eFlag r.openTimeRaised
  | .tunnelExit r =>
    eIx r.ix ++ e8 r.pass ++ e8 (laneCode r.lane) ++ eTime r.exitTime ++ e32 r.thermalDose ++ e32 r.uvDose
      ++ eOpt eInt16 r.peak ++ eFlag r.cureUnknown ++ e8 (cureVerdictCode r.verdict) ++ e8 (placeCode r.target)
      ++ e32 r.waited
  | .holdRaised r | .holdChanged r => eHoldReport r
  | .carrierDone i => eIx i
  | .cellState c st why i => e8 (cellCode c) ++ e8 (cellStateCode st) ++ eCellCause why ++ eOpt eIx i
  | .laneState r =>
    e8 (laneCode r.lane) ++ e8 (laneStateCode r.state) ++ e8 (r.cls.getD 0) ++ e8 r.occupancy ++ e8 r.bound
      ++ e8 (laneCauseCode r.cause)
  | .lampState st why irr => e8 (lampStateCode st) ++ e8 (lampCauseCode why) ++ e16 irr
  | .lineMode m p t why => e8 (modeCode m) ++ e8 (modeCode p) ++ eTime t ++ eModeCause why
  | .fault c e => e8 (faultClassCode c) ++ eFault e

/-- The frame of a report being sent: its header holds the lost count and the line time of its queuing; its tag is 0
(R184, R188). -/
def reportFrame (lost : Nat) (r : Report) : Frame :=
  { kind := reportKind r.body, tag := 0, body := e8 lost ++ eTime r.time ++ eReport r.body }

/-! ## Replies (R179) -/

/-- The kinds whose OK replies are sent as a series of frames: CARRIER_READ, TRACE_TAKE, HOLD_READ, SLOT_LIST and
BENCH_LIST (R179). -/
def seriesKinds : List Byte := [0x13, 0x14, 0x19, 0x33, 0x20]

/-- The bodies of a series: sequence byte `n` (bit 7 set in every frame but the last) and up to 238 bytes of data each;
`fuel` bounds the number of frames. -/
def seriesBodies (fuel : Nat) (st : Byte) (n : Nat) (data : List Byte) : List (List Byte) :=
  match fuel with
  | 0 => []
  | fuel + 1 =>
    if data.length ≤ 238 then [st :: BitVec.ofNat 8 n :: data]
    else (st :: BitVec.ofNat 8 (n + 128) :: data.take 238) :: seriesBodies fuel st (n + 1) (data.drop 238)

/-- The frames of a reply: one, or a series (R179). A reply's kind is its request's kind + 0x80. -/
def replyFrames (r : Reply) : List Frame :=
  let st : Byte := BitVec.ofNat 8 (statusCode r.status)
  let bodies :=
    if r.status = .ok ∧ seriesKinds.contains r.kind then seriesBodies 128 st 0 r.data else [st :: r.data]
  bodies.map fun b => { kind := r.kind + 0x80, tag := r.tag, body := b }

/-- The frames that the Host Link transmitter sends. -/
def HostTx.frames : HostTx → List Frame
  | .reply r => replyFrames r
  | .report lost r => [reportFrame lost r]

end Sys2Proof.Machine
end

