-- ==== Sys2Proof/Machine/Hold.lean ====
section
/-! DEFINITION. The Hold Manager's operations on the hold part (08): raising reasons, hold reports, claims, closing a
hold into history, and the order of the Bench Queue. -/

namespace Sys2Proof.Machine

/-! ## Reports of the hold part (R145) -/

/-- What HOLD_RAISED and HOLD_CHANGED carry of a record and a hold. -/
def holdReport (i : RecIx) (r : CarrierRecord) (h : Hold) (cause : HoldCause) : HoldReport :=
  { ix := i, pass := r.pass, serial := r.serial, cause := cause, state := h.state, stage := h.stage, claim := h.claim
    reasons := h.reasons, severity := holdSeverity h.reasons, instruction := h.instruction.map TextSlot.unread
    finding := h.finding.map TextSlot.unread, disposition := h.disposition.map fun d => (d.what, d.disposer)
    markWritten := h.markWritten }

/-- HOLD_CHANGED queued for the hold part that a record has now; nothing without one. -/
def State.holdChanged (s : State) (i : RecIx) (cause : HoldCause) : State :=
  match s.rec? i with
  | some r =>
    match r.hold with
    | some h => s.queueReport (.holdChanged (holdReport i r h cause))
    | none => s
  | none => s

/-- The hold part of a record in use changed. -/
def State.modHold (s : State) (i : RecIx) (f : Hold → Hold) : State :=
  s.modRec i fun r => { r with hold := r.hold.map f }

/-- The hold part of a record. -/
def State.holdOf (s : State) (i : RecIx) : Option Hold :=
  match s.rec? i with
  | some r => r.hold
  | none => none

/-! ## Raising reasons (R142, R143) -/

/-- A new entry of the reasons list. -/
def newReason (code : ReasonCode) (sev : Severity) (now : LineTime) : Reason :=
  { code := code, severity := sev, count := 1, firstRaise := now }

/-- A count incremented, saturating at 255 (R141). -/
def Reason.bump (r : Reason) : Reason := { r with count := satInc 255 r.count }

/-- The entry of a listed code counted (R142 case 2). -/
def countListed (code : ReasonCode) (rs : List Reason) : List Reason :=
  rs.map fun r => if r.code = code then r.bump else r

/-- The overflow of R143: the first entry of the highest severity `top` is counted, and takes a higher severity. -/
def overflowInto (top sev : Severity) : List Reason → List Reason
  | [] => []
  | r :: rs => if r.severity = top then { r.bump with severity := top.max sev } :: rs else r :: overflowInto top sev rs

/-- A raise placed in the reasons list (R142 cases 2 to 4). -/
def placeReason (code : ReasonCode) (sev : Severity) (now : LineTime) (rs : List Reason) : List Reason :=
  if rs.any fun r => decide (r.code = code) then countListed code rs
  else if rs.length < 8 then rs ++ [newReason code sev now]
  else overflowInto (holdSeverity rs) sev rs

/-- A hold part created by its first reason, with PASS_LIMIT behind it in pass 3 (R142 case 1). -/
def newHold (code : ReasonCode) (sev : Severity) (pass : Nat) (now : LineTime) : Hold :=
  { state := .opened
    reasons := newReason code sev now :: (if pass = 3 then [newReason .passLimit .major now] else [])
    stage := .none, claim := none, instruction := none, finding := none, disposition := none, markWritten := false
    raiseTime := now }

/-- A raise taken by a standing hold part: a DISPOSED hold returns to OPEN and loses its disposition (R142). -/
def Hold.raise (h : Hold) (code : ReasonCode) (sev : Severity) (now : LineTime) : Hold :=
  let rs := placeReason code sev now h.reasons
  match h.state with
  | .disposed => { h with reasons := rs, state := .opened, disposition := none }
  | .opened | .atBench => { h with reasons := rs }

/-- A reason raised against a record (R142); dropped when the record has become DONE or FREE (R5). -/
def State.raiseReason (s : State) (i : RecIx) (code : ReasonCode) (sev : Severity) : State :=
  match s.live? i with
  | none => s
  | some r =>
    match r.hold with
    | none =>
      let h := newHold code sev r.pass s.now
      (s.setRec i (some { r with hold := some h })).queueReport (.holdRaised (holdReport i r h .reason))
    | some h =>
      let h' := h.raise code sev s.now
      let cause := if h.state = .disposed then HoldCause.reopened else .reason
      (s.setRec i (some { r with hold := some h' })).queueReport (.holdChanged (holdReport i r h' cause))

/-- The severity of a reason code other than ORDERED (08, "Raising reasons"). -/
def ReasonCode.severity : ReasonCode → Severity
  | .maskAbsent | .maskMisplaced | .maskNoResult | .filmLow | .keepout | .void | .inspectNoResult => .minor
  | .undercureThermal | .undercureUv | .ordered => .minor
  | .filmHigh | .filmUnknown | .openTime | .overcure | .cureUnknown | .passLimit => .major
  | .overtemp => .critical

/-- A reason raised with the severity of its code. -/
def State.raiseCode (s : State) (i : RecIx) (code : ReasonCode) : State := s.raiseReason i code code.severity

/-- A reason raised when a condition holds. -/
def State.raiseIf (s : State) (c : Bool) (i : RecIx) (code : ReasonCode) : State := if c then s.raiseCode i code else s

/-! ## Closing a hold (R161) -/

/-- The history entry of a hold part. -/
def historyOf (h : Hold) : HistoryEntry :=
  { reasons := h.reasons, severity := holdSeverity h.reasons, disposition := h.disposition }

/-- The hold part closed into a new entry at the end of the history list; it becomes absent. -/
def CarrierRecord.closeHold (r : CarrierRecord) : CarrierRecord :=
  match r.hold with
  | some h => { r with hold := none, history := r.history ++ [historyOf h] }
  | none => r

/-! ## Bench positions and the Bench Queue (R146, R147) -/

/-- The Hold Manager's bench positions set. -/
def State.setBench (s : State) (b : Vector (Option RecIx) 4) : State := { s with hmg := { s.hmg with bench := b } }

/-- The Bench Queue set. -/
def State.setQueue (s : State) (q : List RecIx) : State := { s with hmg := { s.hmg with queue := q } }

/-- A bench position takes a record. -/
def State.seat (s : State) (n : BenchIx) (i : RecIx) : State := s.setBench (s.hmg.bench.set n (some i))

/-- Every bench position that holds a record holds nothing. -/
def State.unseat (s : State) (i : RecIx) : State :=
  s.setBench (s.hmg.bench.map fun v => if v = some i then none else v)

/-- The hold lists KEEPOUT. -/
def Hold.listsKeepout (h : Hold) : Bool := h.reasons.any fun r => decide (r.code = .keepout)

/-- Whether a hold goes ahead of an entry's hold in the Bench Queue (R147): KEEPOUT ahead of none, and, with the same
KEEPOUT standing, ahead of a later hold-raise time; ages are taken modulo 2^32 from the present line time (R173). Step 1
stands before the sentence on equal hold-raise times, which then speaks of entries with KEEPOUT; DEDUCED (log 37). -/
def State.goesAhead (s : State) (mine other : Hold) : Bool :=
  (mine.listsKeepout && !other.listsKeepout)
    || (mine.listsKeepout == other.listsKeepout && decide (s.since other.raiseTime < s.since mine.raiseTime))

/-- A record placed in the Bench Queue ahead of the first entry that it goes ahead of, otherwise at the end. -/
def State.queueInsert (s : State) (i : RecIx) (mine : Hold) : List RecIx → List RecIx
  | [] => [i]
  | j :: js =>
    match s.holdOf j with
    | some other => if s.goesAhead mine other then i :: j :: js else j :: s.queueInsert i mine js
    | none => j :: s.queueInsert i mine js

/-- Entry into the Bench Queue at the decision after MASK or INSPECT (R147): the stage is set, then the record is
placed. -/
def State.enterQueue (s : State) (i : RecIx) (stage : Stage) : State :=
  let s₁ := s.modHold i fun h => { h with stage := stage }
  match s₁.holdOf i with
  | some h => s₁.setQueue (s₁.queueInsert i h (s₁.hmg.queue.filter fun j => decide (j ≠ i)))
  | none => s₁

/-! ## Tag writes (R149) -/

/-- The mark value of a record: its index + 1. -/
def markOf (i : RecIx) : Byte := BitVec.ofNat 8 (i.val + 1)

/-- A mark write asked of the writer of a place; it waits behind the writes asked earlier of that writer. -/
def State.askWrite (s : State) (p : Place) (value : Byte) (why : WriteFor) : State :=
  { s with ltk := { s.ltk with writes := s.ltk.writes ++ [{ place := p, value := value, why := why, attempt := 1 }] } }

/-- A mark write whose result is dropped: the hold mark's, and the rest of a re-entry. -/
def WriteFor.dropped : WriteFor → WriteFor
  | .holdMark i _ => .holdMark i false
  | .reentry i _ => .reentry i none
  | .markClear t => .markClear t
  | .closing i => .closing i

/-- The record that a write is for. -/
def WriteFor.ix : WriteFor → Option RecIx
  | .reentry i _ | .closing i | .holdMark i _ => some i
  | .markClear _ => none

/-- The results of the mark writes in progress for a record that becomes DONE or FREE are dropped (R149, R10, R5). -/
def State.dropMarkWrites (s : State) (i : RecIx) : State :=
  let ws := s.ltk.writes.map fun w => if w.why.ix = some i then { w with why := w.why.dropped } else w
  { s with ltk := { s.ltk with writes := ws } }

end Sys2Proof.Machine
end

