-- ==== Sys2Proof/Machine/Dose.lean ====
section
/-! DEFINITION. Cure dose computation (07): tunnel zones, the rate, the UV and thermal samples of a record, and the cure
checks. -/

namespace Sys2Proof.Machine

/-- A position in lane in the UV zone (R129). -/
def inUvZone (mm : Nat) : Bool := decide (mm < 200)

/-- The thermal zone of a position in lane; the vestibule at 4,800 mm and beyond is Z4 (R129). -/
def thermalZone (mm : Nat) : Option ZoneIx :=
  if mm < 200 then none else if mm < 1350 then some 0 else if mm < 2500 then some 1 else if mm < 3650 then some 2
  else some 3

/-- Rate k of the table; 0 beyond it. -/
def rateAt (rates : List Nat) (k : Nat) : Int := ((rates[k]?).getD 0 : Nat)

/-- The cure rate for a zone temperature (R132), by interpolation truncated toward zero. -/
def cureRate (rates : List Nat) (t : Int) : Nat :=
  if t < 400 then 0
  else if 1900 ≤ t then (rateAt rates 15).toNat
  else
    let k := ((t - 400) / 100).toNat
    let f := (t - 400) % 100
    (rateAt rates k + ((rateAt rates (k + 1) - rateAt rates k) * f).tdiv 100).toNat

/-- The UV sample of a record (R130). -/
def uvDoseStep (irradiance : Nat) (r : CarrierRecord) : CarrierRecord :=
  match r.posInLane with
  | some mm => if inUvZone mm then { r with uvDose := satAdd Config.doseMax r.uvDose irradiance } else r
  | none => r

/-- The thermal sample of a record in a zone (R131, R133 to R135): the flag when the zone is LOST, the dose and the
peak when its temperature is present. -/
def thermalStep (rates : List Nat) (z : ZoneSense) (r : CarrierRecord) : CarrierRecord :=
  let r₁ := if z.cond = .lost then { r with cureUnknown := true } else r
  match z.temp with
  | none => r₁
  | some t =>
    { r₁ with
      thermalDose := satAdd Config.doseMax r.thermalDose (cureRate rates t)
      peak := some (match r.peak with
        | some p => max p t
        | none => t) }

/-- The thermal sample of a record where it stands (R129, R131); nothing in the UV zone. -/
def thermalDoseStep (rates : List Nat) (zones : Vector ZoneSense 4) (r : CarrierRecord) : CarrierRecord :=
  match r.posInLane with
  | some mm =>
    match thermalZone mm with
    | some z => thermalStep rates zones[z] r
    | none => r
  | none => r

/-! ## The cure checks (R136) -/

/-- The peak is present and exceeds the peak maximum. -/
def peakTooHigh (c : CureSpec) (r : CarrierRecord) : Bool :=
  match r.peak with
  | some p => decide ((c.peakMax : Int) < p)
  | none => false

/-- The reasons of the cure checks that fail, in the order of R136. -/
def cureFailures (c : CureSpec) (r : CarrierRecord) : List ReasonCode :=
  (if r.cureUnknown then [.cureUnknown] else [])
    ++ (if r.thermalDose < c.thermalTarget then [.undercureThermal] else [])
    ++ (if r.uvDose < c.uvTarget then [.undercureUv] else [])
    ++ (if c.thermalMax < r.thermalDose then [.overcure] else [])
    ++ (if peakTooHigh c r then [.overtemp] else [])

/-- The cure checks of a record that fail. Without a resident recipe there is nothing to check. -/
def State.failures (s : State) (i : RecIx) : List ReasonCode :=
  match s.recipeOf i, s.rec? i with
  | some p, some r => cureFailures p.cure r
  | _, _ => []

/-- The provisional outcome of a waiting front is GOOD (R123). -/
def State.goodFront (s : State) (i : RecIx) : Bool := (s.holdOf i).isNone && (s.failures i).isEmpty

/-- Reasons raised in order. -/
def State.raiseAll (s : State) (i : RecIx) : List ReasonCode → State
  | [] => s
  | c :: cs => (s.raiseCode i c).raiseAll i cs

end Sys2Proof.Machine
end

