-- ==== Sys2Proof/Machine/Moves.lean ====
section
/-! DEFINITION. Transport moves (R2 to R4), the marks of heads and cells (R61, R91), and the starting of tag reads (R8,
R22). -/

namespace Sys2Proof.Machine

/-- A mark that names a record is made absent. -/
def dropMark (i : RecIx) : Option RunMark → Option RunMark
  | some m => if m.ix = i then none else some m
  | none => none

/-- The result-given mark of a head no longer names a record (R61). -/
def State.dropGiven (s : State) (h : HeadId) (i : RecIx) : State :=
  s.setHead h { s.head h with given := dropMark i (s.head h).given }

/-- The program-run mark of a cell no longer names a record (R91). -/
def State.dropRunMark (s : State) (c : CellId) (i : RecIx) : State :=
  s.setCell c { s.cell c with runMark := dropMark i (s.cell c).runMark }

/-- The marks that name a record are made absent, as it becomes DONE or FREE (R61, R91). -/
def State.dropMarks (s : State) (i : RecIx) : State :=
  (((s.dropGiven .mask i).dropGiven .inspect i).dropRunMark .a i).dropRunMark .b i

/-- The mark of a station as the move that takes a record off it begins (R61, R91). -/
def State.leaveStation (s : State) (src : Place) (i : RecIx) : State :=
  match src with
  | .mask => s.dropGiven .mask i
  | .inspect => s.dropGiven .inspect i
  | .sprayA => s.dropRunMark .a i
  | .sprayB => s.dropRunMark .b i
  | .load | .wetq | .lane1 | .lane2 | .unload | .bench _ | .offline => s

/-- The LOAD entry set. -/
def State.setEntry (s : State) (e : Option LoadEntry) : State := { s with ltk := { s.ltk with loadEntry := e } }

/-- The LOAD entry of a record that leaves LOAD is gone with it (log 9). -/
def State.leaveLoad (s : State) (src : Place) (i : RecIx) : State :=
  match src with
  | .load =>
    match s.ltk.loadEntry with
    | some e => if e.takenBy = some i then s.setEntry none else s
    | none => s
  | .mask | .sprayA | .sprayB | .inspect | .wetq | .lane1 | .lane2 | .unload | .bench _ | .offline => s

/-- A transport move begun (R2): the position becomes IN_TRANSIT and the 20 s move timer starts. The tag check keeps the
result of the last check made, in transit and where no check is made; DESIGN CHOICE (log 44). -/
def State.beginMove (s : State) (i : RecIx) (src dst : Place) : State :=
  let s₁ := s.modRec i fun r => { r with position := .inTransit src dst }
  let s₂ := s₁.setMoves (s₁.ltk.moves ++ [{ ix := i, src := src, dst := dst, drive := .driven (s.timer Config.moveMs) }])
  (s₂.leaveStation src i).leaveLoad src i

/-- The moves of a record taken out of flight: ended, or cancelled by REMOVE (R16). -/
def State.dropMove (s : State) (i : RecIx) : State := s.setMoves (s.ltk.moves.filter fun m => decide (m.ix ≠ i))

/-- Every move in flight halted by STOP (R4). -/
def State.haltMoves (s : State) : State := s.setMoves (s.ltk.moves.map fun m => { m with drive := .halted })

/-- A move driven again, with a fresh timer (R3, R4). -/
def State.redrive (s : State) (m : Move) : Move :=
  match m.drive with
  | .driven _ => m
  | .timedOut | .halted => { m with drive := .driven (s.timer Config.moveMs) }

/-- Every halted or timed-out move driven again (R3 on RUN, R4 on RESUME). -/
def State.redriveMoves (s : State) : State := s.setMoves (s.ltk.moves.map s.redrive)

/-- The drive of a record's move has timed out (R3). -/
def State.timeOutMove (s : State) (i : RecIx) : State :=
  s.setMoves (s.ltk.moves.map fun m => if m.ix = i then { m with drive := .timedOut } else m)

/-- The move timer of a record's driven move. -/
def State.moveTimer (s : State) (i : RecIx) : Option Timer :=
  match s.moveOf i with
  | some m =>
    match m.drive with
    | .driven t => some t
    | .timedOut | .halted => none
  | none => none

/-- The tag reads in progress set. -/
def State.setReads (s : State) (rs : List TagReadJob) : State := { s with ltk := { s.ltk with reads := rs } }

/-- The read in progress at a place ended. -/
def State.dropRead (s : State) (p : Place) : State := s.setReads (s.ltk.reads.filter fun j => decide (j.place ≠ p))

/-- A tag read started at a place with its first attempt. -/
def State.startRead (s : State) (p : Place) (why : ReadFor) : State :=
  let s₁ := s.dropRead p
  s₁.setReads (s₁.ltk.reads ++ [{ place := p, why := why, attempt := 1 }])

/-- The read in progress at a place. -/
def State.readAt (s : State) (p : Place) : Option TagReadJob := s.ltk.reads.find? fun j => decide (j.place = p)

/-- The tag check of a record that has arrived at a station: NONE, and the reader reads the tag (R22). -/
def State.startCheck (s : State) (i : RecIx) (p : Place) : State :=
  (s.modRec i fun r => { r with tagCheck := .none }).startRead p (.check i)

/-- Every station whose record has tag check FAILED checks again (R23). The check stays FAILED until a read passes
(log 10). -/
def State.recheckFailed (s : State) : State :=
  recIxs.foldl (fun t i =>
    match t.live? i with
    | some r =>
      match r.position with
      | .standing p => if r.tagCheck = .failed ∧ p.hasReader then t.startRead p (.check i) else t
      | .inTransit _ _ => t
    | none => t) s

end Sys2Proof.Machine
end

