-- ==== Sys2Proof/Machine/Tunnel.lean ====
section
/-! DEFINITION. The Cure Tunnel Controller's operations (06): the Lane Binding Table, lane states, lamp and shutter, zone
temperatures, and the exit-transfer arbiter. What it does at its events stands in Machine/TunnelEvents.lean. -/

namespace Sys2Proof.Machine

/-! ## Lane states and LANE_STATE (R113) -/

/-- LANE_STATE queued for a lane as it stands. -/
def State.laneReport (s : State) (l : LaneId) (cause : LaneCause) : State :=
  let v := s.lane l
  s.queueReport (.laneState
    { lane := l, state := v.state, cls := v.cls, occupancy := v.order.length, bound := v.bound, cause := cause })

/-- The position in lane of a record, 0 when it has none. -/
def State.mmOf (s : State) (i : RecIx) : Nat :=
  match s.rec? i with
  | some r => r.posInLane.getD 0
  | none => 0

/-- The front carrier of a lane stands at or beyond 4,800 mm. -/
def State.frontAtExit (s : State) (l : LaneId) : Bool :=
  match (s.lane l).order with
  | i :: _ => decide (Config.exitMm ≤ s.mmOf i)
  | [] => false

/-- The lane state that the line mode and the front give (R113). -/
def State.laneStateNow (s : State) (l : LaneId) : LaneState :=
  match s.lmf.mode with
  | .idle | .stop => .stopped
  | .run | .pause => if s.frontAtExit l then .blocked else .running

/-- The speed of a class in mm/min (R113). -/
def classSpeed : Nat → Nat
  | 1 => 100
  | 2 => 150
  | 3 => 200
  | _ => 300

/-- The belt drive command of a lane state and class (R113): the class's speed while RUNNING, the commanded stop in any
other lane state and while the class is NONE. -/
def beltCommand : LaneState → Option Nat → Option Nat
  | .running, some c => some (classSpeed c)
  | .running, none | .stopped, _ | .blocked, _ => none

/-- The belt drive commanded for the lane's state and class (R113). -/
def Lane.driven (v : Lane) : Lane := { v with belt := beltCommand v.state v.cls }

/-- A lane's state re-derived and its belt commanded; LANE_STATE is queued when the state changes. -/
def State.deriveLane (s : State) (l : LaneId) (cause : LaneCause) : State :=
  let st := s.laneStateNow l
  let s₁ := s.setLane l ({ s.lane l with state := st } : Lane).driven
  if (s.lane l).state = st then s₁ else s₁.laneReport l cause

/-- A lane's class set and its belt commanded; LANE_STATE is queued when the class changes. -/
def State.setClass (s : State) (l : LaneId) (c : Option Nat) (cause : LaneCause) : State :=
  let s₁ := s.setLane l ({ s.lane l with cls := c } : Lane).driven
  if (s.lane l).cls = c then s₁ else s₁.laneReport l cause

/-! ## Binding (R107 to R109) -/

/-- The limit of a binding (R107). -/
def State.limit (s : State) : LimitKind → Nat
  | .new => Config.laneMax - s.rsc.live.nearFull
  | .reentry => Config.laneMax

/-- A lane is eligible for a class under a limit (R107). -/
def State.eligible (s : State) (c limit : Nat) (l : LaneId) : Bool :=
  (decide ((s.lane l).cls = some c) || decide ((s.lane l).cls = none)) && decide ((s.lane l).bound < limit)

/-- An eligible lane of class `c`. -/
def State.eligibleSame (s : State) (c limit : Nat) (l : LaneId) : Bool :=
  s.eligible c limit l && decide ((s.lane l).cls = some c)

/-- The choice of R107: the eligible lane of the class with the smaller bound count, LANE1 when equal; otherwise the
eligible lane of class NONE, LANE1 first. -/
def State.chooseLane (s : State) (c limit : Nat) : Option LaneId :=
  if s.eligibleSame c limit .lane1 && s.eligibleSame c limit .lane2 then
    if (s.lane .lane2).bound < (s.lane .lane1).bound then some .lane2 else some .lane1
  else if s.eligibleSame c limit .lane1 then some .lane1
  else if s.eligibleSame c limit .lane2 then some .lane2
  else if s.eligible c limit .lane1 then some .lane1
  else if s.eligible c limit .lane2 then some .lane2
  else none

/-- "The cells" of a route plan (R17). -/
def planCells (p : Recipe) : List RouteEntry :=
  (if p.progA.count = 0 then [] else [.sprayA]) ++ (if p.progB.count = 0 then [] else [.sprayB])

/-- The route plan of a pass with every station (R17). -/
def fullPlan (p : Recipe) : List RouteEntry := .mask :: planCells p ++ [.inspect, .wetq, .lane, .exit]

/-- The route plan of a pass begun by a disposition (R17). -/
def planAfter (p : Recipe) : Disposition → List RouteEntry
  | .remask | .respray | .strip | .useAsIs | .scrap => fullPlan p
  | .wetWipe => [.inspect, .wetq, .lane, .exit]
  | .recure => [.wetq, .lane, .exit]

/-- The waiting binding set. -/
def State.setWaiting (s : State) (w : Option WaitingBinding) : State := { s with ctc := { s.ctc with waiting := w } }

/-- The route plan that a record takes as it becomes ACTIVE: the full plan for a new admission; a re-entry has set its own
(R17, R10). -/
def State.planOnActive (s : State) (w : WaitingBinding) (r : CarrierRecord) : List RouteEntry :=
  match w.kind with
  | .new =>
    match s.recipeOf w.ix with
    | some p => fullPlan p
    | none => r.plan
  | .reentry => r.plan

/-- A record bound to a lane (R107): the bound count and the class, then the record becomes ACTIVE and ADMITTED is
queued (R14, R7). -/
def State.bindTo (s : State) (w : WaitingBinding) (l : LaneId) : State :=
  match s.live? w.ix with
  | none => s
  | some r =>
    let s₁ := s.setLane l { s.lane l with bound := (s.lane l).bound + 1 }
    let s₂ := s₁.setClass l (some w.cls) .bound
    let r' := { r with lane := some l, posInLane := none, status := .active, plan := s.planOnActive w r }
    (s₂.setRec w.ix (some r')).queueReport (.admitted w.ix r.pass)

/-- A binding tried (R107, R108): made when a lane is eligible, otherwise kept as the waiting binding. -/
def State.tryBind (s : State) (w : WaitingBinding) : State :=
  match s.chooseLane w.cls (s.limit w.kind) with
  | some l => (s.setWaiting none).bindTo w l
  | none => s.setWaiting (some w)

/-- A bind request (R107), with the speed class of the record's recipe. -/
def State.requestBinding (s : State) (i : RecIx) (kind : LimitKind) : State :=
  match s.recipeOf i with
  | some p => s.tryBind { ix := i, cls := p.cure.speedClass, kind := kind }
  | none => s

/-- The retry at a fall of a bound count (R108). -/
def State.retryBinding (s : State) : State :=
  match s.ctc.waiting with
  | some w => s.tryBind w
  | none => s

/-- The waiting binding of a record dropped (R108). -/
def State.dropWaiting (s : State) (i : RecIx) : State :=
  match s.ctc.waiting with
  | some w => if w.ix = i then s.setWaiting none else s
  | none => s

/-- A lane without a record: out of the order, out of the arbiter when it was the front, the bound count one less. -/
def Lane.without (v : Lane) (i : RecIx) : Lane :=
  { v with
    order := v.order.filter fun j => decide (j ≠ i)
    arrival := if v.order.head? = some i then none else v.arrival
    bound := v.bound - 1 }

/-- A record unbound from its lane (R109): the counts, the record's lane and position, the class at 0, the lane state, and
the retry of the waiting binding. The LANE_STATE of the class and that of the state are two reports, the class's first,
and both carry the cause of the event; DESIGN CHOICE (log 36). The lane is derived again before the retry, so that its
LANE_STATE shows the bound count before a rebinding; DEDUCED (log 45). -/
def State.unbind (s : State) (i : RecIx) (cause : LaneCause) : State :=
  match s.rec? i with
  | none => s
  | some r =>
    match r.lane with
    | none => s
    | some l =>
      let s₁ := s.setLane l ((s.lane l).without i)
      let s₂ := s₁.modRec i fun r => { r with lane := none, posInLane := none }
      let s₃ := if (s₂.lane l).bound = 0 then s₂.setClass l none cause else s₂
      (s₃.deriveLane l cause).retryBinding

/-! ## Lamp and shutter (R115 to R118) -/

/-- The lamp set. -/
def State.setLamp (s : State) (v : Lamp) : State := { s with ctc := { s.ctc with lamp := v } }

/-- The shutter is commanded open when the lamp is READY or LOW and the line mode is not STOP (R118). -/
def State.evalShutter (s : State) : State :=
  { s with ctc := { s.ctc with
    shutterOpen := (decide (s.ctc.lamp.state = .ready) || decide (s.ctc.lamp.state = .low)) && decide (s.lmf.mode ≠ .stop) } }

/-- A change of lamp state: the count to 0, the shutter re-evaluated, LAMP_STATE queued, and LAMP_LOW raised on an entry
to LOW (R115, R117). -/
def State.lampTo (s : State) (st : LampState) (cause : LampCause) : State :=
  let s₁ := (s.setLamp { s.ctc.lamp with state := st, count := 0 }).evalShutter
  let s₂ := s₁.queueReport (.lampState st cause s.ctc.measured)
  if st = .low then s₂.noteFault .lampLow .ctc {} else s₂

/-- The ballast fault taken (R116): FAULT from every other state, the ballast off, a running warm-up stopped, LAMP_FAULT
raised. -/
def State.takeBallastFault (s : State) : State :=
  if s.ctc.lamp.state = .fault then s
  else
    let s₁ := s.setLamp { s.ctc.lamp with ballastOn := false, warmUp := none }
    (s₁.lampTo .fault .ballastFault).noteFault .lampFault .ctc {}

/-- The lamp enters WARMING: ballast on, the 60 s timer started; a ballast fault input that is active acts at once
(R115, R116). -/
def State.startWarming (s : State) : State :=
  let s₁ := s.setLamp { s.ctc.lamp with ballastOn := true, warmUp := some (s.timer Config.warmUpMs) }
  let s₂ := s₁.lampTo .warming .lampSet
  if s₂.ctc.lamp.ballastFault then s₂.takeBallastFault else s₂

/-- The lamp turned off. -/
def State.lampOff (s : State) : State :=
  (s.setLamp { s.ctc.lamp with ballastOn := false, warmUp := none }).lampTo .off .lampSet

/-- LAMP_SET (R115): `on` for ON. -/
def State.lampSet (s : State) (on : Bool) : State :=
  match s.ctc.lamp.state, on with
  | .off, true => s.startWarming
  | .off, false => s
  | .warming, true => s
  | .warming, false => s.lampOff
  | .ready, true => s
  | .ready, false => s.lampOff
  | .low, true => s
  | .low, false => s.lampOff
  | .fault, true => s.startWarming
  | .fault, false => s.lampOff

/-- The lamp's sample count (R117) after a sample of the measured irradiance. -/
def State.lampSample (s : State) : State :=
  let v := s.ctc.lamp
  let below := decide (s.ctc.measured < s.rsc.live.lampMin)
  let counted := match v.state with
    | .ready => below
    | .low => !below
    | .off | .warming | .fault => false
  match v.state with
  | .ready | .low =>
    if counted then
      if v.count + 1 < 5 then s.setLamp { v with count := v.count + 1 }
      else s.lampTo (if v.state = .ready then .low else .ready) .irradiance
    else s.setLamp { v with count := 0 }
  | .off | .warming | .fault => s

/-! ## The exit (R123, R124) -/

/-- The bench positions in order. -/
def benchIxs : List BenchIx := List.finRange 4

/-- The lowest-numbered bench position that is free (R1). -/
def State.lowestFreeBench (s : State) : Option BenchIx := benchIxs.find? fun n => s.isFree (.bench n)

/-- The lowest-numbered bench position free for the exit: free, and the Bench Queue empty (R123). -/
def State.benchForExit (s : State) : Option BenchIx := if s.hmg.queue.isEmpty then s.lowestFreeBench else none

/-- The target of a waiting front (R123). -/
def State.exitTarget (s : State) (i : RecIx) : Place :=
  if s.goodFront i then .unload
  else
    match s.benchForExit with
    | some n => .bench n
    | none => .unload

/-- The front of a lane that waits in the arbiter, with its exit-arrival time, when its target is available (R124). -/
def State.readyFront (s : State) (l : LaneId) : Option (RecIx × LineTime) :=
  match (s.lane l).order, (s.lane l).arrival with
  | i :: _, some t => if s.isFree (s.exitTarget i) then some (i, t) else none
  | _, _ => none

/-- The arbiter's choice (R124): the resource free, the line mode not STOP, the earlier exit-arrival time, LANE1 when
equal. -/
def State.arbiterChoice (s : State) : Option LaneId :=
  if s.ctc.exitHolder.isSome || decide (s.lmf.mode = .stop) then none
  else
    match s.readyFront .lane1, s.readyFront .lane2 with
    | some (_, t), some (_, u) => if s.since t < s.since u then some .lane2 else some .lane1
    | some _, none => some .lane1
    | none, some _ => some .lane2
    | none, none => none

/-- The exit transfer of a lane's front started (R125). -/
def State.exitStart (s : State) (l : LaneId) : State :=
  match (s.lane l).order, (s.lane l).arrival with
  | i :: rest, some t =>
    let target := s.exitTarget i
    let fails := s.failures i
    -- 1: out of the order, IN_TRANSIT to the target, EXIT out of the plan
    let s₁ := s.setLane l { s.lane l with order := rest, arrival := none }
    let s₂ := { s₁ with ctc := { s₁.ctc with exitHolder := some i } }
    let s₃ := (s₂.beginMove i (lanePlace l) target).modRec i fun r => { r with plan := r.plan.tail }
    -- 2: the reasons, then the stage
    let s₄ := (s₃.raiseAll i fails).modHold i fun h => { h with stage := .exit }
    -- 3, 4: the verdict, the exit time, TUNNEL_EXIT
    let s₅ := s₄.modRec i fun r =>
      { r with cureVerdict := if fails.isEmpty then .cured else .notCured, exitTime := some s.now }
    let s₆ := match s₅.rec? i with
      | some r => s₅.queueReport (.tunnelExit
          { ix := i, pass := r.pass, lane := l, exitTime := s.now, thermalDose := r.thermalDose, uvDose := r.uvDose
            peak := r.peak, cureUnknown := r.cureUnknown, verdict := r.cureVerdict, target := target
            waited := s.since t })
      | none => s₅
    -- 5: the counts, the class, the lane state, the retry
    s₆.unbind i .exitStart
  | _, _ => s

/-- The exit resource freed when a record held it (R126). -/
def State.freeExit (s : State) (i : RecIx) : State :=
  if s.ctc.exitHolder = some i then { s with ctc := { s.ctc with exitHolder := none } } else s

/-! ## Zone temperatures (R120 to R122) -/

/-- A channel's reading with its offset, clamped to -500..3,000 (R120). -/
def channelReading (raw offset : Int) : Int := max (-500) (min 3000 (raw + offset))

/-- The readings of a zone's channels a and b. -/
def State.zoneReadings (s : State) (adc : Vector (Option Int) 8) (z : ZoneIx) : Option Int × Option Int :=
  let a : Fin 8 := ⟨2 * z.val, by omega⟩
  let b : Fin 8 := ⟨2 * z.val + 1, by omega⟩
  (adc[a].map fun v => channelReading v s.rsc.live.tcOffsets[a],
    adc[b].map fun v => channelReading v s.rsc.live.tcOffsets[b])

/-- A zone's condition, temperature and hold start after a thermal sample (R120, R121). -/
def zoneAfter (now : LineTime) (v : ZoneSense) : Option Int × Option Int → ZoneSense
  | (some a, some b) => { cond := .normal, temp := some ((a + b).tdiv 2), holdStart := none }
  | (some a, none) => { cond := .degraded, temp := some a, holdStart := none }
  | (none, some b) => { cond := .degraded, temp := some b, holdStart := none }
  | (none, none) =>
    match v.cond, v.holdStart with
    | .normal, _ | .degraded, _ => { v with cond := .holding, holdStart := some now }
    | .holding, some t => if (now - t).toNat < Config.holdingMs then v else { v with cond := .lost }
    | .holding, none => { v with holdStart := some now }
    | .lost, _ => v

/-- The invalid channel of a zone with one valid channel. -/
def invalidChannel (z : ZoneIx) : Option Int × Option Int → Option (Fin 8)
  | (some _, none) => some ⟨2 * z.val + 1, by omega⟩
  | (none, some _) => some ⟨2 * z.val, by omega⟩
  | (some _, some _) | (none, none) => none

/-- A zone temperature is above 2,300 (R122). -/
def tooHot : Option Int → Bool
  | some t => decide (Config.overtemp < t)
  | none => false

/-- A zone set. -/
def State.setZone (s : State) (z : ZoneIx) (v : ZoneSense) : State :=
  { s with ctc := { s.ctc with zones := s.ctc.zones.set z v } }

/-- The thermal zones in order. -/
def zoneIxs : List ZoneIx := List.finRange 4

/-- The zones for which a fatal condition persists: LOST, or above 2,300 (R121, R122, R167). -/
def State.fatalZones (s : State) : List ZoneIx :=
  zoneIxs.filter fun z => decide (s.ctc.zones[z].cond = .lost) || tooHot s.ctc.zones[z].temp

end Sys2Proof.Machine
end

