-- ==== Sys2Proof/Machine/Inspect.lean ====
section
/-! DEFINITION. The Inspection Engine (03): the walk table, groups and retry groups, verdicts, the end and the abandonment
of a walk, the decisions after MASK and INSPECT (R19, R20), and the meanings of the heads' events. -/

namespace Sys2Proof.Machine

/-! ## Verdicts (R54) -/

/-- The verdict that a reading gives at a point. -/
def readingVerdict (p : Point) (reading : Nat) : PointVerdict :=
  match p.kind with
  | .cap | .tape | .boot | .plug =>
    if reading < p.low then .absent else if p.high < reading then .misplaced else .present
  | .keepout => if p.high < reading then .contaminated else .clean
  | .cover => if reading < p.low then .void else .covered

/-- PRESENT, CLEAN and COVERED pass. -/
def PointVerdict.passes : PointVerdict → Bool
  | .present | .clean | .covered => true
  | .absent | .misplaced | .contaminated | .void | .noResult | .notChecked => false

/-! ## Building a walk (R47, R48) -/

/-- The entries of one list, walk numbers from `first` on. -/
def pointEntries (l : PointList) (first : Nat) (ps : List Point) : List WalkPoint :=
  ps.mapIdx fun n p =>
    { list := l, place := n, point := p, channel := Fin.ofNat 4 (first + n), attempt := 1, state := .waiting
      verdict := none }

/-- The points of an optional section. -/
def sectionPoints : Option PointSection → List Point
  | some v => v.points
  | none => []

/-- The walk points of a head for a recipe, with the mode of the walk (R47). -/
def walkOf (h : HeadId) (p : Recipe) : WalkMode × List WalkPoint :=
  match h with
  | .mask =>
    match p.mask with
    | some v => (v.mode, pointEntries .mask 0 v.points)
    | none => (.full, [])
  | .inspect =>
    let keep := sectionPoints p.keepout
    let points := pointEntries .keepout 0 keep ++ pointEntries .coverage keep.length (p.coverage.getD [])
    match p.keepout with
    | some v => (v.mode, points)
    | none => (.full, points)

/-- The points of the n-th group of R47. -/
def groupPoints (count n : Nat) : List Nat := (List.range count).filter fun k => decide (k / 4 = n)

/-! ## Heads -/

/-- A head changed. -/
def State.modHead (s : State) (h : HeadId) (f : Head → Head) : State := s.setHead h (f (s.head h))

/-- The walk table of a head changed. -/
def Head.modWalk (v : Head) (f : WalkTable → WalkTable) : Head := { v with walk := v.walk.map f }

/-- A walk point changed. -/
def WalkTable.modPoint (w : WalkTable) (k : Nat) (f : WalkPoint → WalkPoint) : WalkTable :=
  { w with points := w.points.modify k f }

/-- Slots, pending triggers and timers emptied and the walk table emptied (R51, R57). -/
def Head.emptied (v : Head) : Head :=
  { v with
    slots := Vector.replicate 4 none, pending := Vector.replicate 4 none, resultTimers := Vector.replicate 4 none
    groupTimer := none, posTimer := none, walk := none }

/-- WALKING or EVALUATING. -/
def HeadState.walks : HeadState → Bool
  | .walking | .evaluating => true
  | .idle | .faulted => false

/-- A walk in progress abandoned (R57). -/
def State.abandonWalk (s : State) (h : HeadId) : State :=
  if (s.head h).state.walks then s.modHead h fun v => { v.emptied with state := .idle } else s

/-- The walk of a record abandoned, at the head that walks it (R57). -/
def State.abandonWalkOf (s : State) (h : HeadId) (i : RecIx) : State :=
  match (s.head h).walk with
  | some w => if w.ix = i then s.abandonWalk h else s
  | none => s

/-- Every walk of a record abandoned, as it becomes DONE or FREE or fails its tag check (R57). -/
def State.dropWalks (s : State) (i : RecIx) : State := (s.abandonWalkOf .mask i).abandonWalkOf .inspect i

/-! ## The decisions after MASK and INSPECT (R19, R20) -/

/-- A diversion: the plan emptied, the record unbound, the record placed in the Bench Queue. -/
def State.divert (s : State) (i : RecIx) (stage : Stage) : State :=
  ((s.modRec i fun r => { r with plan := [] }).unbind i .unbound).enterQueue i stage

/-- The decision after MASK (R19): a record with a hold part is diverted. -/
def State.decideMask (s : State) (i : RecIx) : State :=
  match s.live? i with
  | some r => if r.hold.isSome then s.divert i .mask else s
  | none => s

/-- The decision after INSPECT (R20): a record whose hold lists KEEPOUT is diverted. -/
def State.decideInspect (s : State) (i : RecIx) : State :=
  match s.live? i with
  | some r =>
    match r.hold with
    | some h => if h.listsKeepout then s.divert i .inspect else s
    | none => s
  | none => s

/-! ## The end of a walk (R58 to R60) -/

/-- The verdict list of one list of a walk; a point not judged is NOT_CHECKED (R54). -/
def verdictsOf (l : PointList) (w : WalkTable) : List PointVerdict :=
  (w.points.filter fun e => decide (e.list = l)).map fun e => e.verdict.getD .notChecked

/-- Some verdict of a list of verdicts. -/
def anyVerdict (v : PointVerdict) (vs : List PointVerdict) : Bool := vs.any fun x => decide (x = v)

/-- The mask verdict of a walk (R58 step 1). -/
def maskVerdictOf (vs : List PointVerdict) : MaskVerdict :=
  if vs.all fun v => decide (v = .present) then .ok else .fail

/-- The reasons of a mask walk (R58 step 2). -/
def State.raiseMask (s : State) (i : RecIx) (vs : List PointVerdict) : State :=
  ((s.raiseIf (anyVerdict .absent vs) i .maskAbsent).raiseIf (anyVerdict .misplaced vs) i .maskMisplaced).raiseIf
    (anyVerdict .noResult vs) i .maskNoResult

/-- The reasons of an INSPECT walk (R59 step 1). -/
def State.raiseInspect (s : State) (i : RecIx) (ks cs : List PointVerdict) : State :=
  ((s.raiseIf (anyVerdict .contaminated ks) i .keepout).raiseIf (anyVerdict .void cs) i .void).raiseIf
    (anyVerdict .noResult ks || anyVerdict .noResult cs) i .inspectNoResult

/-- STATION_RESULT of a walk (R60). -/
def State.stationResult (s : State) (h : HeadId) (w : WalkTable) : StationResult :=
  match h with
  | .mask =>
    { station := h, ix := w.ix, pass := w.pass, mode := w.mode, maskVerdict := some (maskVerdictOf (verdictsOf .mask w))
      first := verdictsOf .mask w, second := [], retries := w.retries, spurious := w.spurious
      elapsed := s.since w.started }
  | .inspect =>
    { station := h, ix := w.ix, pass := w.pass, mode := w.mode, maskVerdict := none, first := verdictsOf .keepout w
      second := verdictsOf .coverage w, retries := w.retries, spurious := w.spurious, elapsed := s.since w.started }

/-- The result-given mark set, the walk emptied, the head IDLE (R58 step 6, R59 step 4). -/
def Head.giveResult (v : Head) (i : RecIx) (pass : Nat) : Head :=
  { v.emptied with state := .idle, given := some { ix := i, pass := pass } }

/-- The end of a walk at the mask head (R58). -/
def State.endMask (s : State) (w : WalkTable) : State :=
  let vs := verdictsOf .mask w
  let s₁ := if maskVerdictOf vs = .fail then s.raiseMask w.ix vs else s
  let s₂ := s₁.modLive w.ix fun r => { r with maskPoints := vs, maskVerdict := maskVerdictOf vs }
  let s₃ := (s₂.decideMask w.ix).queueReport (.stationResult (s.stationResult .mask w))
  s₃.modHead .mask fun v => v.giveResult w.ix w.pass

/-- The end of a walk at the fluorescence head (R59). -/
def State.endInspect (s : State) (w : WalkTable) : State :=
  let ks := verdictsOf .keepout w
  let cs := verdictsOf .coverage w
  let s₁ := s.raiseInspect w.ix ks cs
  let s₂ := s₁.modLive w.ix fun r => { r with keepoutPoints := ks, coveragePoints := cs }
  let s₃ := (s₂.queueReport (.stationResult (s.stationResult .inspect w))).decideInspect w.ix
  s₃.modHead .inspect fun v => v.giveResult w.ix w.pass

/-- The end of a walk. -/
def State.endWalk (s : State) (h : HeadId) (w : WalkTable) : State :=
  match h with
  | .mask => s.endMask w
  | .inspect => s.endInspect w

/-! ## Groups (R50, R53, R56) -/

/-- The positioner commanded to the first point still to be triggered, with its 1,000 ms timer; EVALUATING when there is
none (R50). -/
def Head.command (v : Head) (posTimer : Timer) : Head :=
  match v.walk with
  | some w =>
    match w.todo with
    | [] => { v with state := .evaluating, posTimer := none }
    | _ :: _ => { v with state := .walking, posTimer := some posTimer }
  | none => v

/-- A group begun (R50). -/
def State.beginGroup (s : State) (h : HeadId) (g : List Nat) : State :=
  s.modHead h fun v =>
    ({ v with groupTimer := none }.modWalk fun w => { w with group := g, todo := g }).command
      (s.timer Config.positionerMs)

/-- The state of a walk point. -/
def WalkTable.stateOf (w : WalkTable) (k : Nat) : Option PointState := (w.points[k]?).map WalkPoint.state

/-- The points of the current group that are in RETRY. -/
def WalkTable.retryPoints (w : WalkTable) : List Nat := w.group.filter fun k => decide (w.stateOf k = some .retry)

/-- What follows a group that is judged or complete (R53, R56): the retry group, the next group of R47, or the end of the
walk. -/
def State.afterGroup (s : State) (h : HeadId) : State :=
  match (s.head h).walk with
  | none => s
  | some w =>
    if w.retryPoints.isEmpty then
      let g := groupPoints w.points.length w.nextGroup
      if g.isEmpty then s.endWalk h w
      else (s.modHead h fun v => v.modWalk fun w => { w with nextGroup := w.nextGroup + 1 }).beginGroup h g
    else s.beginGroup h w.retryPoints

/-- A point without a result in time (R53, R56): RETRY with PROBE_RETRY below three attempts. The pending trigger is
cleared in a FULL walk and kept in a FIRST_FAIL walk. -/
def State.retryPoint (s : State) (h : HeadId) (ix : RecIx) (k : Nat) : State :=
  (s.modHead h fun v => v.modWalk fun w =>
    { w.modPoint k (fun e => { e with attempt := e.attempt + 1, state := .retry }) with
      retries := satInc 255 w.retries }).noteFault .probeRetry (.ine h) { ix := some ix }

/-- A point judged. -/
def State.judgePoint (s : State) (h : HeadId) (k : Nat) (verdict : PointVerdict) : State :=
  s.modHead h fun v => v.modWalk fun w =>
    w.modPoint k fun e => { e with state := .judged, verdict := some verdict }

/-- A point of a FULL walk's group judged (R53). -/
def State.judgeFull (s : State) (h : HeadId) (ix : RecIx) (k : Nat) (e : WalkPoint) : State :=
  match e.state with
  | .landed =>
    let reading := ((s.head h).slots[e.channel]).getD 0
    (s.judgePoint h k (readingVerdict e.point reading)).modHead h fun v => { v with slots := v.slots.set e.channel none }
  | .triggered =>
    let s₁ := s.modHead h fun v => { v with pending := v.pending.set e.channel none }
    if e.attempt < 3 then s₁.retryPoint h ix k else s₁.judgePoint h k .noResult
  | .waiting | .retry | .judged => s

/-- The points of a FULL walk's group judged in walk order (R53). -/
def State.judgeGroup (s : State) (h : HeadId) (w : WalkTable) : List Nat → State
  | [] => s
  | k :: ks =>
    match w.points[k]? with
    | some e => (s.judgeFull h w.ix k e).judgeGroup h w ks
    | none => s.judgeGroup h w ks

/-- The judgement of a FULL walk's current group (R53). -/
def State.judge (s : State) (h : HeadId) : State :=
  match (s.head h).walk with
  | some w => ((s.judgeGroup h w w.group).modHead h fun v => { v with groupTimer := none }).afterGroup h
  | none => s

/-- A FIRST_FAIL group is complete: nothing left to trigger, every point JUDGED or in RETRY (R56). -/
def WalkTable.complete (w : WalkTable) : Bool :=
  w.todo.isEmpty && w.group.all fun k => decide (w.stateOf k = some .judged) || decide (w.stateOf k = some .retry)

/-- The completion of a FIRST_FAIL group, when the event has made it so (R56). -/
def State.completeGroup (s : State) (h : HeadId) : State :=
  match (s.head h).walk with
  | some w => if w.complete then s.afterGroup h else s
  | none => s

/-- A point judged before its retry is triggered is passed over (R56): a command toward it is superseded. -/
def State.passOver (s : State) (h : HeadId) (k : Nat) : State :=
  match (s.head h).walk with
  | none => s
  | some w =>
    let s₁ := s.modHead h fun v => v.modWalk fun w => { w with todo := w.todo.filter fun j => decide (j ≠ k) }
    if w.todo.head? = some k then s₁.modHead h fun v => v.command (s.timer Config.positionerMs) else s₁

/-- A FIRST_FAIL verdict (R55): a failing one ends the walk, a passing one lets it go on. -/
def State.settlePoint (s : State) (h : HeadId) (k : Nat) (verdict : PointVerdict) : State :=
  let s₁ := s.judgePoint h k verdict
  if verdict.passes then (s₁.passOver h k).completeGroup h
  else
    match (s₁.head h).walk with
    | some w => s₁.endWalk h w
    | none => s₁

/-! ## The heads' events -/

/-- The record that a head can walk (R49), with its recipe. -/
def State.walkReady (s : State) (h : HeadId) : Option (RecIx × CarrierRecord × Recipe) :=
  match s.recordAt (headPlace h) with
  | none => none
  | some i =>
    match s.rec? i, s.recipeOf i with
    | some r, some p =>
      if (s.head h).state = .idle ∧ s.lmf.mode = .run ∧ r.status = .active ∧ r.tagCheck = .passed
        ∧ (s.head h).given ≠ some { ix := i, pass := r.pass }
      then some (i, r, p) else none
    | _, _ => none

/-- WALK_START (R49): the walk table filled and the first group begun; for an empty list the station result at once. -/
def State.startWalk (s : State) (h : HeadId) : State :=
  match s.walkReady h with
  | none => s
  | some (i, r, p) =>
    let (mode, points) := walkOf h p
    let w : WalkTable :=
      { ix := i, pass := r.pass, mode := mode, points := points, group := [], todo := [], nextGroup := 1, retries := 0
        spurious := 0, started := s.now }
    if points.isEmpty then s.endWalk h { w with mode := .full }
    else (s.modHead h fun v => { v with walk := some w }).beginGroup h (groupPoints points.length 0)

/-- A point triggered (R50): its channel's pending trigger, its state and, in FIRST_FAIL, its result timer. -/
def Head.trigger (v : Head) (w : WalkTable) (k : Nat) (rest : List Nat) (e : WalkPoint) (timer : Timer) : Head :=
  { v with
    posTimer := none
    pending := v.pending.set e.channel (some k)
    resultTimers := if w.mode = .firstFail then v.resultTimers.set e.channel (some timer) else v.resultTimers
    groupTimer := if w.mode = .full ∧ rest = [] then some timer else v.groupTimer
    walk := some { w.modPoint k (fun e => { e with state := .triggered }) with todo := rest } }

/-- POSITIONER_ARRIVAL (R50): the arrival that answers the command in force. -/
def State.positionerArrival (s : State) (h : HeadId) (answers : Bool) : State :=
  match (s.head h).walk, (s.head h).posTimer with
  | some w, some _ =>
    match answers, w.todo with
    | true, k :: rest =>
      match w.points[k]? with
      | some e =>
        s.modHead h fun v => (v.trigger w k rest e (s.timer Config.resultMs)).command (s.timer Config.positionerMs)
      | none => s
    | _, _ => s
  | _, _ => s

/-- INSPECT_POSITION_TIMEOUT (R51): the positioner timer expires. -/
def State.positionTimeout (s : State) (h : HeadId) : State :=
  match (s.head h).walk, (s.head h).posTimer with
  | some w, some t =>
    ((s.expire t).modHead h fun v => { v.emptied with state := .faulted }).noteFault .inspectPositionTimeout (.ine h)
      { ix := some w.ix }
  | _, _ => s

/-- A discarded result of a FULL walk raises SPURIOUS_RESULT (R52). -/
def State.spurious (s : State) (h : HeadId) (ix : RecIx) : State :=
  (s.modHead h fun v => v.modWalk fun w => { w with spurious := satInc 255 w.spurious }).noteFault .spuriousResult (.ine h)
    { ix := some ix }

/-- Every point of the current group is LANDED (R53). -/
def WalkTable.allLanded (w : WalkTable) : Bool := w.group.all fun k => decide (w.stateOf k = some .landed)

/-- The group judged when the head evaluates and every point has landed (R53). -/
def State.judgeIfLanded (s : State) (h : HeadId) : State :=
  match (s.head h).walk with
  | some w => if (s.head h).state = .evaluating ∧ w.allLanded then s.judge h else s
  | none => s

/-- A result in a FULL walk (R52). -/
def State.resultFull (s : State) (h : HeadId) (ix : RecIx) (c : Fin 4) (reading : Nat) : State :=
  match (s.head h).pending[c], (s.head h).slots[c] with
  | some k, none =>
    (s.modHead h fun v =>
      { v with slots := v.slots.set c (some reading), pending := v.pending.set c none }.modWalk fun w =>
        w.modPoint k fun e => { e with state := .landed }).judgeIfLanded h
  | _, _ => s.spurious h ix

/-- A result in a FIRST_FAIL walk (R55). -/
def State.resultFirstFail (s : State) (h : HeadId) (w : WalkTable) (c : Fin 4) (reading : Nat) : State :=
  match (s.head h).pending[c] with
  | none => s
  | some k =>
    match w.points[k]? with
    | none => s
    | some e =>
      (s.modHead h fun v =>
        { v with pending := v.pending.set c none, resultTimers := v.resultTimers.set c none }).settlePoint h k
        (readingVerdict e.point reading)

/-- CHANNEL_RESULT (R52, R55, R57). -/
def State.channelResult (s : State) (h : HeadId) (c : Fin 4) (reading : BitVec 10) : State :=
  match (s.head h).walk with
  | none => s
  | some w =>
    match w.mode with
    | .full => s.resultFull h w.ix c reading.toNat
    | .firstFail => s.resultFirstFail h w c reading.toNat

/-- GROUP_WAIT_EXPIRY (R53). -/
def State.groupWaitExpiry (s : State) (h : HeadId) : State :=
  match (s.head h).groupTimer with
  | some t => (s.expire t).judge h
  | none => s

/-- A result timer's expiry for a point (R56). -/
def State.resultLate (s : State) (h : HeadId) (ix : RecIx) (k : Nat) (e : WalkPoint) : State :=
  if e.attempt < 3 then (s.retryPoint h ix k).completeGroup h else s.settlePoint h k .noResult

/-- RESULT_TIMER_EXPIRY (R56). -/
def State.resultTimerExpiry (s : State) (h : HeadId) (c : Fin 4) : State :=
  match (s.head h).walk, (s.head h).resultTimers[c], (s.head h).pending[c] with
  | some w, some t, some k =>
    match w.points[k]? with
    | some e =>
      ((s.expire t).modHead h fun v => { v with resultTimers := v.resultTimers.set c none }).resultLate h w.ix k e
    | none => s
  | _, _, _ => s

/-- HEAD_CLEAR at a head (R64): FAULTED goes to IDLE, a walk is abandoned. -/
def State.clearHead (s : State) (h : HeadId) : State :=
  match (s.head h).state with
  | .faulted => s.modHead h fun v => { v with state := .idle }
  | .walking | .evaluating => s.abandonWalk h
  | .idle => s

end Sys2Proof.Machine
end

