-- ==== Sys2Proof/Machine/Film.lean ====
section
/-! DEFINITION. Film build computation (05): the stages of a segment's deposit and the evaluation of the board zones. -/

namespace Sys2Proof.Machine

/-! ## Per-segment stages (R93 to R96) -/

/-- The motion time before its minimum: (L x 100) div v. -/
def rawMotionTime (seg : Segment) : Nat := seg.len * 100 / seg.speed

/-- The motion time T, at least 2 ms (R93). -/
def motionTime (seg : Segment) : Nat := if rawMotionTime seg < 2 then 2 else rawMotionTime seg

/-- The lead used: 0 when the minimum of R93 applied. -/
def usedLead (seg : Segment) : Nat := if rawMotionTime seg < 2 then 0 else seg.lead

/-- The trail used: 0 when the minimum of R93 applied, otherwise at most T - 1 (R94). -/
def usedTrail (seg : Segment) : Nat :=
  if rawMotionTime seg < 2 then 0
  else if motionTime seg ≤ seg.trail then motionTime seg - 1 else seg.trail

/-- The derated flow F1 (R95). -/
def deratedFlow (m : Material) (seg : Segment) : Nat := if m.zLow ≤ seg.z then seg.flow else seg.flow * m.derate / 100

/-- The effective flow: F1 clamped to Fmax (R95). -/
def effectiveFlow (m : Material) (fmax : Nat) (seg : Segment) : Nat := min (deratedFlow m seg) fmax

/-- The flow clamp applied (R95). -/
def flowClamped (m : Material) (fmax : Nat) (seg : Segment) : Bool := decide (fmax < deratedFlow m seg)

/-- The staged deposit over a time: wet volume, dry volume, deposited volume, each truncated (R96). -/
def depositOver (m : Material) (feff ms : Nat) : Nat := feff * ms * m.solids / 1000 * m.efficiency / 100

/-- The valve maximum flow of a cell (R92). -/
def State.fmax (s : State) : CellId → Nat
  | .a => s.rsc.live.fmaxA
  | .b => s.rsc.live.fmaxB

/-- The end of a segment (R67); `none` when the direction is none of the four or the end lies below 0. -/
def segmentEnd (seg : Segment) : Option GantryPos :=
  match seg.dir with
  | some .plusX => some ⟨seg.x + seg.len, seg.y, seg.z⟩
  | some .minusX => if seg.len ≤ seg.x then some ⟨seg.x - seg.len, seg.y, seg.z⟩ else none
  | some .plusY => some ⟨seg.x, seg.y + seg.len, seg.z⟩
  | some .minusY => if seg.len ≤ seg.y then some ⟨seg.x, seg.y - seg.len, seg.z⟩ else none
  | none => none

/-- A position within the gantry travel (R67). -/
def inTravel (x y : Nat) : Bool := x ≤ 6000 && y ≤ 5000

/-- The segment check (R68): `none` for SEGMENT_BAD, otherwise the kind and the end of the segment. -/
def checkSegment (zones : Nat) (seg : Segment) : Option (SegKind × GantryPos) :=
  match seg.kind, segmentEnd seg with
  | some k, some e =>
    if 1 ≤ seg.len && seg.len ≤ 6000 && 5 ≤ seg.speed && seg.speed ≤ 400 && seg.flow ≤ 2000 && 30 ≤ seg.z
      && seg.z ≤ 300 && seg.lead ≤ 25 && seg.trail ≤ 25 && decide (seg.zone < zones) && inTravel seg.x seg.y
      && inTravel e.x e.y
    then some (k, e) else none
  | _, _ => none

/-- The values formed for a segment when it comes to execution (R92). A MOVE segment has Feff 0 and deposit 0. -/
def formValues (m : Material) (fmax : Nat) (k : SegKind) (finish : GantryPos) (seg : Segment) : Executing :=
  let feff := match k with
    | .move => 0
    | .spray => effectiveFlow m fmax seg
  { seg := seg, finish := finish, phase := .seek, time := motionTime seg, lead := usedLead seg, trail := usedTrail seg
    feff := feff, deposit := depositOver m feff (motionTime seg) }

/-! ## Accumulation (R97, R99) -/

/-- A zone of the zone list changed. -/
def modZone (z : Nat) (f : ZoneEntry → ZoneEntry) (r : CarrierRecord) : CarrierRecord :=
  { r with zones := r.zones.modify z f }

/-- A contribution added to a zone's accumulator; dropped for a DONE or FREE record (R97). -/
def State.addDeposit (s : State) (i : RecIx) (z d : Nat) : State :=
  s.modLive i (modZone z fun e => { e with acc := satAdd Config.accumulatorMax e.acc d })

/-- A zone's abandoned flag set; dropped for a DONE or FREE record (R99). -/
def State.flagZone (s : State) (i : RecIx) (z : Nat) : State := s.modLive i (modZone z fun e => { e with abandoned := true })

/-! ## Zone evaluation (R100 to R103) -/

/-- The thickness of a zone, in 0.1 um (R101). -/
def thicknessOf (acc area : Nat) : Nat := min (acc * 10 / area) 65535

/-- The verdict of a zone (R102). -/
def zoneVerdict (abandoned : Bool) (thickness : Nat) (z : ZoneSpec) : ZoneVerdict :=
  if abandoned then .unknown else if thickness < z.low then .low else if z.high < thickness then .high else .ok

/-- One zone evaluated. -/
def evalZone (e : ZoneEntry) (z : ZoneSpec) : ZoneEntry :=
  let t := thicknessOf e.acc z.area
  { e with thickness := t, verdict := zoneVerdict e.abandoned t z }

/-- The zones of a record evaluated in order. -/
def evalZones (zones : List ZoneEntry) (specs : List ZoneSpec) : List ZoneEntry := List.zipWith evalZone zones specs

/-- Some zone of a record has a verdict. -/
def CarrierRecord.anyZone (r : CarrierRecord) (v : ZoneVerdict) : Bool := r.zones.any fun e => decide (e.verdict = v)

/-- The film reasons, each at most once (R103). -/
def State.raiseFilm (s : State) (i : RecIx) : State :=
  match s.live? i with
  | none => s
  | some r =>
    ((s.raiseIf (r.anyZone .unknown) i .filmUnknown).raiseIf (r.anyZone .low) i .filmLow).raiseIf (r.anyZone .high) i
      .filmHigh

/-- The film evaluation of a record (R100): thickness and verdict of every zone, then the reasons. -/
def State.evaluateFilm (s : State) (i : RecIx) : State :=
  match s.recipeOf i with
  | none => s
  | some p => (s.modLive i fun r => { r with zones := evalZones r.zones p.zones }).raiseFilm i

end Sys2Proof.Machine
end

