-- ==== Sys2Proof/Machine/Spray.lean ====
section
/-! DEFINITION. The Spray Cell Controllers (04): segments, runs, starving, the abandonment and the end of a program, the
reactions to STOP, the emergency stop and a removed or lost carrier, and the meanings of the cells' events. -/

namespace Sys2Proof.Machine

/-! ## Changes of a cell -/

/-- A cell changed. -/
def State.modCell (s : State) (c : CellId) (f : SprayCell → SprayCell) : State := s.setCell c (f (s.cell c))

/-- PRIMING, RUNNING and STARVED: a program is in progress (R83). -/
def CellState.working : CellState → Bool
  | .priming | .running | .starved => true
  | .unhomed | .homing | .ready | .faulted => false

/-- CELL_STATE is queued for a change, but not for one among PRIMING, RUNNING and STARVED (R86). -/
def CellState.reported (old new : CellState) : Bool := decide (old ≠ new) && !(old.working && new.working)

/-- A cell goes to a state; CELL_STATE with its cause and the record of the program concerned (R86). -/
def State.cellTo (s : State) (c : CellId) (st : CellState) (cause : CellCause) (i : Option RecIx) : State :=
  let old := (s.cell c).state
  let s₁ := s.modCell c fun v => { v with state := st }
  if old.reported st then s₁.queueReport (.cellState c st cause i) else s₁

/-- The gantry moves: it seeks its home sensor, a segment's start, or strokes (R71, R76, R77). -/
def SprayCell.gantryMoving (v : SprayCell) : Bool :=
  decide (v.state = .homing) ||
    match v.executing with
    | some e => decide (e.phase = .seek) || decide (e.phase = .motion)
    | none => false

/-- The valve commanded shut and a moving gantry halted; its position is unknown until the drive's halt report (R79). -/
def SprayCell.shutAndHalt (v : SprayCell) : SprayCell :=
  if v.gantryMoving then { v with valveOpen := false, gantry := none, haltDue := true } else { v with valveOpen := false }

/-- The valve commanded shut and the gantry halted, whether it moves or stands, on the entry to FAULTED (R83, R79). -/
def SprayCell.faultHalt (v : SprayCell) : SprayCell := { v with valveOpen := false, gantry := none, haltDue := true }

/-- The halt that goes with a cell's next state: on the entry to FAULTED the gantry is halted in any case (R83), otherwise
a moving one is (R84 step 1). -/
def SprayCell.haltFor (v : SprayCell) (next : CellState) : SprayCell :=
  if next = .faulted then v.faultHalt else v.shutAndHalt

/-- Every timer of a cell stopped. -/
def SprayCell.stopTimers (v : SprayCell) : SprayCell :=
  { v with homeTimer := none, gantryTimer := none, leadTimer := none, valveTimer := none, starveTimer := none }

/-! ## Programs -/

/-- The program of a recipe that a cell executes (04, opening). -/
def progOf (c : CellId) (p : Recipe) : ProgramSpec :=
  match c with
  | .a => p.progA
  | .b => p.progB

/-- The zone count of a record's recipe. -/
def State.zoneCount (s : State) (i : RecIx) : Nat :=
  match s.recipeOf i with
  | some p => p.zones.length
  | none => 0

/-- A route entry is a spray cell. -/
def RouteEntry.isCell : RouteEntry → Bool
  | .sprayA | .sprayB => true
  | .mask | .inspect | .wetq | .lane | .exit => false

/-- A record whose spraying of the pass ends here: it is live and its plan holds no further spray cell (R84, R85). For a
record that has become DONE or FREE no film is told as evaluated; DESIGN CHOICE (log 35). -/
def State.lastProgram (s : State) (i : RecIx) : Bool :=
  match s.live? i with
  | some r => !(r.plan.any RouteEntry.isCell)
  | none => false

/-- The buffered segments from the execution pointer on, in the order of their slots. -/
def SprayCell.buffered (v : SprayCell) : List (Option Segment) :=
  [v.buffer[v.exec], v.buffer[v.exec + 1], v.buffer[v.exec + 2], v.buffer[v.exec + 3]].map
    (Option.map fun f => decodeSegment f.bits)

/-- The zone of the first SPRAY segment ahead of the next run-start; a zone not below the zone count gives none (R69). -/
def scanZone (zones : Nat) : List (Option Segment) → Option Nat
  | [] => none
  | none :: _ => none
  | some g :: gs =>
    if g.runStart then none
    else if g.kind = some .spray then (if g.zone < zones then some g.zone else none)
    else scanZone zones gs

/-- The segment at the execution pointer belongs to the current run, whatever its own run-start flag (R69). -/
def dropFirstRunStart : List (Option Segment) → List (Option Segment)
  | some g :: gs => some { g with runStart := false } :: gs
  | gs => gs

/-- The zone fixed for a run that must be abandoned (R69). -/
def SprayCell.abandonedZone (v : SprayCell) (zones : Nat) : Option Nat :=
  v.runZone.or (scanZone zones (dropFirstRunStart v.buffered))

/-- The abandoned flag of a zone set, when there is one. -/
def State.flagZone? (s : State) (i : RecIx) : Option Nat → State
  | some z => s.flagZone i z
  | none => s

/-- The program counters saturate at 65,535 (R66). -/
def bump16 (n : Nat) : Nat := satInc 65535 n

/-- The current run abandoned (R81, R84 step 3): its zone fixed and flagged, with the offending zone of RUN_ZONE, the
counter, and FILM_UNKNOWN unless the carrier was removed. -/
def State.abandonRun (s : State) (c : CellId) (i : RecIx) (offending : Option Nat) (raise : Bool) : State :=
  let z := (s.cell c).abandonedZone (s.zoneCount i)
  let s₁ := s.modCell c fun v =>
    { v with runZone := z, counts := { v.counts with abandoned := bump16 v.counts.abandoned } }
  ((s₁.flagZone? i z).flagZone? i offending).raiseIf raise i .filmUnknown

/-- The elapsed motion time of a segment cut off in MOTION, at most T (R98). -/
def State.elapsedMotion (s : State) (v : SprayCell) (e : Executing) : Nat :=
  match v.gantryTimer with
  | some t => min (s.since t.since) e.time
  | none => e.time

/-- The partial deposit of a segment cut off in MOTION (R84 step 2, R98). -/
def State.cutOff (s : State) (c : CellId) (i : RecIx) : State :=
  match (s.cell c).executing, s.recipeOf i with
  | some e, some p =>
    if e.phase = .motion ∧ e.seg.kind = some .spray ∧ 0 < e.feff then
      s.addDeposit i e.seg.zone (depositOver p.material e.feff (s.elapsedMotion (s.cell c) e))
    else s
  | _, _ => s

/-- A waiting fetch withdrawn; a granted one goes on and will be discarded (R74). -/
def Fetch.withdrawn : Fetch → Fetch
  | .none | .waiting => .none
  | .inProgress | .stale => .stale

/-- The buffer emptied and the waiting fetch withdrawn (R84 step 4). -/
def SprayCell.emptied (v : SprayCell) : SprayCell :=
  { v with buffer := Vector.replicate 4 none, executing := none, fetch := v.fetch.withdrawn }

/-- The program-run mark of a cell set to a record and its pass; absent for a record that has become DONE or FREE (R91). -/
def State.markRun (s : State) (c : CellId) (i : RecIx) (pass : Nat) : State :=
  s.modCell c fun v => { v with runMark := if (s.live? i).isSome then some { ix := i, pass := pass } else none }

/-- The end of a program that both an end and an abandonment come to (R84 steps 5 to 8, R85): the mark, the film
evaluation, SPRAY_DONE, the program cleared and the cell's next state. -/
def State.finishProgram (s : State) (c : CellId) (p : Program) (outcome : ProgramOutcome)
    (fault : Option (FaultCode × Nat)) (next : CellState) (cause : CellCause) : State :=
  let s₁ := s.markRun c p.ix p.pass
  let last := s₁.lastProgram p.ix
  let s₂ := if last then (s₁.modLive p.ix fun r => { r with sprayEnd := some s.now }).evaluateFilm p.ix else s₁
  let s₃ := s₂.queueReport (.sprayDone
    { cell := c, ix := p.ix, pass := p.pass, outcome := outcome, fault := fault, counts := (s₂.cell c).counts
      evaluated := last, sprayEnd := if last then some s.now else none })
  let s₄ := s₃.modCell c fun v => { v.stopTimers with program := none, runZone := none, skip := false }
  s₄.cellTo c next cause (some p.ix)

/-- A program abandoned (R84). -/
def State.abandonProgram (s : State) (c : CellId) (p : Program) (outcome : ProgramOutcome)
    (fault : Option (FaultCode × Nat)) (offending : Option Nat) (next : CellState) (cause : CellCause) : State :=
  let s₁ := s.cutOff c p.ix
  let s₂ := s₁.modCell c fun v => v.haltFor next
  let s₃ := s₂.abandonRun c p.ix offending (decide (outcome ≠ .removed))
  (s₃.modCell c SprayCell.emptied).finishProgram c p outcome fault next cause

/-- A program abandoned by a fault of its cell, which goes to FAULTED (R83). The fault has been raised. -/
def State.faultProgram (s : State) (c : CellId) (p : Program) (code : FaultCode) (segment : Nat)
    (offending : Option Nat) : State :=
  s.abandonProgram c p .faulted (some (code, segment)) offending .faulted (.fault code)

/-- A fault of a segment raised (SEGMENT_BAD, RUN_ZONE, GANTRY_TIMEOUT) and the program abandoned (R68, R76, R77, R82). -/
def State.segmentFault (s : State) (c : CellId) (p : Program) (code : FaultCode) (segment : Nat)
    (offending : Option Nat) : State :=
  (s.noteFault code (.scc c) { ix := some p.ix, segment := some segment }).faultProgram c p code segment offending

/-- A program that ends (R85). -/
def State.endProgram (s : State) (c : CellId) (p : Program) : State :=
  (s.modCell c SprayCell.emptied).finishProgram c p .completed none .ready .programEnd

/-! ## Executing a segment (R75 to R80) -/

/-- MOTION begins (R77): the gantry timer at T + 2,000 ms and, for an open valve, the valve-close timer at T - trail. -/
def State.beginMotion (s : State) (c : CellId) (e : Executing) : State :=
  s.modCell c fun v =>
    { v with
      executing := some { e with phase := .motion }
      gantryTimer := some (s.timer (e.time + Config.gantryMs))
      valveTimer := if v.valveOpen then some (s.timer (e.time - e.trail)) else none }

/-- The stroke begun after the seek, if any (R77): LEAD for a spraying segment with a lead, otherwise MOTION. -/
def State.beginStroke (s : State) (c : CellId) (e : Executing) : State :=
  if e.feff = 0 then s.beginMotion c e
  else
    let s₁ := s.modCell c fun v => { v with valveOpen := true }
    if e.lead = 0 then s₁.beginMotion c e
    else s₁.modCell c fun v =>
      { v with executing := some { e with phase := .lead }, leadTimer := some (s.timer e.lead) }

/-- SEEK when the start or the height differs from the gantry position or that is unknown, otherwise the stroke (R75). -/
def State.beginSegment (s : State) (c : CellId) (e : Executing) : State :=
  if (s.cell c).gantry = some ⟨e.seg.x, e.seg.y, e.seg.z⟩ then s.beginStroke c e
  else s.modCell c fun v =>
    { v with executing := some { e with phase := .seek }, gantryTimer := some (s.timer Config.gantryMs) }

/-- A segment that has passed both checks comes to execution (R75, R92): flow clamp, run zone, then SEEK or stroke. -/
def State.formSegment (s : State) (c : CellId) (p : Program) (m : Material) (k : SegKind) (finish : GantryPos)
    (g : Segment) : State :=
  let clamped := decide (k = .spray) && flowClamped m (s.fmax c) g
  let s₁ := if clamped then s.modLive p.ix fun r => { r with flowClamps := bump16 r.flowClamps } else s
  let s₂ := s₁.modCell c fun v => { v with runZone := if k = .spray then v.runZone.or (some g.zone) else v.runZone }
  s₂.beginSegment c (formValues m (s.fmax c) k finish g)

/-- The zone of a SPRAY segment differs from the fixed zone of its run (R82). -/
def offRun (runZone : Option Nat) (k : SegKind) (zone : Nat) : Bool :=
  match runZone, k with
  | some z, .spray => decide (z ≠ zone)
  | some _, .move => false
  | none, _ => false

/-- A segment checked and brought to execution (R75): SEGMENT_BAD (R68), RUN_ZONE (R82), or its values formed. -/
def State.executeSegment (s : State) (c : CellId) (p : Program) (index : Nat) (g : Segment) : State :=
  match checkSegment (s.zoneCount p.ix) g, s.recipeOf p.ix with
  | some (k, finish), some rc =>
    if offRun (s.cell c).runZone k g.zone then s.segmentFault c p .runZone index (some g.zone)
    else s.formSegment c p rc.material k finish g
  | _, _ => s.segmentFault c p .segmentBad index none

/-- The slot at the execution pointer freed: the pointer and the next segment index advance (R77, R81). -/
def SprayCell.freeSlot (v : SprayCell) : SprayCell :=
  { v with
    buffer := v.buffer.set v.exec none
    exec := v.exec + 1
    program := v.program.map fun p => { p with next := p.next + 1 }
    executing := none }

/-- A new run begins: its zone absent, the skip flag clear (R69). -/
def SprayCell.newRun (v : SprayCell) : SprayCell := { v with runZone := none, skip := false }

/-- A segment discarded in a skip (R81): a SPRAY segment may fix the abandoned run's zone. -/
def State.discardSegment (s : State) (c : CellId) (i : RecIx) (g : Segment) : State :=
  let z := if (s.cell c).runZone = none ∧ g.kind = some .spray ∧ g.zone < s.zoneCount i then some g.zone else none
  let s₁ := s.modCell c fun v =>
    { v.freeSlot with
      runZone := v.runZone.or z, counts := { v.counts with discarded := bump16 v.counts.discarded } }
  s₁.flagZone? i z

/-- The starve of a cell (R80). -/
def State.starve (s : State) (c : CellId) (i : RecIx) : State :=
  let s₁ := s.modLive i fun r => { r with starves := satInc 255 r.starves }
  (s₁.modCell c fun v =>
    { v with starveTimer := some (s.timer Config.starveMs)
             counts := { v.counts with starves := bump16 v.counts.starves } }).cellTo c .starved .programStart (some i)

/-- What a RUNNING cell does when a segment's execution ends, when it leaves PRIMING, or when an awaited segment lands
(R75, R80, R81, R85); `fuel` bounds the segments that a skip discards, at most the four of the buffer. -/
def State.bringNext (s : State) (c : CellId) : Nat → State
  | 0 => s
  | fuel + 1 =>
    match (s.cell c).program with
    | none => s
    | some p =>
      match (s.cell c).buffer[(s.cell c).exec] with
      | none => if p.count ≤ p.next then s.endProgram c p else if (s.cell c).skip then s else s.starve c p.ix
      | some f =>
        let g := decodeSegment f.bits
        let s₁ := if g.runStart ∧ f.index ≠ 0 then s.modCell c SprayCell.newRun else s
        if (s₁.cell c).skip then (s₁.discardSegment c p.ix g).bringNext c fuel else s₁.executeSegment c p f.index g

/-- The next segment of a cell brought to execution. -/
def State.nextSegment (s : State) (c : CellId) : State := s.bringNext c 6

/-! ## Starting a program and its fetches (R72 to R74) -/

/-- The program-run mark of a cell names a record in a pass. -/
def SprayCell.marked (v : SprayCell) (i : RecIx) (pass : Nat) : Bool := decide (v.runMark = some { ix := i, pass := pass })

/-- The record whose program can start at a cell (R72), with its recipe. -/
def State.programReady (s : State) (c : CellId) : Option (RecIx × CarrierRecord × Recipe) :=
  match s.recordAt (cellPlace c) with
  | none => none
  | some i =>
    match s.rec? i, s.recipeOf i with
    | some r, some p =>
      if (s.cell c).state = .ready ∧ s.lmf.mode = .run ∧ r.status = .active ∧ r.tagCheck = .passed
        ∧ ¬ (s.cell c).marked i r.pass
      then some (i, r, p) else none
    | _, _ => none

/-- A cell with a program started (R72). -/
def SprayCell.started (v : SprayCell) (i : RecIx) (pass : Nat) (p : ProgramSpec) : SprayCell :=
  { v with
    buffer := Vector.replicate 4 none, fill := 0, exec := 0, fetchIndex := 0
    program := some { ix := i, pass := pass, offset := p.offset, count := p.count, next := 0 }
    runZone := none, skip := false, executing := none, counts := ProgramCounts.zero }

/-- PROGRAM_START (R72); nothing while a condition does not hold. -/
def State.startProgram (s : State) (c : CellId) : State :=
  match s.programReady c with
  | some (i, r, p) => (s.modCell c fun v => v.started i r.pass (progOf c p)).cellTo c .priming .programStart (some i)
  | none => s

/-- The fetcher of a cell asks the arbiter (R73). -/
def SprayCell.asks (v : SprayCell) : Bool :=
  match v.program with
  | some p => v.state.working && (v.buffer[v.fill]).isNone && decide (v.fetchIndex < p.count) && decide (v.fetch = .none)
  | none => false

/-- The fetch flag set when the fetcher asks. -/
def State.askFetch (s : State) (c : CellId) : State :=
  if (s.cell c).asks then s.modCell c fun v => { v with fetch := .waiting } else s

/-- A segment placed in the slot at the fill pointer (R74). -/
def SprayCell.landed (v : SprayCell) (bits : BitVec 96) : SprayCell :=
  { v with
    buffer := v.buffer.set v.fill (some { index := v.fetchIndex, bits := bits })
    fill := v.fill + 1, fetchIndex := v.fetchIndex + 1, fetch := .none }

/-- The buffer is full, or every segment of the program has landed (R73). -/
def SprayCell.primed (v : SprayCell) : Bool :=
  v.buffer.all Option.isSome ||
    match v.program with
    | some p => decide (p.count ≤ v.fetchIndex)
    | none => false

/-- What a landed fetch sets going (R73, R80, R81): PRIMING ends, a starve ends, an awaited segment is taken. -/
def State.afterLanding (s : State) (c : CellId) : State :=
  match (s.cell c).state, (s.cell c).program with
  | .priming, some p => if (s.cell c).primed then (s.cellTo c .running .programStart (some p.ix)).nextSegment c else s
  | .starved, some p =>
    if ((s.cell c).buffer[(s.cell c).exec]).isSome then
      (((s.modCell c fun v => { v with starveTimer := none }).noteFault .starveRecovered (.scc c) { ix := some p.ix }).cellTo
        c .running .programStart (some p.ix)).nextSegment c
    else s
  | .running, some _ => if (s.cell c).executing.isNone then s.nextSegment c else s
  | _, _ => s

/-- A fetch whose access completes (R74); one made for a program that has ended is discarded. -/
def State.landFetch (s : State) (c : CellId) (bytes : List Byte) : State :=
  match (s.cell c).fetch with
  | .inProgress => (s.modCell c fun v => v.landed (segmentBits bytes)).afterLanding c
  | .stale | .waiting | .none => s.modCell c fun v => { v with fetch := .none }

/-- A fetch whose access ends with an access error (R74, R83). The RSC has raised STORE_FAULT. -/
def State.failFetch (s : State) (c : CellId) : State :=
  let s₁ := s.modCell c fun v => { v with fetch := .none }
  match (s.cell c).fetch, (s.cell c).program with
  | .inProgress, some p => s₁.faultProgram c p .storeFault (s.cell c).fetchIndex none
  | _, _ => s₁

/-! ## Reactions (R89 to R91) -/

/-- A cell's reaction to the line mode's becoming STOP other than by the emergency stop (R89). -/
def State.cellStop (s : State) (c : CellId) : State :=
  match (s.cell c).program with
  | some p => s.abandonProgram c p .stopped none none .ready .stop
  | none =>
    match (s.cell c).state with
    | .homing => (s.modCell c fun v => v.shutAndHalt.stopTimers).cellTo c .unhomed .stop none
    | .unhomed | .ready | .priming | .running | .starved | .faulted => s

/-- The gantry position unknown, no halt report awaited, the valve shut and every timer stopped (R88, R90). -/
def SprayCell.lostHoming (v : SprayCell) : SprayCell :=
  { v.stopTimers with gantry := none, haltDue := false, valveOpen := false }

/-- A cell's reaction to the emergency stop (R90). -/
def State.cellEmergency (s : State) (c : CellId) : State :=
  match (s.cell c).program with
  | some p => (s.abandonProgram c p .stopped none none .unhomed .emergencyStop).modCell c SprayCell.lostHoming
  | none => (s.modCell c SprayCell.lostHoming).cellTo c .unhomed .emergencyStop none

/-- The program of a record in a cell abandoned because the carrier is removed or lost (R91). -/
def State.dropProgram (s : State) (c : CellId) (i : RecIx) (outcome : ProgramOutcome) (cause : CellCause) : State :=
  match (s.cell c).program with
  | some p => if p.ix = i then s.abandonProgram c p outcome none none .ready cause else s
  | none => s

/-! ## The cells' events -/

/-- HOME_REACHED (R71); ignored while the cell is not HOMING. -/
def State.homeReached (s : State) (c : CellId) : State :=
  if (s.cell c).state = .homing then
    (s.modCell c fun v => { v with homeTimer := none, gantry := some ⟨0, 0, 300⟩, haltDue := false }).cellTo c .ready
      .homeReached none
  else s

/-- HOME_TIMEOUT (R71): the home timer expires. -/
def State.homeTimeout (s : State) (c : CellId) : State :=
  match (s.cell c).state, (s.cell c).homeTimer with
  | .homing, some t =>
    let s₁ := (s.expire t).modCell c fun v => { v.faultHalt with homeTimer := none }
    (s₁.noteFault .homeTimeout (.scc c) {}).cellTo c .faulted .homeTimeout none
  | _, _ => s

/-- SEEK_END (R76): the in-position event of a seek. -/
def State.seekEnd (s : State) (c : CellId) : State :=
  match (s.cell c).executing with
  | some e =>
    if e.phase = .seek then
      (s.modCell c fun v =>
        { v with gantryTimer := none, gantry := some ⟨e.seg.x, e.seg.y, e.seg.z⟩, haltDue := false }).beginStroke c e
    else s
  | none => s

/-- LEAD_TIMER_EXPIRY (R77). -/
def State.leadExpiry (s : State) (c : CellId) : State :=
  match (s.cell c).executing, (s.cell c).leadTimer with
  | some e, some t =>
    if e.phase = .lead then ((s.expire t).modCell c fun v => { v with leadTimer := none }).beginMotion c e else s
  | _, _ => s

/-- VALVE_CLOSE_TIMER (R77). -/
def State.valveClose (s : State) (c : CellId) : State :=
  match (s.cell c).valveTimer with
  | some t => (s.expire t).modCell c fun v => { v with valveTimer := none, valveOpen := false }
  | none => s

/-- The credit of a segment whose motion has ended (R77 step 3): a MOVE segment deposits nothing. -/
def State.credit (s : State) (i : RecIx) (e : Executing) : State :=
  if e.seg.kind = some .spray then s.addDeposit i e.seg.zone e.deposit else s

/-- The cell after the end of a motion, before the next segment (R77 steps 1, 2, 4). -/
def SprayCell.motionDone (v : SprayCell) (e : Executing) : SprayCell :=
  { v.freeSlot with
    gantryTimer := none, valveTimer := none, valveOpen := false, gantry := some e.finish, haltDue := false
    counts := { v.counts with executed := bump16 v.counts.executed } }

/-- MOTION_END (R77): the in-position event at a segment's end. -/
def State.motionEnd (s : State) (c : CellId) : State :=
  match (s.cell c).executing, (s.cell c).program with
  | some e, some p =>
    if e.phase = .motion then ((s.credit p.ix e).modCell c fun v => v.motionDone e).nextSegment c else s
  | _, _ => s

/-- GANTRY_TIMEOUT (R76, R77): the seek or motion timer expires. -/
def State.gantryTimeout (s : State) (c : CellId) : State :=
  match (s.cell c).gantryTimer, (s.cell c).program with
  | some t, some p => (s.expire t).segmentFault c p .gantryTimeout p.next none
  | _, _ => s

/-- GANTRY_HALT_REPORT (R79): taken while a halt report is awaited. -/
def State.haltReport (s : State) (c : CellId) (x y z : Nat) : State :=
  if (s.cell c).haltDue then s.modCell c fun v => { v with gantry := some ⟨x, y, z⟩, haltDue := false } else s

/-- STARVE_LIMIT (R81): the starve timer expires. -/
def State.starveLimit (s : State) (c : CellId) : State :=
  match (s.cell c).state, (s.cell c).starveTimer, (s.cell c).program with
  | .starved, some t, some p =>
    let s₁ := ((s.expire t).modCell c fun v => { v with starveTimer := none }).noteFault .starveLimit (.scc c)
      { ix := some p.ix }
    let s₂ := s₁.abandonRun c p.ix none true
    ((s₂.modCell c fun v => { v with skip := true }).cellTo c .running .programStart (some p.ix)).nextSegment c
  | _, _, _ => s

/-- VALVE_FAULT (R83): a current-sense report in any state but FAULTED. -/
def State.valveFault (s : State) (c : CellId) : State :=
  if (s.cell c).state = .faulted then s
  else
    match (s.cell c).program with
    | some p => (s.noteFault .valveFault (.scc c) { ix := some p.ix }).faultProgram c p .valveFault p.next none
    | none =>
      let s₁ := (s.noteFault .valveFault (.scc c) {}).modCell c fun v => v.faultHalt.stopTimers
      s₁.cellTo c .faulted (.fault .valveFault) none

end Sys2Proof.Machine
end

