-- ==== Sys2Proof/Machine/Modes.lean ====
section
/-! DEFINITION. The line mode (09): its changes with each block's reaction (R163, R165, R166), and the raising of faults,
which may change it (R170). -/

namespace Sys2Proof.Machine

/-- The line mode written and LINE_MODE queued (R163). -/
def State.putMode (s : State) (m : LineMode) (cause : ModeCause) : State :=
  let prev := s.lmf.mode
  ({ s with lmf := { s.lmf with mode := m } }).queueReport (.lineMode m prev s.now cause)

/-- The Line Tracker's reaction to a mode (R3, R4, R23): moves halted at STOP, driven again at RESUME and at RUN, failed
tag checks repeated at RUN. -/
def State.trackerMode (s : State) (m prev : LineMode) : State :=
  match m with
  | .stop => s.haltMoves
  | .run => s.redriveMoves.recheckFailed
  | .pause => if prev = .stop then s.redriveMoves else s
  | .idle => s

/-- The heads' reaction to a mode (R62, R63). -/
def State.headsMode (s : State) (m : LineMode) : State :=
  match m with
  | .stop => (s.abandonWalk .mask).abandonWalk .inspect
  | .run | .pause | .idle => s

/-- The cells' reaction to a mode reached other than by the emergency stop (R89). -/
def State.cellsMode (s : State) (m : LineMode) : State :=
  match m with
  | .stop => (s.cellStop .a).cellStop .b
  | .run | .pause | .idle => s

/-- The cells' reaction to the emergency stop (R90). -/
def State.cellsEmergency (s : State) : State := (s.cellEmergency .a).cellEmergency .b

/-- The tunnel's reaction to a mode (R113, R127): the lanes re-derived, LANE1 first (DESIGN CHOICE, log 4), the shutter
re-evaluated. -/
def State.tunnelMode (s : State) : State := ((s.deriveLane .lane1 .lineMode).deriveLane .lane2 .lineMode).evalShutter

/-- The line mode becomes `m` (R163); nothing when the line is already in it. The blocks take the change in the order
LTK, INE, SCC-A, SCC-B, CTC (log 4). -/
def State.setMode (s : State) (m : LineMode) (cause : ModeCause) : State :=
  if s.lmf.mode = m then s
  else ((((s.putMode m cause).trackerMode m s.lmf.mode).headsMode m).cellsMode m).tunnelMode

/-- STOP by the emergency-stop input (R165, R166); the cells are unhomed in STOP too. -/
def State.emergency (s : State) : State :=
  if s.lmf.mode = .stop then s.cellsEmergency
  else ((((s.putMode .stop .emergencyStop).trackerMode .stop s.lmf.mode).headsMode .stop).cellsEmergency).tunnelMode

/-- The emergency-stop input as last read (R166). -/
def State.setEstop (s : State) (active : Bool) : State := { s with lmf := { s.lmf with estop := active } }

/-- EMERGENCY_STOP (R166): the input becomes active. -/
def State.estopActive (s : State) : State := (s.setEstop true).emergency

/-- The mode change that a fault makes (R165): STOP for a FATAL one, PAUSE in RUN for TRANSPORT_TIMEOUT and
TAG_MISMATCH. -/
def State.faultMode (s : State) (code : FaultCode) : State :=
  match code.cls with
  | .fatal => s.setMode .stop (.fault code)
  | .correctable => s
  | .nonfatal =>
    if (code = .transportTimeout ∨ code = .tagMismatch) ∧ s.lmf.mode = .run then s.setMode .pause (.fault code) else s

/-- A fault raised (R170). -/
def State.raiseFault (s : State) (code : FaultCode) (origin : Origin) (detail : FaultDetail) : State :=
  (s.noteFault code origin detail).faultMode code

end Sys2Proof.Machine
end

