-- ==== Sys2Proof/Machine/Line.lean ====
section
/-! DEFINITION. The Line Tracker (01): records becoming DONE and FREE, load outcomes, matching and re-entry at LOAD, tag
reads and writes, the ends and the beginnings of transport moves, and what the presence sensors report. -/

namespace Sys2Proof.Machine

/-! ## Recipe Slots as the records use them (R36, R39) -/

/-- A slot set. -/
def State.setSlot (s : State) (k : SlotIx) (v : Slot) : State := { s with rsc := { s.rsc with slots := s.rsc.slots.set k v } }

/-- A slot's use count one less; its last-use time is kept (R39). -/
def Slot.release : Slot → Slot
  | .empty => .empty
  | .loading h => .loading { h with use := h.use - 1 }
  | .valid h q r => .valid { h with use := h.use - 1 } q r

/-- The use of a slot released. -/
def State.releaseSlot (s : State) (k : SlotIx) : State := s.setSlot k s.rsc.slots[k].release

/-- The slot use of a record released (R7). -/
def State.releaseUse (s : State) (i : RecIx) : State :=
  match s.rec? i with
  | some r =>
    match r.slot with
    | some k => s.releaseSlot k
    | none => s
  | none => s

/-! ## Records becoming DONE or FREE (R7, R16) -/

/-- The tag checks in progress for a record dropped: a check whose record has left the line ends without a result; DESIGN
CHOICE (log 43). -/
def State.dropChecks (s : State) (i : RecIx) : State := s.setReads (s.ltk.reads.filter fun j => decide (j.why ≠ .check i))

/-- The LOAD entry that a record has taken is gone with it (log 9). -/
def State.dropTakenEntry (s : State) (i : RecIx) : State :=
  match s.ltk.loadEntry with
  | some e => if e.takenBy = some i then s.setEntry none else s
  | none => s

/-- A record out of the wet queue (R110). -/
def State.leaveWetQueue (s : State) (i : RecIx) : State :=
  { s with ctc := { s.ctc with wetQueue := s.ctc.wetQueue.filter fun j => decide (j ≠ i) } }

/-- What the Line Tracker drops as a record becomes DONE: its move, its tag checks, its LOAD entry, the results of its
mark writes. -/
def State.retireTracker (s : State) (i : RecIx) : State := (((s.dropMove i).dropChecks i).dropTakenEntry i).dropMarkWrites i

/-- What the stations drop: a walk, a program (outcome REMOVED), and the marks that name the record (R57, R61, R91). -/
def State.retireStations (s : State) (i : RecIx) : State :=
  ((((s.dropWalks i).dropProgram .a i .removed .removed).dropProgram .b i .removed .removed)).dropMarks i

/-- What the tunnel drops: the waiting binding, the wet queue entry, the exit resource, the lane binding (R108 to R110,
R126). -/
def State.retireTunnel (s : State) (i : RecIx) : State :=
  (((s.dropWaiting i).leaveWetQueue i).freeExit i).unbind i .removed

/-- What the Hold Manager drops: the Bench Queue entry and the bench position (R146, R147). -/
def State.retireBench (s : State) (i : RecIx) : State :=
  (s.setQueue (s.hmg.queue.filter fun j => decide (j ≠ i))).unseat i

/-- A record becomes DONE with an outcome; the blocks act in the order LTK, RSC, INE, SCC, CTC, HMG (log 4). -/
def State.retire (s : State) (i : RecIx) (outcome : DoneOutcome) : State :=
  let s₁ := s.modRec i fun r =>
    { r with status := .done outcome, plan := if outcome = .removed then [] else r.plan }
  ((((s₁.retireTracker i).releaseUse i).retireStations i).retireTunnel i).retireBench i

/-! ## Loads of records (R6, R13) -/

/-- A record shaped to the recipe of its slot (R6). -/
def shapeRecord (k : SlotIx) (qualified : Bool) (p : Recipe) (r : CarrierRecord) : CarrierRecord :=
  { r with
    slot := some k, qualified := qualified, maskVerdict := .none
    maskPoints := List.replicate (sectionPoints p.mask).length .notChecked
    keepoutPoints := List.replicate (sectionPoints p.keepout).length .notChecked
    coveragePoints := List.replicate (p.coverage.getD []).length .notChecked
    zones := p.zones.map fun _ => { acc := 0, thickness := 0, verdict := .none, abandoned := false } }

/-- The record of an index while it is LOADING: the one that the end of a load concerns (R7). -/
def State.loading? (s : State) (i : RecIx) : Option CarrierRecord :=
  match s.rec? i with
  | some r => if r.status = .loading then some r else none
  | none => none

/-- A load that succeeds for a record (R13): WAIT_LANE and a binding, or DONE when removal is pending. -/
def State.loadSucceeded (s : State) (i : RecIx) (k : SlotIx) (qualified : Bool) (p : Recipe) : State :=
  match s.loading? i with
  | none => s
  | some r =>
    if r.removalPending then (s.releaseSlot k).retire i .removed
    else (s.setRec i (some { shapeRecord k qualified p r with status := .waitLane })).requestBinding i .new

/-- The LOAD entry that a record took is free to be taken again; without a carrier at LOAD it is cleared (R8, R13). -/
def State.returnEntry (s : State) (i : RecIx) : State :=
  match s.ltk.loadEntry with
  | some e =>
    if e.takenBy = some i then s.setEntry (if s.present .load then some { e with takenBy := none } else none) else s
  | none => s

/-- A load that fails for a record (R13): FREE with ADMIT_FAILED, or DONE when removal is pending. The slot settles its
own use (R38). -/
def State.loadFailed (s : State) (i : RecIx) (why : LoadFailure) : State :=
  match s.loading? i with
  | none => s
  | some r =>
    if r.removalPending then s.retire i .removed
    else (((s.queueReport (.admitFailed r.tagId why)).setRec i none).dropChecks i).returnEntry i

/-! ## Matching at LOAD (R9, R11) -/

/-- The record of a tag is ACTIVE with a hold part in state DISPOSED. -/
def CarrierRecord.awaitsReentry (r : CarrierRecord) : Bool :=
  decide (r.status = .active) &&
    match r.hold with
    | some h => decide (h.state = .disposed)
    | none => false

/-- The match of a read tag (R9), with the record that holds the tag ID. -/
def State.matchTag (s : State) (t : TagRead) : MatchResult × Option RecIx :=
  match s.recordOfTag t.id with
  | some i =>
    match s.rec? i with
    | some r => if r.awaitsReentry ∧ t.mark = markOf i then (.reentry, some i) else (.duplicate, some i)
    | none => (.duplicate, some i)
  | none => if t.mark = 0 then (.new, none) else (.marked, none)

/-- The disposition that stands in a record's hold part. -/
def CarrierRecord.ruling (r : CarrierRecord) : Option Disposition :=
  match r.hold with
  | some h => h.disposition.map DispositionEntry.what
  | none => none

/-- The results of the stations that a plan visits made ready for a pass (R10 step 6). -/
def readyForPass (d : Disposition) (plan : List RouteEntry) (r : CarrierRecord) : CarrierRecord :=
  let mask := plan.contains .mask
  let inspect := plan.contains .inspect
  let cells := plan.any RouteEntry.isCell
  { r with
    plan := plan
    maskVerdict := if mask then .none else r.maskVerdict
    maskPoints := if mask then r.maskPoints.map fun _ => .notChecked else r.maskPoints
    keepoutPoints := if inspect then r.keepoutPoints.map fun _ => .notChecked else r.keepoutPoints
    coveragePoints := if inspect then r.coveragePoints.map fun _ => .notChecked else r.coveragePoints
    zones := if cells then r.zones.map fun z => { z with thickness := 0, verdict := .none, abandoned := false } else r.zones
    flowClamps := if cells then 0 else r.flowClamps
    starves := if cells then 0 else r.starves
    sprayEnd := if d = .wetWipe then r.sprayEnd else none
    cureVerdict := .none, entryTime := none, exitTime := none }

/-- A record in its next pass at LOAD, its hold part closed (R10 steps 1 to 3). -/
def CarrierRecord.reentered (r : CarrierRecord) : CarrierRecord :=
  { r.closeHold with pass := r.pass + 1, position := .standing .load, tagCheck := .passed }

/-- A re-entry up to the write of mark 0 (R10 steps 1 to 4). A bench position that still names the record then holds nothing;
DESIGN CHOICE (log 48). -/
def State.reenter (s : State) (i : RecIx) : State :=
  match s.rec? i with
  | some r =>
    match r.ruling with
    | none => s
    | some d =>
      (((s.setRec i (some r.reentered)).unseat i).dropChecks i).askWrite .load 0 (.reentry i (some d))
  | none => s

/-- The rest of a re-entry, once its write has ended (R10 steps 5 to 7): the plan, the results made ready, WAIT_LANE, the
bind request. -/
def State.beginPass (s : State) (i : RecIx) (d : Disposition) : State :=
  match s.live? i, s.recipeOf i with
  | some r, some p =>
    (s.setRec i (some { readyForPass d (planAfter p d) r with status := .waitLane })).requestBinding i .reentry
  | _, _ => s

/-- A tag matched at LOAD (R8, R9): the LOAD entry set, LOAD_ARRIVAL queued, and a REENTRY taken at once (R10). -/
def State.takeMatch (s : State) (t : TagRead) : State :=
  let (result, holder) := s.matchTag t
  let taken := if result = .reentry then holder else none
  let s₁ := (s.setEntry (some { tag := some t, result := result, takenBy := taken })).queueReport
    (.loadArrival (some t) result)
  match taken with
  | some i => s₁.reenter i
  | none => s₁

/-- The carrier at LOAD matched again from its last-known tag (R11), when its match is the one named. -/
def State.rematch (s : State) (was : MatchResult) (id : TagId) : State :=
  match s.ltk.loadEntry with
  | some e =>
    match e.tag with
    | some t => if e.result = was ∧ t.id = id then s.takeMatch t else s
    | none => s
  | none => s

/-! ## Tag reads (R8, R21, R22) -/

/-- The arrival at UNLOAD completed after its tag check (R21): DONE/GOOD, or held with its mark written. -/
def State.completePass (s : State) (i : RecIx) : State :=
  match s.live? i with
  | none => s
  | some r =>
    match r.hold with
    | some _ => s.askWrite .unload (markOf i) (.holdMark i true)
    | none =>
      if r.status = .active ∧ r.cureVerdict = .cured then (s.retire i .good).queueReport (.carrierDone i) else s

/-- A hold in state OPEN goes to AT_BENCH (R146). -/
def Hold.toBench (h : Hold) : Hold :=
  match h.state with
  | .opened => { h with state := .atBench }
  | .atBench | .disposed => h

/-- The arrival at a bench position after its tag check (R146). -/
def State.arriveBench (s : State) (n : BenchIx) (i : RecIx) : State :=
  match s.holdOf i with
  | some _ =>
    (((s.modHold i Hold.toBench).askWrite (.bench n) (markOf i) (.holdMark i true))).holdChanged i .bench
  | none => s

/-- A tag check that passes (R22). -/
def State.checkPassed (s : State) (i : RecIx) (p : Place) : State :=
  let s₁ := (s.dropRead p).modRec i fun r => { r with tagCheck := .passed }
  match p with
  | .unload => s₁.completePass i
  | .bench n => s₁.arriveBench n i
  | .load | .mask | .sprayA | .sprayB | .inspect | .wetq | .lane1 | .lane2 | .offline => s₁

/-- A tag check that fails (R22): the head's walk at the station is abandoned (R57), TAG_MISMATCH raised. -/
def State.checkFailed (s : State) (i : RecIx) (p : Place) : State :=
  let s₁ := (s.dropRead p).modRec i fun r => { r with tagCheck := .failed }
  (s₁.dropWalks i).raiseFault .tagMismatch .ltk { ix := some i, position := some (.standing p) }

/-- The next attempt of the read at a place. -/
def State.nextAttempt (s : State) (p : Place) : State :=
  s.setReads (s.ltk.reads.map fun j => if j.place = p then { j with attempt := j.attempt + 1 } else j)

/-- An arrival that no attempt could read (R8). -/
def State.unreadable (s : State) : State :=
  ((s.dropRead .load).setEntry (some { tag := none, result := .unreadable, takenBy := none })).queueReport
    (.loadArrival none .unreadable)

/-- A LOAD entry that no record has taken is gone (R8). -/
def State.clearEntry (s : State) : State :=
  match s.ltk.loadEntry with
  | some e => if e.takenBy.isNone then s.setEntry none else s
  | none => s

/-- The read of an arrival has ended with its LOAD_ARRIVAL: while LOAD reads clear by then, no entry stands that no record
has taken (R8); DEDUCED (log 33). -/
def State.arrivalTold (s : State) : State := if s.present .load then s else s.clearEntry

/-- An attempt of the tag check of a record ends (R22). -/
def State.checkAttempt (s : State) (i : RecIx) (j : TagReadJob) (result : Option TagRead) : State :=
  match s.live? i, result with
  | none, _ => s.dropRead j.place
  | some r, some t => if t.id = r.tagId then s.checkPassed i j.place else s.checkFailed i j.place
  | some _, none => if j.attempt < 3 then s.nextAttempt j.place else s.checkFailed i j.place

/-- TAG_READ_ATTEMPT_END (R8, R22). -/
def State.readEnd (s : State) (p : Place) (result : Option TagRead) : State :=
  match s.readAt p with
  | none => s
  | some j =>
    match j.why, result with
    | .arrival, some t => ((s.dropRead p).takeMatch t).arrivalTold
    | .arrival, none => if j.attempt < 3 then s.nextAttempt p else s.unreadable.arrivalTold
    | .check i, _ => s.checkAttempt i j result

/-! ## Tag writes (R10, R15, R149, R160) -/

/-- The block whose write it is: LTK at LOAD, HMG elsewhere (09, "Faults"). -/
def writeOrigin (p : Place) : Origin :=
  match p with
  | .load => .ltk
  | .mask | .sprayA | .sprayB | .inspect | .wetq | .lane1 | .lane2 | .unload | .bench _ | .offline => .hmg

/-- The detail of a fault of a write: the record index, which a MARK_CLEAR's write has not, and the position. R149 gives
them for a hold mark's TAG_WRITE_FAIL alone; for every TAG_WRITE_RETRY, and for TAG_WRITE_FAIL at the other writes (R10,
R15, R160), they are the model's: DESIGN CHOICE (log 42). -/
def TagWriteJob.detail (j : TagWriteJob) : FaultDetail := { ix := j.why.ix, position := some (.standing j.place) }

/-- The first write asked of the writer of a place: the one in progress. -/
def State.writeAt (s : State) (p : Place) : Option TagWriteJob := s.ltk.writes.find? fun j => decide (j.place = p)

/-- The writes set. -/
def State.setWrites (s : State) (ws : List TagWriteJob) : State := { s with ltk := { s.ltk with writes := ws } }

/-- The write in progress at a place ended. -/
def State.popWrite (s : State) (p : Place) : State := s.setWrites (s.ltk.writes.eraseP fun j => decide (j.place = p))

/-- The next attempt of the write in progress at a place. -/
def bumpFirst (p : Place) : List TagWriteJob → List TagWriteJob
  | [] => []
  | j :: js => if j.place = p then { j with attempt := j.attempt + 1 } :: js else j :: bumpFirst p js

/-- The mark of the LOAD entry written as 0, when it still holds the tag with match MARKED (R15). -/
def State.entryUnmarked (s : State) (id : TagId) : State :=
  match s.ltk.loadEntry with
  | some e =>
    match e.tag with
    | some t => if e.result = .marked ∧ t.id = id then s.setEntry (some { e with tag := some { t with mark := 0 } }) else s
    | none => s
  | none => s

/-- The LOAD entry still holds a tag with match MARKED. -/
def State.entryMarked (s : State) (id : TagId) : Option TagRead :=
  match s.ltk.loadEntry with
  | some e =>
    match e.tag with
    | some t => if e.result = .marked ∧ t.id = id then some t else none
    | none => none
  | none => none

/-- A hold mark write that ends for a live record (R149): the flag on success, and HOLD_CHANGED (MARK) either way. -/
def State.holdMarkEnd (s : State) (i : RecIx) (live ok : Bool) : State :=
  if live && (s.live? i).isSome then
    (if ok then s.modHold i fun h => { h with markWritten := true } else s).holdChanged i .mark
  else s

/-- The write of a re-entry has ended, with the mark written or left on the tag (R10 step 4): the re-entry goes on. -/
def State.reentryWritten (s : State) (i : RecIx) : Option Disposition → State
  | some d => s.beginPass i d
  | none => s

/-- A write that has succeeded. -/
def State.writeDone (s : State) (why : WriteFor) : State :=
  match why with
  | .reentry i next => s.reentryWritten i next
  | .closing _ => s
  | .markClear id => (s.entryUnmarked id).rematch .marked id
  | .holdMark i live => s.holdMarkEnd i live true

/-- A write whose third attempt has failed. -/
def State.writeFailed (s : State) (why : WriteFor) : State :=
  match why with
  | .reentry i next => s.reentryWritten i next
  | .closing _ => s
  | .markClear id =>
    match s.entryMarked id with
    | some t => s.queueReport (.loadArrival (some t) .marked)
    | none => s
  | .holdMark i live => s.holdMarkEnd i live false

/-- TAG_WRITE_ATTEMPT_END (R149, R192). -/
def State.writeEnd (s : State) (p : Place) (readBack : Option Byte) : State :=
  match s.writeAt p with
  | none => s
  | some j =>
    if readBack = some j.value then (s.popWrite p).writeDone j.why
    else
      let s₁ := s.noteFault .tagWriteRetry (writeOrigin p) j.detail
      if j.attempt < 3 then s₁.setWrites (bumpFirst p s₁.ltk.writes)
      else ((s₁.noteFault .tagWriteFail (writeOrigin p) j.detail).popWrite p).writeFailed j.why

/-! ## Arrivals and sensors (R1, R8, R24, R146) -/

/-- Start-up has not ended (R172). -/
def State.starting (s : State) : Bool := s.rsc.startUp.isSome

/-- An arrival whose read is still in progress when the next one comes is UNREADABLE, with its LOAD_ARRIVAL (R8); DESIGN
CHOICE (log 33). -/
def State.endArrivalRead (s : State) : State :=
  match s.readAt .load with
  | some j => if j.why = .arrival then s.queueReport (.loadArrival none .unreadable) else s
  | none => s

/-- An arrival at LOAD is taken (R8): the tag is read. -/
def State.beginArrival (s : State) : State := (s.endArrivalRead.setEntry none).startRead .load .arrival

/-- The LOAD sensor reads present (R8): an arrival when no record stands there; during start-up only the level is taken
(R172). Under a live record with LOAD as its position the level is taken and nothing else happens: no arrival and no tag
check, which is CARRIER_SET_BACK's (R24); DESIGN CHOICE (log 40). -/
def State.loadPresent (s : State) : State :=
  if s.present .load then s
  else
    let s₁ := s.setSensor .load true
    if s.starting || (s.recordAt .load).isSome then s₁ else s₁.beginArrival

/-- The LOAD sensor reads clear with no record there (R8): an untaken entry is gone. A read in progress goes on, because
each arrival has its LOAD_ARRIVAL (R8). -/
def State.loadClear (s : State) : State :=
  if (s.recordAt .load).isSome then s else (s.setSensor .load false).clearEntry

/-- SOURCE_CLEARED (R2): the sensor of the source of a move in flight reads clear. -/
def State.sourceClear (s : State) (p : Place) : State :=
  if s.ltk.moves.any fun m => decide (m.src = p) then s.setSensor p false else s

/-- The spray cell of a place. -/
def cellAt : Place → Option CellId
  | .sprayA => some .a
  | .sprayB => some .b
  | .load | .mask | .inspect | .wetq | .lane1 | .lane2 | .unload | .bench _ | .offline => none

/-- The work in progress for a carrier that has gone missing ends (R57, R91). -/
def State.loseCarrier (s : State) (i : RecIx) (p : Place) : State :=
  let s₁ := s.dropWalks i
  match cellAt p with
  | some c => s₁.dropProgram c i .carrierLost .carrierLost
  | none => s₁

/-- CARRIER_MISSING (R24): a station's sensor reads clear under a record. TAG_MISMATCH carries the record index and the
position, as R22 gives them for it; DEDUCED (log 42). A tag check in progress there ends without a result; DESIGN CHOICE
(log 43). -/
def State.carrierMissing (s : State) (p : Place) : State :=
  match s.recordAt p with
  | some i =>
    if p.isStation && s.present p then
      let s₁ := ((s.setSensor p false).dropRead p).modRec i fun r => { r with tagCheck := .failed }
      (s₁.raiseFault .tagMismatch .ltk { ix := some i, position := some (.standing p) }).loseCarrier i p
    else s
  | none => s

/-- CARRIER_LIFTED (R21, R146): the sensor at UNLOAD or a bench position reads clear under an ACTIVE record. A tag
check in progress there ends without a result; DESIGN CHOICE (log 43). -/
def State.carrierLifted (s : State) (p : Place) : State :=
  match s.recordAt p with
  | some i =>
    if p.isLiftPlace && s.present p then
      let s₁ := ((s.setSensor p false).dropRead p).modRec i fun r => { r with position := .standing .offline }
      (s₁.unseat i).holdChanged i .offline
    else s
  | none => s

/-- CARRIER_SET_BACK (R1, R24): a sensor reads present again with no move targeting its place. -/
def State.setBack (s : State) (p : Place) : State :=
  if s.present p || s.ltk.moves.any (fun m => decide (m.dst = p)) || !p.hasSensor then s
  else
    let s₁ := s.setSensor p true
    if s.starting then s₁
    else
      match s.recordAt p with
      | some i => s₁.startRead p (.check i)
      | none =>
        match p with
        | .load => s₁.beginArrival
        | .mask | .sprayA | .sprayB | .inspect | .wetq | .lane1 | .lane2 | .unload | .bench _ | .offline => s₁

/-- DONE_CARRIER_LIFTED (R1): a sensor reads clear where no record stands and no move leaves. -/
def State.doneLifted (s : State) (p : Place) : State :=
  if (s.recordAt p).isSome || s.ltk.moves.any (fun m => decide (m.src = p)) then s
  else
    match p with
    | .load => s.loadClear
    | .mask | .sprayA | .sprayB | .inspect | .wetq | .lane1 | .lane2 | .unload | .bench _ | .offline =>
      s.setSensor p false

/-! ## Transport moves (R2, R3, R18) -/

/-- The place that a route entry leads to by a move of the Line Tracker's. -/
def RouteEntry.place? : RouteEntry → Option Place
  | .mask => some .mask
  | .sprayA => some .sprayA
  | .sprayB => some .sprayB
  | .inspect => some .inspect
  | .wetq => some .wetq
  | .lane | .exit => none

/-- A mark names a record in its present pass. -/
def names (m : Option RunMark) (i : RecIx) (r : CarrierRecord) : Bool := decide (m = some { ix := i, pass := r.pass })

/-- A cell has run or abandoned the program of a record's pass and released it (R85, R84 step 9). -/
def State.cellReleases (s : State) (c : CellId) (i : RecIx) (r : CarrierRecord) : Bool :=
  names (s.cell c).runMark i r &&
    match (s.cell c).program with
    | some p => decide (p.ix ≠ i)
    | none => true

/-- The source station has released a carrier (R2). -/
def State.released (s : State) (p : Place) (i : RecIx) (r : CarrierRecord) : Bool :=
  match p with
  | .load => decide (r.status = .active)
  | .mask => names s.ine.mask.given i r
  | .inspect => names s.ine.inspect.given i r
  | .sprayA => s.cellReleases .a i r
  | .sprayB => s.cellReleases .b i r
  | .wetq | .lane1 | .lane2 | .unload | .bench _ | .offline => false

/-- The line mode allows a move to a target (R2). -/
def LineMode.allows (m : LineMode) (dst : Place) : Bool :=
  match m with
  | .run => true
  | .pause =>
    match dst with
    | .mask | .sprayA | .sprayB | .inspect | .load => false
    | .wetq | .lane1 | .lane2 | .unload | .bench _ | .offline => true
  | .stop | .idle => false

/-- The wet queue has space (R110). -/
def State.wetSpace (s : State) : Bool :=
  decide (s.ctc.wetQueue.length + (s.ltk.moves.filter fun m => decide (m.dst = .wetq)).length < 3)

/-- A spray cell may be entered: it is READY and the mask verdict is OK (R18). -/
def State.cellOpen (s : State) (c : CellId) (r : CarrierRecord) : Bool :=
  decide ((s.cell c).state = .ready) && decide (r.maskVerdict = .ok)

/-- The entry conditions of a target (R2, R18). -/
def State.admits (s : State) (dst : Place) (r : CarrierRecord) : Bool :=
  match dst with
  | .wetq => s.wetSpace
  | .sprayA => s.isFree dst && s.cellOpen .a r
  | .sprayB => s.isFree dst && s.cellOpen .b r
  | .mask | .inspect => s.isFree dst
  | .load | .lane1 | .lane2 | .unload | .bench _ | .offline => false

/-- The move that the Line Tracker can begin for a record: source and target (R2, R18). -/
def State.moveReady (s : State) (i : RecIx) : Option (Place × Place) :=
  match s.live? i with
  | none => none
  | some r =>
    match r.position, r.plan.head?.bind RouteEntry.place? with
    | .standing src, some dst =>
      if r.status = .active ∧ s.released src i r ∧ r.tagCheck ≠ .failed ∧ s.lmf.mode.allows dst ∧ s.admits dst r
      then some (src, dst) else none
    | _, _ => none

/-- The order LOAD, MASK, SPRAY_A, SPRAY_B, INSPECT of R18. -/
def placeRank : Place → Nat
  | .load => 0
  | .mask => 1
  | .sprayA => 2
  | .sprayB => 3
  | .inspect => 4
  | .wetq | .lane1 | .lane2 | .unload | .bench _ | .offline => 5

/-- Another record can move into the same target from a source that stands later in the order (R18). -/
def State.outranked (s : State) (i : RecIx) (src dst : Place) : Bool :=
  recIxs.any fun j =>
    match s.moveReady j with
    | some (src', dst') => decide (j ≠ i) && decide (dst' = dst) && decide (placeRank src < placeRank src')
    | none => false

/-- MOVE_BEGIN (R2, R18). -/
def State.moveBegin (s : State) (i : RecIx) : State :=
  match s.moveReady i with
  | some (src, dst) => if s.outranked i src dst then s else s.beginMove i src dst
  | none => s

/-- A place of the two lanes. -/
def onLane : Place → Bool
  | .lane1 | .lane2 => true
  | .load | .mask | .sprayA | .sprayB | .inspect | .wetq | .unload | .bench _ | .offline => false

/-- A move ends at its target (R3): no longer in flight, the sensor present, the position the target. -/
def State.landMove (s : State) (i : RecIx) (dst : Place) : State :=
  ((s.dropMove i).setSensor dst true).modRec i fun r => { r with position := .standing dst }

/-- What the target takes: the tag check where there is a reader, the bench position, the wet queue (R22, R110, R146). -/
def State.settleAt (s : State) (i : RecIx) (dst : Place) : State :=
  match dst with
  | .mask | .sprayA | .sprayB | .inspect | .unload => s.startCheck i dst
  | .bench n => (s.seat n i).startCheck i dst
  | .wetq => { s with ctc := { s.ctc with wetQueue := s.ctc.wetQueue ++ [i] } }
  | .load | .lane1 | .lane2 | .offline => s

/-- MOVE_END (R3): a move that is neither a lane entry nor an exit transfer ends. -/
def State.moveEnd (s : State) (i : RecIx) : State :=
  match s.moveOf i with
  | some m =>
    if onLane m.src || onLane m.dst then s
    else ((s.landMove i m.dst).modRec i fun r => { r with plan := r.plan.tail }).settleAt i m.dst
  | none => s

/-- TRANSPORT_TIMEOUT (R3): the move timer of a record's driven move expires. R3 gives the fault no detail (R170); the
record index and the position, still IN_TRANSIT, are the model's: DESIGN CHOICE (log 42). -/
def State.moveTimeout (s : State) (i : RecIx) : State :=
  match s.moveTimer i, s.rec? i with
  | some t, some r =>
    ((s.expire t).timeOutMove i).raiseFault .transportTimeout .ltk { ix := some i, position := some r.position }
  | _, _ => s

/-- BENCH_MOVE_START (R148): the Bench Queue head begins its move. -/
def State.benchMoveStart (s : State) : State :=
  match s.hmg.queue, s.lowestFreeBench with
  | i :: rest, some n =>
    match s.live? i with
    | some r =>
      match r.position with
      | .standing src =>
        if s.lmf.mode.allows (.bench n) ∧ r.tagCheck ≠ .failed then (s.setQueue rest).beginMove i src (.bench n) else s
      | .inTransit _ _ => s
    | none => s
  | _, _ => s

end Sys2Proof.Machine
end

