-- ==== Sys2Proof/Machine/Recipe.lean ====
section
/-! DEFINITION. The recipe chain as bytes (02 "The recipe chain", 11 "Recipes and sections"): the header block, the
directory, and the walk of a chain with its checks (R27, R28, R30, R32 to R35, R43). -/

namespace Sys2Proof.Machine

/-! ## Fields of a run of bytes -/

/-- The unsigned number in `n` bytes from byte `k` on. -/
def numAt (bs : List Byte) (k n : Nat) : Nat := beNat ((bs.drop k).take n)

/-- The byte at `k`. -/
def byteAt (bs : List Byte) (k : Nat) : Nat := numAt bs k 1

/-- The signed 16-bit number from byte `k` on. -/
def intAt (bs : List Byte) (k : Nat) : Int :=
  if numAt bs k 2 < 32768 then (numAt bs k 2 : Int) else (numAt bs k 2 : Int) - 65536

/-- A value lies in a range. -/
def within (lo hi v : Nat) : Bool := decide (lo ≤ v) && decide (v ≤ hi)

/-- The CRC in two bytes matches a run of bytes. -/
def crcOk (covered : List Byte) (stored : Nat) : Bool := decide ((crc16 covered).toNat = stored)

/-! ## The header block (R27, R28) -/

/-- The header is valid (R27). -/
def headerValid (h : List Byte) : Bool :=
  decide (byteAt h 0 / 64 = 1) && crcOk (h.take 254) (numAt h 254 2)
    && (decide (byteAt h 2 = 0x00) || decide (byteAt h 2 = 0xA5)) && within 8 4096 (numAt h 3 2)
    && within 0 64 (byteAt h 5)

/-- The store state that a header gives (R27). -/
def storeStateOf (h : List Byte) : StoreState :=
  if headerValid h then (if byteAt h 2 = 0xA5 then .guarded else .opened) else .blank

/-- A stored item, or its default when it lies outside its range (R28). -/
def itemOr (lo hi dflt v : Nat) : Nat := if within lo hi v then v else dflt

/-- A thermocouple offset, or 0 when it lies outside -500..500 (R28). -/
def offsetOr (v : Int) : Int := if -500 ≤ v ∧ v ≤ 500 then v else 0

/-- The live configuration that a valid header gives (R28). -/
def configOf (h : List Byte) : LiveConfig :=
  { nearFull := itemOr 1 4 2 (byteAt h 6)
    lampMin := itemOr 1 2000 40 (numAt h 7 2)
    fmaxA := itemOr 100 2000 1000 (numAt h 9 2)
    fmaxB := itemOr 100 2000 1000 (numAt h 11 2)
    tcOffsets := Vector.ofFn fun k : Fin 8 => offsetOr (intAt h (13 + 2 * k.val))
    gain := itemOr 500 1500 1000 (numAt h 29 2) }

/-! ## The directory (R30) -/

/-- The address in the store of a recipe's directory entry. -/
def entryAddress (recipe : Nat) : Nat := 256 + 4 * (recipe - 1)

/-- The 4 bytes of a recipe's entry in the directory copy. -/
def entryBytes (dir : Vector Byte 256) (recipe : Nat) : List Byte := (dir.toList.drop (4 * (recipe - 1))).take 4

/-- The header offset of a recipe's entry; 0 for no recipe. -/
def entryOffset (dir : Vector Byte 256) (recipe : Nat) : Nat := numAt (entryBytes dir recipe) 0 3

/-- The withdrawn flag of a recipe's entry. -/
def entryWithdrawn (dir : Vector Byte 256) (recipe : Nat) : Bool := decide (numAt (entryBytes dir recipe) 3 1 % 2 = 1)

/-- An entry is empty when its offset is 0 or it is withdrawn. -/
def entryEmpty (dir : Vector Byte 256) (recipe : Nat) : Bool :=
  decide (entryOffset dir recipe = 0) || entryWithdrawn dir recipe

/-- A recipe is qualified (R32): PROTECTED, its number at most Q, its header wholly within the locked region. -/
def qualifiedAt (st : StoreState) (boundary q recipe header : Nat) : Bool :=
  decide (st = .guarded) && decide (recipe ≤ q) && decide (512 ≤ header) && decide (header + 16 ≤ boundary * 64)

/-! ## Checks of the walk -/

/-- The checks that a walk can fail, in the order of R43. -/
inductive WalkCheck where
  | headerPlace
  | headerCrc
  | headerNumber
  | headerName
  | chainOrder
  | sectionPlace
  | tooManySections
  | version
  | duplicateKind
  | bodyLength
  | bodyCrc
  | fieldRange
  | missingKind
deriving DecidableEq, Repr

/-- The code of a check, numbered in the order of R43. -/
def checkCode : WalkCheck → Nat
  | .headerPlace => 0
  | .headerCrc => 1
  | .headerNumber => 2
  | .headerName => 3
  | .chainOrder => 4
  | .sectionPlace => 5
  | .tooManySections => 6
  | .version => 7
  | .duplicateKind => 8
  | .bodyLength => 9
  | .bodyCrc => 10
  | .fieldRange => 11
  | .missingKind => 12

/-! ## Section bodies (R34, R35) -/

/-- The kinds that are known, 1..7. -/
def kindKnown (kind : Nat) : Bool := within 1 7 kind

/-- A body length that a known kind allows (R34 check 4). -/
def bodyLengthOk (kind len : Nat) : Bool :=
  match kind with
  | 1 => within 8 24 len
  | 2 => decide (len % 8 = 1) && within 1 16 (len / 8)
  | 3 => decide (len = 10)
  | 4 => decide (len % 9 = 1) && within 1 32 (len / 9)
  | 5 => decide (len % 9 = 1) && within 1 16 (len / 9)
  | 6 => decide (len % 9 = 0) && within 1 16 (len / 9)
  | 7 => decide (len = 47)
  | _ => true

/-- A body is read as a value, or fails a check. -/
abbrev Decoded (α : Type) := Except WalkCheck α

/-- A value when its fields lie in their ranges, FIELD_RANGE otherwise. -/
def inRange {α : Type} (ok : Bool) (v : α) : Decoded α := if ok then .ok v else .error .fieldRange

/-- The MATERIAL body. -/
def decodeMaterial (b : List Byte) : Decoded Material :=
  let v : Material :=
    { solids := numAt b 0 2, efficiency := byteAt b 2, zLow := numAt b 3 2, derate := byteAt b 5, openTime := numAt b 6 2 }
  inRange (within 100 1000 v.solids && within 30 100 v.efficiency && within 30 300 v.zLow && within 50 100 v.derate
    && within 30 900 v.openTime && (b.drop 8).all fun c => within 0x20 0x7E c.toNat) v

/-- Zone `k` of the ZONES body. -/
def zoneSpecAt (b : List Byte) (k : Nat) : ZoneSpec :=
  { area := numAt b (1 + 8 * k) 4, low := numAt b (5 + 8 * k) 2, high := numAt b (7 + 8 * k) 2 }

/-- The fields of a zone lie in their ranges. -/
def ZoneSpec.ok (z : ZoneSpec) : Bool := within 1 100000 z.area && decide (z.low ≤ z.high)

/-- The ZONES body; a count byte that differs from the count of the length is BODY_LENGTH. -/
def decodeZones (b : List Byte) : Decoded (List ZoneSpec) :=
  let zs := (List.range (b.length / 8)).map (zoneSpecAt b)
  if byteAt b 0 = b.length / 8 then inRange (zs.all ZoneSpec.ok) zs else .error .bodyLength

/-- The segment area of a non-empty program lies wholly within 512..262,143 (R35). -/
def ProgramSpec.placeOk (p : ProgramSpec) : Bool :=
  decide (p.count = 0) || (decide (512 ≤ p.offset) && decide (p.offset + p.count * 12 ≤ Config.storeBytes))

/-- The SPRAY body. -/
def decodeSpray (b : List Byte) : Decoded (ProgramSpec × ProgramSpec) :=
  let p : ProgramSpec := { offset := numAt b 0 3, count := numAt b 3 2 }
  let q : ProgramSpec := { offset := numAt b 5 3, count := numAt b 8 2 }
  inRange (within 0 4096 p.count && within 0 4096 q.count && !(decide (p.count = 0) && decide (q.count = 0))
    && p.placeOk && q.placeOk) (p, q)

/-- A point kind from its code. -/
def pointKindOf : Nat → Option PointKind
  | 0x01 => some .cap
  | 0x02 => some .tape
  | 0x03 => some .boot
  | 0x04 => some .plug
  | 0x05 => some .keepout
  | 0x06 => some .cover
  | _ => none

/-- The point kinds that a list takes. -/
def PointList.takes (l : PointList) (k : PointKind) : Bool :=
  match l, k with
  | .mask, .cap | .mask, .tape | .mask, .boot | .mask, .plug | .keepout, .keepout | .coverage, .cover => true
  | .mask, .keepout | .mask, .cover | .keepout, .cap | .keepout, .tape | .keepout, .boot | .keepout, .plug => false
  | .keepout, .cover | .coverage, .cap | .coverage, .tape | .coverage, .boot | .coverage, .plug | .coverage, .keepout =>
    false

/-- The point whose 9 bytes begin at byte `k`, when its kind is one that the list takes. -/
def pointAt (l : PointList) (b : List Byte) (k : Nat) : Decoded Point :=
  match pointKindOf (byteAt b (k + 4)) with
  | some kind =>
    let p : Point :=
      { x := numAt b k 2, y := numAt b (k + 2) 2, kind := kind, low := numAt b (k + 5) 2, high := numAt b (k + 7) 2 }
    inRange (l.takes kind && within 0 6000 p.x && within 0 5000 p.y && within 0 1023 p.low && within 0 1023 p.high
      && decide (p.low ≤ p.high)) p
  | none => .error .fieldRange

/-- The points of a list from byte `first` of a body on. -/
def pointsAt (l : PointList) (b : List Byte) (first : Nat) : Decoded (List Point) :=
  (List.range ((b.length - first) / 9)).mapM fun n => pointAt l b (first + 9 * n)

/-- The mode of a MASK or KEEPOUT section. -/
def walkModeOf : Nat → Decoded WalkMode
  | 0x00 => .ok .full
  | 0x01 => .ok .firstFail
  | _ => .error .fieldRange

/-- A MASK or KEEPOUT body. -/
def decodePoints (l : PointList) (b : List Byte) : Decoded PointSection := do
  let mode ← walkModeOf (byteAt b 0)
  let points ← pointsAt l b 1
  return { mode := mode, points := points }

/-- The CURE body. -/
def decodeCure (b : List Byte) : Decoded CureSpec :=
  let v : CureSpec :=
    { rates := (List.range 16).map fun k => numAt b (2 * k) 2
      thermalTarget := numAt b 32 4, thermalMax := numAt b 36 4, uvTarget := numAt b 40 4, speedClass := byteAt b 44
      peakMax := numAt b 45 2 }
  inRange (v.rates.all (within 0 1000) && within 1 Config.doseMax v.thermalTarget && within 1 Config.doseMax v.thermalMax
    && decide (v.thermalTarget ≤ v.thermalMax) && within 0 Config.doseMax v.uvTarget && within 1 4 v.speedClass
    && within 400 3000 v.peakMax) v

/-- A known section's body decoded into the sections found so far (R35). -/
def Sections.add (v : Sections) (kind : Nat) (b : List Byte) : Decoded Sections :=
  match kind with
  | 1 => (decodeMaterial b).map fun m => { v with material := some m }
  | 2 => (decodeZones b).map fun zs => { v with zones := some zs }
  | 3 => (decodeSpray b).map fun ps => { v with spray := some ps }
  | 4 => (decodePoints .mask b).map fun p => { v with mask := some p }
  | 5 => (decodePoints .keepout b).map fun p => { v with keepout := some p }
  | 6 => (pointsAt .coverage b 0).map fun ps => { v with coverage := some ps }
  | 7 => (decodeCure b).map fun c => { v with cure := some c }
  | _ => .ok v

/-- No section found. -/
def Sections.none : Sections :=
  { material := .none, zones := .none, spray := .none, mask := .none, keepout := .none, coverage := .none, cure := .none }

/-- The recipe of a chain that has ended, when no required kind is missing (R34). -/
def Sections.recipe (v : Sections) (name : List Byte) : Option Recipe :=
  match v.material, v.zones, v.spray, v.cure with
  | some m, some zs, some (a, b), some c =>
    some
      { name := name, material := m, zones := zs, progA := a, progB := b, mask := v.mask, keepout := v.keepout
        coverage := v.coverage, cure := c }
  | _, _, _, _ => .none

/-- The extents of the segment areas of the non-empty programs (R36). -/
def segmentExtents (v : Sections) : List Extent :=
  match v.spray with
  | some (a, b) =>
    (if a.count = 0 then [] else [{ offset := a.offset, length := a.count * 12 }])
      ++ (if b.count = 0 then [] else [{ offset := b.offset, length := b.count * 12 }])
  | none => []

/-! ## The walk (R33, R34) -/

/-- What a walk comes to after a read: it goes on (with the extents it has reached), ends well, or fails a check at an
offset. -/
inductive WalkStep where
  | more (w : ChainWalk) (extents : List Extent)
  | done (w : ChainWalk) (recipe : Recipe) (extents : List Extent)
  | bad (offset : Nat) (check : WalkCheck)
deriving DecidableEq, Repr

/-- The recipe header's place is good (R33). -/
def headerPlaceOk (header : Nat) : Bool := decide (512 ≤ header) && decide (header + 16 ≤ Config.storeBytes)

/-- A walk that begins at a header offset (R33). -/
def ChainWalk.begin (recipe header : Nat) : ChainWalk :=
  { recipe := recipe, header := header, name := [], inSection := false, off := header, got := [], total := 16, count := 0
    kinds := [], sections := Sections.none, lastOff := header }

/-- The next read of a walk: offset and length. The first grant of a section reads up to 64 bytes (R34). -/
def ChainWalk.nextRead (w : ChainWalk) : Nat × Nat :=
  if !w.inSection then (w.off, 16)
  else if w.got.isEmpty then (w.off, min 64 (Config.storeBytes - w.off))
  else (w.off + w.got.length, min 64 (w.total - w.got.length))

/-- The walk goes on at a section, or fails before reading it: where not even its header would lie in the store, or at a
13th section (R34 checks 1 and 2). -/
def ChainWalk.enter (w : ChainWalk) (off : Nat) (extents : List Extent) : WalkStep :=
  if Config.storeBytes < off + 9 then .bad off .sectionPlace
  else if 12 ≤ w.count then .bad off .tooManySections
  else .more { w with inSection := true, off := off, got := [], total := 0, count := w.count + 1 } extents

/-- The section ends: the walk ends after a next offset of 0, and goes on otherwise (R34). -/
def ChainWalk.leave (w : ChainWalk) (next : Nat) (extents : List Extent) : WalkStep :=
  if next = 0 then
    match w.sections.recipe w.name with
    | some r => .done w r extents
    | none => .bad w.lastOff .missingKind
  else w.enter next extents

/-- The recipe header read (R33). -/
def ChainWalk.takeHeader (w : ChainWalk) (b : List Byte) : WalkStep :=
  let first := numAt b 11 3
  if !crcOk (b.take 14) (numAt b 14 2) then .bad w.off .headerCrc
  else if byteAt b 0 ≠ w.recipe then .bad w.off .headerNumber
  else if !((b.drop 1).take 10).all fun c => within 0x20 0x7E c.toNat then .bad w.off .headerName
  else if first < w.off + 16 then .bad w.off .chainOrder
  else ({ w with name := (b.drop 1).take 10 }).enter first [{ offset := w.off, length := 16 }]

/-- The kind of a section whose first bytes are `b`. -/
def sectionKind (b : List Byte) : Nat := byteAt b 0

/-- The length of a section, header and body. -/
def sectionLength (b : List Byte) : Nat := 9 + numAt b 2 2

/-- The next offset of a section. -/
def sectionNext (b : List Byte) : Nat := numAt b 4 3

/-- The checks that the first grant of a section lets the walk make (R34 checks 1, 4 and 5). -/
def ChainWalk.sectionCheck (w : ChainWalk) (b : List Byte) : Option WalkCheck :=
  let kind := sectionKind b
  let stop := w.off + sectionLength b
  if w.off < 512 ∨ Config.storeBytes < stop then some .sectionPlace
  else if kindKnown kind ∧ byteAt b 1 ≠ 1 then some .version
  else if kindKnown kind ∧ w.kinds.any (fun k => decide (k.toNat = kind)) then some .duplicateKind
  else if kindKnown kind ∧ ¬ bodyLengthOk kind (numAt b 2 2) then some .bodyLength
  else if sectionNext b ≠ 0 ∧ sectionNext b < stop then some .chainOrder
  else none

/-- A section wholly read: its CRC and its fields (R34, R35). The extents of SPRAY's segment areas stand directly behind
SPRAY's own (R38), before those of the sections that follow it in the chain; DEDUCED (log 38). -/
def ChainWalk.finishSection (w : ChainWalk) (extents : List Extent) : WalkStep :=
  let body := w.got.drop 9
  let kind := sectionKind w.got
  if !crcOk body (numAt w.got 7 2) then .bad w.off .bodyCrc
  else
    match w.sections.add kind body with
    | .error c => .bad w.off c
    | .ok v =>
      let areas := if kind = 3 then segmentExtents v else []
      ({ w with sections := v }).leave (sectionNext w.got) (extents ++ areas)

/-- A walk with the bytes of a section so far; the section is finished when they are all there (R34). -/
def ChainWalk.sectionGoesOn (w : ChainWalk) (extents : List Extent) : WalkStep :=
  if w.got.length < w.total then .more w extents else w.finishSection extents

/-- The first grant of a section read (R34). -/
def ChainWalk.takeFirst (w : ChainWalk) (b : List Byte) : WalkStep :=
  let total := sectionLength b
  let w' : ChainWalk :=
    { w with total := total, got := b.take total, kinds := w.kinds ++ b.take 1, lastOff := w.off }
  let extents : List Extent := [{ offset := w.off, length := total }]
  match w.sectionCheck b with
  | some c => .bad w.off c
  | none => if kindKnown (sectionKind b) then w'.sectionGoesOn extents else w'.leave (sectionNext b) extents

/-- The bytes of a grant taken by a walk. -/
def ChainWalk.take (w : ChainWalk) (b : List Byte) : WalkStep :=
  if !w.inSection then w.takeHeader b
  else if w.got.isEmpty then w.takeFirst b
  else ({ w with got := w.got ++ b }).sectionGoesOn []

end Sys2Proof.Machine
end

