-- ==== Sys2Proof/Machine/Store.lean ====
section
/-! DEFINITION. The Recipe Store Controller (02): Recipe Slots and loads, the Store Port and its arbiter, the host store
requests, and start-up (R172). -/

namespace Sys2Proof.Machine

/-! ## Changes of the controller -/

/-- The Recipe Store Controller changed. -/
def State.modRsc (s : State) (f : Rsc → Rsc) : State := { s with rsc := f s.rsc }

/-- A reply placed in the Host reply store (R178). -/
def State.reply (s : State) (kind tag : Byte) (status : ReplyStatus) (data : List Byte) : State :=
  { s with liu := { s.liu with replies := s.liu.replies ++ [{ kind := kind, tag := tag, status := status, data := data }] } }

/-- The Recipe Slots in order. -/
def slotIxs : List SlotIx := List.finRange 8

/-! ## Load requests (R37) -/

/-- A record takes or joins a slot: its use count and last-use time (R37). -/
def SlotHead.take (h : SlotHead) (now : LineTime) : SlotHead := { h with use := h.use + 1, lastUse := now }

/-- The VALID slot that holds a recipe, with its content. -/
def State.residentSlot (s : State) (recipe : Nat) : Option SlotIx :=
  slotIxs.find? fun k =>
    match s.rsc.slots[k] with
    | .valid h _ _ => decide (h.recipe = recipe)
    | .loading _ | .empty => false

/-- The LOADING slot that holds a recipe. -/
def State.loadingSlot (s : State) (recipe : Nat) : Option SlotIx :=
  slotIxs.find? fun k =>
    match s.rsc.slots[k] with
    | .loading h => decide (h.recipe = recipe)
    | .valid _ _ _ | .empty => false

/-- The age of the last use of a VALID slot with use count 0. -/
def State.replaceAge (s : State) (k : SlotIx) : Option Nat :=
  match s.rsc.slots[k] with
  | .valid h _ _ => if h.use = 0 then some (s.since h.lastUse) else none
  | .loading _ | .empty => none

/-- The better of two candidates for replacement: the older, the lower index when equal (R37). -/
def State.older (s : State) (best : Option SlotIx) (k : SlotIx) : Option SlotIx :=
  match s.replaceAge k, best with
  | none, _ => best
  | some _, none => some k
  | some a, some j => if (s.replaceAge j).getD 0 < a then some k else best

/-- A slot is EMPTY. -/
def Slot.isEmpty : Slot → Bool
  | .empty => true
  | .loading _ | .valid _ _ _ => false

/-- The slot chosen for a load (R37 step 3). -/
def State.slotForLoad (s : State) : Option SlotIx :=
  match slotIxs.find? fun k => (s.rsc.slots[k]).isEmpty with
  | some k => some k
  | none => slotIxs.foldl s.older none

/-! ## The recipe loader (R38) -/

/-- The records whose load of a recipe has not ended, in the order of their indices, in which they take its result (DESIGN
CHOICE, log 4). -/
def State.loadingRecords (s : State) (recipe : Nat) : List RecIx :=
  recIxs.filter fun i =>
    match s.loading? i with
    | some r => decide (r.recipe = recipe)
    | none => false

/-- A load that has ended out of the load list. -/
def State.popLoad (s : State) : State := s.modRsc fun v => { v with loadList := v.loadList.tail, walk := none }

/-- A load that fails (R38): its slot EMPTY, failure reported for every record that referenced it. -/
def State.failLoad (s : State) (k : SlotIx) (recipe : Nat) (why : LoadFailure) : State :=
  let s₁ := (s.setSlot k .empty).popLoad
  (s₁.loadingRecords recipe).foldl (fun t i => t.loadFailed i why) s₁

/-- A load that succeeds (R38): its slot VALID, success reported for every record that references it. -/
def State.finishLoad (s : State) (k : SlotIx) (h : SlotHead) (header : Nat) (p : Recipe) : State :=
  let q := qualifiedAt s.rsc.storeState s.rsc.lockBoundary s.rsc.qCount h.recipe header
  let s₁ := (s.setSlot k (.valid h q p)).popLoad
  (s₁.loadingRecords h.recipe).foldl (fun t i => t.loadSucceeded i k q p) s₁

/-- The load at the head of the load list started (R38): the directory entry is its first extent, and its walk begins at
the entry's header offset (R33). -/
def State.beginLoad (s : State) (k : SlotIx) (h : SlotHead) : State :=
  let entry : Extent := { offset := entryAddress h.recipe, length := 4 }
  (s.setSlot k (.loading { h with extents := [entry] })).modRsc fun v =>
    { v with walk := some (ChainWalk.begin h.recipe (entryOffset v.dir h.recipe)) }

/-- Loads started until one has something to read; an entry that is empty or names no good place fails its load at once
(R30, R33, R38). `fuel` bounds them by the number of slots. -/
def State.startLoads (s : State) : Nat → State
  | 0 => s
  | fuel + 1 =>
    if s.rsc.walk.isSome then s
    else
      match s.rsc.loadList with
      | [] => s
      | k :: _ =>
        match s.rsc.slots[k] with
        | .loading h =>
          if entryEmpty s.rsc.dir h.recipe || !headerPlaceOk (entryOffset s.rsc.dir h.recipe) then
            (s.failLoad k h.recipe .recipeBad).startLoads fuel
          else s.beginLoad k h
        | .empty | .valid _ _ _ => s.popLoad.startLoads fuel

/-- A load request taken (R37). -/
def State.requestLoad (s : State) (i : RecIx) (recipe : Nat) : State :=
  match s.residentSlot recipe, s.loadingSlot recipe, s.slotForLoad with
  | some k, _, _ =>
    match s.rsc.slots[k] with
    | .valid h q p => (s.setSlot k (.valid (h.take s.now) q p)).loadSucceeded i k q p
    | .loading _ | .empty => s
  | none, some k, _ =>
    match s.rsc.slots[k] with
    | .loading h => s.setSlot k (.loading (h.take s.now))
    | .valid _ _ _ | .empty => s
  | none, none, some k =>
    ((s.setSlot k (.loading { recipe := recipe, use := 1, lastUse := s.now, extents := [] })).modRsc fun v =>
      { v with loadList := v.loadList ++ [k] }).startLoads 9
  | none, none, none => s.loadFailed i .noSlot

/-- Extents added to the slot of the load in progress (R36, R38). -/
def State.addExtents (s : State) (k : SlotIx) (es : List Extent) : State :=
  match s.rsc.slots[k] with
  | .loading h => s.setSlot k (.loading { h with extents := h.extents ++ es })
  | .valid _ _ _ | .empty => s

/-- The load in progress: its slot, what the slot holds, and its walk. -/
def State.loadNow (s : State) : Option (SlotIx × SlotHead × ChainWalk) :=
  match s.rsc.walk, s.rsc.loadList with
  | some w, k :: _ =>
    match s.rsc.slots[k] with
    | .loading h => some (k, h, w)
    | .valid _ _ _ | .empty => none
  | _, _ => none

/-- The bytes of a loader grant taken (R33 to R35, R38). -/
def State.loaderTakes (s : State) (bytes : List Byte) : State :=
  match s.loadNow with
  | none => s
  | some (k, h, w) =>
    match w.take bytes with
    | .more w' es => (s.addExtents k es).modRsc fun v => { v with walk := some w' }
    | .done w' p es => (s.finishLoad k { h with extents := h.extents ++ es } w'.header p).startLoads 9
    | .bad _ _ => (s.failLoad k h.recipe .recipeBad).startLoads 9

/-- A loader grant that ends with an access error (R38). -/
def State.loaderFails (s : State) : State :=
  match s.loadNow with
  | none => s
  | some (k, h, _) => (s.failLoad k h.recipe .storeFault).startLoads 9

/-! ## The directory copy (R30) -/

/-- Bytes of the directory copy set, from store address `a` on; addresses outside 256..511 are passed over. -/
def putDir (dir : Vector Byte 256) (a : Nat) : List Byte → Vector Byte 256
  | [] => dir
  | b :: bs => putDir (if h : 256 ≤ a ∧ a < 512 then dir.set (a - 256) b (by omega) else dir) (a + 1) bs

/-- A range of the store touches directory bytes. -/
def touchesDir (offset length : Nat) : Bool := decide (offset < 512) && decide (256 < offset + length)

/-- The directory entries that a range touches: their first byte and their length (R30). -/
def touchedEntries (offset length : Nat) : Nat × Nat :=
  let first := max 256 (offset / 4 * 4)
  let stop := min 512 ((offset + length + 3) / 4 * 4)
  (first, stop - first)

/-! ## Host store requests (R41 to R43) -/

/-- The host store request in execution set. -/
def State.setHostReq (s : State) (r : Option HostReq) : State := s.modRsc fun v => { v with hostReq := r }

/-- The host store request ended with its reply (R180). -/
def State.endHostReq (s : State) (kind tag : Byte) (status : ReplyStatus) (data : List Byte) : State :=
  (s.setHostReq none).reply kind tag status data

/-- What a failed RECIPE_CHECK carries (R43): the offset of the item and the check. -/
def eBad (offset : Nat) (c : WalkCheck) : List Byte := e24 offset ++ e8 (checkCode c)

/-- What an OK RECIPE_CHECK carries (R43). -/
def State.eCheck (s : State) (w : ChainWalk) (p : Recipe) : List Byte :=
  eText p.name
    ++ eFlag (qualifiedAt s.rsc.storeState s.rsc.lockBoundary s.rsc.qCount w.recipe w.header)
    ++ eText w.kinds ++ e8 p.zones.length ++ e8 (sectionPoints p.mask).length ++ e8 (sectionPoints p.keepout).length
    ++ e8 (p.coverage.getD []).length ++ e8 p.cure.speedClass ++ e16 p.progA.count ++ e16 p.progB.count

/-- The bytes of a RECIPE_CHECK grant taken (R43). -/
def State.checkTakes (s : State) (tag : Byte) (w : ChainWalk) (bytes : List Byte) : State :=
  match w.take bytes with
  | .more w' _ => s.setHostReq (some (.check tag w'))
  | .done w' p _ => s.endHostReq 0x32 tag .ok (s.eCheck w' p)
  | .bad o c => s.endHostReq 0x32 tag .recipeBad (eBad o c)

/-- The bytes of a STORE_READ grant taken (R41). -/
def State.readTakes (s : State) (tag : Byte) (offset count : Nat) (got : List Byte) : State :=
  if got.length < count then s.setHostReq (some (.read tag offset count got)) else s.endHostReq 0x30 tag .ok got

/-- A host page write that has completed (R30, R42). -/
def State.writeLanded (s : State) (tag : Byte) (offset : Nat) (data : List Byte) : State :=
  (s.modRsc fun v => { v with dir := putDir v.dir offset data }).endHostReq 0x31 tag .ok []

/-- A host page write that has ended with an access error (R30, R42): the touched entries are read back first. -/
def State.writeLost (s : State) (tag : Byte) (offset : Nat) (data : List Byte) : State :=
  if touchesDir offset data.length then s.setHostReq (some (.write tag offset data true))
  else s.endHostReq 0x31 tag .storeFault []

/-- The directory read-back ended: the touched entries set from what it read, or taken as empty (R30). -/
def State.readBackEnd (s : State) (tag : Byte) (offset : Nat) (bytes : List Byte) : State :=
  (s.modRsc fun v => { v with dir := putDir v.dir offset bytes }).endHostReq 0x31 tag .storeFault []

/-- The bytes of a host grant taken. -/
def State.hostTakes (s : State) (bytes : List Byte) : State :=
  match s.rsc.hostReq with
  | some (.read tag o n got) => s.readTakes tag o n (got ++ bytes)
  | some (.check tag w) => s.checkTakes tag w bytes
  | some (.write _ _ _ _) | none => s

/-- A host grant that ends with an access error. -/
def State.hostFails (s : State) : State :=
  match s.rsc.hostReq with
  | some (.read tag _ _ _) => s.endHostReq 0x30 tag .storeFault []
  | some (.check tag _) => s.endHostReq 0x32 tag .storeFault []
  | some (.write tag o data _) => s.writeLost tag o data
  | none => s

/-! ## Start-up (R27, R28, R172) -/

/-- The start-up reads set. -/
def State.setStartUp (s : State) (u : Option StartUp) : State := s.modRsc fun v => { v with startUp := u }

/-- Start-up ends (R172 steps 5 to 7): the live configuration, LINE_MODE, the emergency-stop input, the sensors. -/
def State.endStartUp (s : State) (config : LiveConfig) : State :=
  let s₁ := s.modRsc fun v => { v with startUp := none, live := config }
  let s₂ := s₁.queueReport (.lineMode s₁.lmf.mode .idle s₁.now .startUp)
  let s₃ := if s₂.lmf.estop then s₂.emergency else s₂
  if s₃.present .load then s₃.beginArrival else s₃

/-- The header block read (R27): the store state, the boundary and Q; in BLANK start-up ends, otherwise the directory is
read next. -/
def State.takeHeader (s : State) (u : StartUp) : State :=
  let st := if u.failed then .blank else storeStateOf u.bytes
  let s₁ := s.modRsc fun v =>
    { v with storeState := st, lockBoundary := numAt u.bytes 3 2, qCount := byteAt u.bytes 5 }
  if st = .blank then s₁.endStartUp LiveConfig.default
  else s₁.setStartUp (some { directory := true, grant := 0, bytes := [], failed := false, config := configOf u.bytes })

/-- The directory read (R27). -/
def State.takeDirectory (s : State) (u : StartUp) : State :=
  (s.modRsc fun v => { v with dir := putDir v.dir 256 u.bytes }).endStartUp u.config

/-- A start-up grant ended: its 64 bytes, or zeros with the failure noted (R27). -/
def State.startUpTakes (s : State) (bytes : Option (List Byte)) : State :=
  match s.rsc.startUp with
  | none => s
  | some u =>
    let u' : StartUp :=
      { u with grant := u.grant + 1, bytes := u.bytes ++ bytes.getD (List.replicate 64 0)
               failed := u.failed || bytes.isNone }
    if u'.grant < 4 then s.setStartUp (some u') else if u'.directory then s.takeDirectory u' else s.takeHeader u'

/-! ## The arbiter (R40) -/

/-- A cell's fetch waits. -/
def State.fetchWaits (s : State) (c : CellId) : Bool := decide ((s.cell c).fetch = .waiting)

/-- The fetcher to be granted: the waiting one, and of two the cell without the last fetch grant. -/
def State.fetchTurn (s : State) : Option CellId :=
  let other := otherCell s.rsc.lastFetch
  if s.fetchWaits other then some other else if s.fetchWaits s.rsc.lastFetch then some s.rsc.lastFetch else none

/-- The requestor of the host store request in execution. -/
def hostRequestor : HostReq → Requestor
  | .write _ _ _ true => .readBack
  | .write _ _ _ false | .read _ _ _ _ | .check _ _ => .host

/-- The requestor that the arbiter grants, in the order of precedence of R40; start-up has the port to itself (R172). -/
def State.nextRequestor (s : State) : Option Requestor :=
  if s.rsc.startUp.isSome then some .startUp
  else
    match s.fetchTurn, s.rsc.hostReq with
    | some c, _ => some (.fetch c)
    | none, some (.write _ _ _ true) => some .readBack
    | none, r => if s.loadNow.isSome then some .loader else r.map hostRequestor

/-- An access begun. -/
def State.openPort (s : State) (who : Requestor) (op : AccessOp) : State :=
  s.modRsc fun v => { v with port := some { who := who, op := op, since := s.now } }

/-- A fetch granted (R40): dropped without an access when its record is gone (R74, R91). -/
def State.grantFetch (s : State) (c : CellId) : State :=
  match (s.cell c).program with
  | none => s.modCell c fun v => { v with fetch := .none }
  | some p =>
    if (s.live? p.ix).isSome then
      ((s.modCell c fun v => { v with fetch := .inProgress }).modRsc fun v => { v with lastFetch := c }).openPort (.fetch c)
        (.read (p.offset + 12 * (s.cell c).fetchIndex) 12)
    else (s.modCell c fun v => { v with fetch := .none }).dropProgram c p.ix .removed .removed

/-- Two ranges of the store share a byte. -/
def overlaps (o n : Nat) (e : Extent) : Bool :=
  decide (0 < n) && decide (0 < e.length) && decide (o < e.offset + e.length) && decide (e.offset < o + n)

/-- A slot forbids a write of a range (R42). -/
def Slot.forbids (o n : Nat) : Slot → Bool
  | .loading h => h.extents.any (overlaps o n)
  | .valid h _ _ => decide (0 < h.use) && h.extents.any (overlaps o n)
  | .empty => false

/-- A slot after a write of a range is granted: a VALID one with use count 0 that it overlaps becomes EMPTY (R42). -/
def Slot.afterWrite (o n : Nat) : Slot → Slot
  | .loading h => .loading h
  | .valid h q r => if h.use = 0 ∧ h.extents.any (overlaps o n) then .empty else .valid h q r
  | .empty => .empty

/-- A host page write granted (R42): the slot check, then the write. -/
def State.grantWrite (s : State) (tag : Byte) (o : Nat) (data : List Byte) : State :=
  if s.rsc.slots.any (Slot.forbids o data.length) then s.endHostReq 0x31 tag .inUse []
  else
    (s.modRsc fun v => { v with slots := v.slots.map (Slot.afterWrite o data.length) }).openPort .host (.write o data)

/-- The next access of a host store request granted. -/
def State.grantHost (s : State) : State :=
  match s.rsc.hostReq with
  | some (.read _ o n got) => s.openPort .host (.read (o + got.length) (min 64 (n - got.length)))
  | some (.write tag o data false) => s.grantWrite tag o data
  | some (.write _ o data true) =>
    let (a, n) := touchedEntries o data.length
    s.openPort .readBack (.read a n)
  | some (.check _ w) => s.openPort .host (.read w.nextRead.1 w.nextRead.2)
  | none => s

/-- A grant of the loader. -/
def State.grantLoader (s : State) : State :=
  match s.loadNow with
  | some (_, _, w) => s.openPort .loader (.read w.nextRead.1 w.nextRead.2)
  | none => s

/-- A grant of start-up (R27): the next 64 bytes of the header block or of the directory. -/
def State.grantStartUp (s : State) : State :=
  match s.rsc.startUp with
  | some u => s.openPort .startUp (.read ((if u.directory then 256 else 0) + 64 * u.grant) 64)
  | none => s

/-- STORE_GRANT (R40): with the port free and a requestor waiting. -/
def State.grant (s : State) : State :=
  if s.rsc.port.isSome then s
  else
    match s.nextRequestor with
    | some .startUp => s.grantStartUp
    | some (.fetch c) => s.grantFetch c
    | some .readBack | some .host => s.grantHost
    | some .loader => s.grantLoader
    | none => s

/-! ## The end of an access (R26) -/

/-- The port is free again. -/
def State.closePort (s : State) : State := s.modRsc fun v => { v with port := none }

/-- The range of an access. -/
def AccessOp.range : AccessOp → Nat × Nat
  | .read o n => (o, n)
  | .write o data => (o, data.length)

/-- An access lies in the store. -/
def AccessOp.inStore (op : AccessOp) : Bool := decide (op.range.1 + op.range.2 ≤ Config.storeBytes)

/-- The bytes of a read handed to its requestor. -/
def State.handRead (s : State) (who : Requestor) (bytes : List Byte) : State :=
  match who with
  | .startUp => s.startUpTakes (some bytes)
  | .fetch c => s.landFetch c bytes
  | .readBack =>
    match s.rsc.hostReq with
    | some (.write tag o data _) => s.readBackEnd tag (touchedEntries o data.length).1 bytes
    | some (.read _ _ _ _) | some (.check _ _) | none => s
  | .loader => s.loaderTakes bytes
  | .host => s.hostTakes bytes

/-- An access error told to its requestor. -/
def State.handError (s : State) (who : Requestor) : State :=
  match who with
  | .startUp => s.startUpTakes none
  | .fetch c => s.failFetch c
  | .readBack =>
    match s.rsc.hostReq with
    | some (.write tag o data _) =>
      let (a, n) := touchedEntries o data.length
      s.readBackEnd tag a (List.replicate n 0)
    | some (.read _ _ _ _) | some (.check _ _) | none => s
  | .loader => s.loaderFails
  | .host => s.hostFails

/-- A page write handed to the host request that made it. -/
def State.handWrite (s : State) : State :=
  match s.rsc.hostReq with
  | some (.write tag o data _) => s.writeLanded tag o data
  | some (.read _ _ _ _) | some (.check _ _) | none => s

/-- The store's bytes written. -/
def State.putStore (s : State) (o : Nat) (data : List Byte) : State := { s with store := storeWrite s.store o data }

/-- An access that completes (R26). -/
def State.accessEnd (s : State) (a : Access) : State :=
  match a.op with
  | .read o n => s.closePort.handRead a.who (storeRead s.store o n)
  | .write o data => (s.closePort.putStore o data).handWrite

/-- `n` bytes of unknown content (R26), the model's free values from number `k` on (log 8). -/
def unknownBytes (k n : Nat) : List Byte := (List.range n).map fun j => Config.freeByte (k + j)

/-- The written bytes of a page write that an access error ended are of unknown content (R26, log 8). -/
def State.spoil (s : State) (op : AccessOp) : State :=
  match op with
  | .read _ _ => s
  | .write o data =>
    { s.putStore o (unknownBytes s.freeCount data.length) with freeCount := s.freeCount + data.length }

/-- What STORE_FAULT carries (04, "Faults raised at the spray cells"): the record of the program in progress whose fetch
the access was. -/
def State.storeFaultDetail (s : State) : Requestor → FaultDetail
  | .fetch c =>
    match (s.cell c).fetch, (s.cell c).program with
    | .inProgress, some p => { ix := some p.ix }
    | _, _ => {}
  | .startUp | .readBack | .loader | .host => {}

/-- An access that ends with an access error (R26): STORE_FAULT raised, the requestor told. The 5 ms count from the start of
the access for a page write too, whose poll and data transfer take no time; DESIGN CHOICE (log 3). -/
def State.accessError (s : State) (a : Access) : State :=
  (((s.reach a.since Config.accessMs).closePort.spoil a.op).noteFault .storeFault .rsc (s.storeFaultDetail a.who)).handError
    a.who

/-! ## Protection (R31) -/

/-- A byte written from store address `a` on differs from the byte that the directory copy holds for it, of whichever entry
(R31 says "at least one of the written bytes"); DEDUCED (log 47). -/
def differs (dir : Vector Byte 256) (a : Nat) : List Byte → Bool
  | [] => false
  | b :: bs =>
    (decide (256 ≤ a) && decide (a < 512) && decide ((dir.toList[a - 256]?).getD 0 ≠ b)) || differs dir (a + 1) bs

/-- A range of the store touches the directory entry of a recipe 1..q. -/
def touchesQualified (q o n : Nat) : Bool :=
  decide (0 < q) && decide (o < 256 + 4 * q) && decide (256 < o + n)

/-- A host write is refused whole with LOCKED (R31). -/
def State.lockedWrite (s : State) (o : Nat) (data : List Byte) : Bool :=
  decide (s.rsc.storeState = .guarded)
    && (decide (o < 256) || (touchesQualified s.rsc.qCount o data.length && differs s.rsc.dir o data)
      || (decide (512 < o + data.length) && decide (o < s.rsc.lockBoundary * 64)))

/-! ## LINE_CLEAR at the controller (R45) -/

/-- A slot's use count 0. -/
def Slot.clearUse : Slot → Slot
  | .empty => .empty
  | .loading h => .loading { h with use := 0 }
  | .valid h q r => .valid { h with use := 0 } q r

/-- A waiting load dropped: its LOADING slot EMPTY. -/
def Slot.dropLoad : Slot → Slot
  | .loading _ => .empty
  | .valid h q r => .valid { h with use := 0 } q r
  | .empty => .empty

/-- The Recipe Store Controller's LINE_CLEAR (R45): use counts 0, waiting loads dropped, the load in progress kept. -/
def Rsc.lineClear (v : Rsc) : Rsc :=
  let waiting := if v.walk.isSome then v.loadList.tail else v.loadList
  { v with
    slots := Vector.ofFn fun k => if waiting.contains k then v.slots[k].dropLoad else v.slots[k].clearUse
    loadList := if v.walk.isSome then v.loadList.take 1 else [] }

end Sys2Proof.Machine
end

