-- ==== Sys2Proof/Machine/TunnelEvents.lean ====
section
/-! DEFINITION. What the Cure Tunnel Controller does at its events (06, 07): entries, encoder pulses, samples, the lamp and
the exit, and its LINE_CLEAR (R106, R127). -/

namespace Sys2Proof.Machine

/-! ## Entry (R111, R112) -/

/-- An entry transfer from the wet queue is in flight. -/
def State.entryInFlight (s : State) : Bool := s.ltk.moves.any fun m => onLane m.dst

/-- The last-entry position lets another carrier enter (R111). -/
def Lane.spaced (v : Lane) : Bool :=
  match v.lastEntry with
  | some mm => decide (Config.spacingMm ≤ mm)
  | none => true

/-- The wet-queue head and its lane, when its entry transfer can begin (R111). -/
def State.entryReady (s : State) : Option (RecIx × LaneId) :=
  match s.ctc.wetQueue with
  | [] => none
  | i :: _ =>
    match s.live? i with
    | none => none
    | some r =>
      match r.lane with
      | none => none
      | some l =>
        if (s.lane l).state = .running ∧ s.ctc.lamp.state = .ready ∧ (s.lane l).spaced ∧ ¬ s.entryInFlight
          ∧ s.lmf.mode.allows (lanePlace l) ∧ r.tagCheck ≠ .failed
        then some (i, l) else none

/-- ENTRY_TRANSFER_START (R111). -/
def State.entryStart (s : State) : State :=
  match s.entryReady with
  | some (i, l) => (s.leaveWetQueue i).beginMove i .wetq (lanePlace l)
  | none => s

/-- The time since spray end, when that is present. -/
def State.sinceSpray (s : State) (r : CarrierRecord) : Option Nat := r.sprayEnd.map s.since

/-- The open time has been exceeded (R112 step 3). -/
def State.openTimeOver (s : State) (i : RecIx) (r : CarrierRecord) : Bool :=
  match s.sinceSpray r, s.recipeOf i with
  | some ms, some p => decide (p.material.openTime * 1000 < ms)
  | _, _ => false

/-- A record appended to a lane's order with its position at 0 (R112 steps 1 and 2). -/
def State.joinLane (s : State) (l : LaneId) (i : RecIx) : State :=
  let s₁ := (s.dropMove i).modRec i fun r =>
    { r with position := .standing (lanePlace l), posInLane := some 0, plan := r.plan.tail }
  s₁.setLane l { s₁.lane l with order := (s₁.lane l).order ++ [i], lastEntry := some 0 }

/-- The end of a record's entry transfer (R112). -/
def State.enterLane (s : State) (l : LaneId) (i : RecIx) : State :=
  match s.live? i with
  | none => s
  | some r =>
    let late := s.openTimeOver i r
    let s₁ := (s.joinLane l i).raiseIf late i .openTime
    let s₂ := s₁.modRec i fun r => { r with entryTime := some s.now }
    s₂.queueReport (.tunnelEntry
      { ix := i, pass := r.pass, lane := l, entryTime := s.now, sinceSpray := s.sinceSpray r, openTimeRaised := late })

/-- LANE_ENTRY_END (R112): the entry sensor of a lane reads present. -/
def State.laneEntryEnd (s : State) (l : LaneId) : State :=
  match s.ltk.moves.find? fun m => decide (m.dst = lanePlace l) with
  | some m => s.enterLane l m.ix
  | none => s

/-! ## Belts (R114) -/

/-- A record 1 mm further. -/
def advance (r : CarrierRecord) : CarrierRecord := { r with posInLane := r.posInLane.map (· + 1) }

/-- Every record of a lane's order and the last-entry position 1 mm further (R114). -/
def State.advanceLane (s : State) (l : LaneId) : State :=
  let s₁ := (s.lane l).order.foldl (fun t i => t.modRec i advance) s
  s₁.setLane l { s₁.lane l with lastEntry := (s₁.lane l).lastEntry.map fun mm => min (mm + 1) Config.exitMm }

/-- The front of a lane stands at exactly 4,800 mm. -/
def State.frontArrives (s : State) (l : LaneId) : Bool :=
  match (s.lane l).order with
  | i :: _ => decide (s.mmOf i = Config.exitMm)
  | [] => false

/-- EXIT_ARRIVAL (R114): the exit-arrival time; the exit transfer at the same event when the arbiter grants it, the lane
state re-derived otherwise. -/
def State.exitArrival (s : State) (l : LaneId) : State :=
  let s₁ := s.setLane l { s.lane l with arrival := some s.now }
  if s₁.arbiterChoice = some l then s₁.exitStart l else s₁.deriveLane l .exitWait

/-- ENCODER_PULSE (R114). -/
def State.encoderPulse (s : State) (l : LaneId) : State :=
  let s₁ := s.advanceLane l
  if s₁.frontArrives l then s₁.exitArrival l else s₁

/-! ## UV samples (R117 to R119, R130) -/

/-- The measured irradiance (R119); a raw count that is not delivered in time is taken as 0. -/
def irradianceOf (raw : Option (BitVec 12)) (gain : Nat) : Nat :=
  match raw with
  | some v => min (v.toNat * gain / 1000) 2000
  | none => 0

/-- The irradiance used for dose (R118). -/
def State.doseIrradiance (s : State) : Nat := if s.ctc.shutterOpen then s.ctc.measured else 0

/-- The records on the two belts, LANE1's first. -/
def State.beltRecords (s : State) : List RecIx := s.ctc.lane1.order ++ s.ctc.lane2.order

/-- The UV dose of every record in the UV zone (R130). -/
def State.uvDoses (s : State) : State :=
  s.beltRecords.foldl (fun t i => t.modLive i (uvDoseStep s.doseIrradiance)) s

/-- UV_SAMPLE (R119): taken at its multiple of 100 ms. -/
def State.uvSample (s : State) (raw : Option (BitVec 12)) : State :=
  let t := s.sampleTime 100 s.ctc.uvAt
  let s₁ := s.atTime t
  let s₂ := { s₁ with ctc := { s₁.ctc with uvAt := t, measured := irradianceOf raw s.rsc.live.gain } }
  s₂.lampSample.uvDoses

/-! ## Thermal samples (R120 to R122, R131) -/

/-- The faults of a zone's new condition and temperature (R120 to R122), raised in the order SENSOR_DEGRADED,
ZONE_SENSOR_LOST, ZONE_OVERTEMP, for which no rule gives an order: DESIGN CHOICE (log 41). -/
def State.zoneFaults (s : State) (z : ZoneIx) (old new : ZoneSense) (channel : Option (Fin 8)) : State :=
  let s₁ :=
    if new.cond = .degraded ∧ old.cond ≠ .degraded then
      s.raiseFault .sensorDegraded .ctc { zone := some z, channel := channel }
    else s
  let s₂ := if new.cond = .lost ∧ old.cond ≠ .lost then s₁.raiseFault .zoneSensorLost .ctc { zone := some z } else s₁
  if tooHot new.temp && !tooHot old.temp then s₂.raiseFault .zoneOvertemp .ctc { zone := some z } else s₂

/-- A zone sampled (R120, R121). -/
def State.sampleZone (s : State) (adc : Vector (Option Int) 8) (z : ZoneIx) : State :=
  let old := s.ctc.zones[z]
  let readings := s.zoneReadings adc z
  let new := zoneAfter s.now old readings
  (s.setZone z new).zoneFaults z old new (invalidChannel z readings)

/-- The rate table of a record's recipe. -/
def State.ratesOf (s : State) (i : RecIx) : List Nat :=
  match s.recipeOf i with
  | some p => p.cure.rates
  | none => []

/-- The thermal doses of the records on the belts (R131). -/
def State.thermalDoses (s : State) : State :=
  s.beltRecords.foldl (fun t i => t.modLive i (thermalDoseStep (s.ratesOf i) s.ctc.zones)) s

/-- THERMAL_SAMPLE (R120, R131): taken at its multiple of 1,000 ms, the zones first, then the doses. The exit outcomes are
functions of the records (R123), so they are re-evaluated with them. The zones are taken from Z1 to Z4, each with its
faults; no rule gives this order, which fixes the first-FATAL and the last-FATAL entry (R170): DESIGN CHOICE (log 41). -/
def State.thermalSample (s : State) (adc : Vector (Option Int) 8) : State :=
  let t := s.sampleTime 1000 s.ctc.thermalAt
  let s₁ := s.atTime t
  let s₂ := { s₁ with ctc := { s₁.ctc with thermalAt := t } }
  (zoneIxs.foldl (fun u z => u.sampleZone adc z) s₂).thermalDoses

/-! ## The lamp (R115, R116) -/

/-- WARM_UP_END (R115): the warm-up timer expires. -/
def State.warmUpEnd (s : State) : State :=
  match s.ctc.lamp.state, s.ctc.lamp.warmUp with
  | .warming, some t =>
    let s₁ := s.expire t
    let s₂ := s₁.setLamp { s₁.ctc.lamp with warmUp := none }
    s₂.lampTo (if s₂.ctc.measured < s₂.rsc.live.lampMin then .low else .ready) .warmUpEnd
  | _, _ => s

/-- The level of the ballast fault input taken. -/
def State.setBallast (s : State) (active : Bool) : State := s.setLamp { s.ctc.lamp with ballastFault := active }

/-- BALLAST_FAULT (R116): the input becomes active. -/
def State.ballastActive (s : State) : State := (s.setBallast true).takeBallastFault

/-! ## The exit (R124 to R126) -/

/-- EXIT_TRANSFER_START (R124, R125): the arbiter grants a front. -/
def State.exitGrant (s : State) : State :=
  match s.arbiterChoice with
  | some l => s.exitStart l
  | none => s

/-- EXIT_TRANSFER_END (R126): the target's sensor reads present; the resource is free. -/
def State.exitEnd (s : State) : State :=
  match s.ctc.exitHolder with
  | none => s
  | some i =>
    match s.moveOf i with
    | some m => ((s.landMove i m.dst).freeExit i).settleAt i m.dst
    | none => s

/-! ## LINE_CLEAR (R106, R127) -/

/-- A lane emptied; LANE_STATE when its class becomes NONE (R169). -/
def State.clearLane (s : State) (l : LaneId) : State :=
  let was := s.lane l
  let s₁ := s.setLane l Lane.reset
  if was.cls.isSome || decide (was.state ≠ .stopped) then s₁.laneReport l .lineClear else s₁

/-- The tunnel's LINE_CLEAR: waiting binding, wet queue and arbiter emptied, then the Lane Binding Table, LANE1 first
(DESIGN CHOICE, log 4). -/
def State.clearTunnel (s : State) : State :=
  let s₁ := { s with ctc := { s.ctc with waiting := none, wetQueue := [], exitHolder := none } }
  (s₁.clearLane .lane1).clearLane .lane2

end Sys2Proof.Machine
end

