-- ==== Sys2Proof/Machine/Requests.lean ====
section
/-! DEFINITION. What each request does once it is dispatched (R179): the checks of its owner, its effect, its status and
data. -/

namespace Sys2Proof.Machine

/-- The state after a request's taking, with its status and data, or none when it is answered later (R180). -/
abbrev Answer := State × Option (ReplyStatus × List Byte)

/-- OK with data. -/
def State.ok (s : State) (data : List Byte) : Answer := (s, some (.ok, data))

/-- A refusal with a status alone. -/
def State.refuse (s : State) (st : ReplyStatus) : Answer := (s, some (st, []))

/-- A refusal unless a condition holds. -/
def State.unless (s : State) (c : Bool) (st : ReplyStatus) (a : Answer) : Answer := if c then a else s.refuse st

/-! ## Line modes and faults (09) -/

/-- IDENTIFY (R189): vendor code, part code, revision, store state. -/
def State.doIdentify (s : State) : Answer :=
  s.ok (bytes16 Config.vendorCode ++ bytes16 Config.partCode ++ [Config.revision] ++ e8 (storeStateCode s.rsc.storeState))

/-- Whether a fatal condition persists, and for which zones (R167). -/
def State.eFatal (s : State) : List Byte :=
  eFlag (!s.fatalZones.isEmpty) ++ eList (fun z => e8 (zoneCode z)) s.fatalZones

/-- The live configuration (R28), the eight thermocouple offsets without a count; DEDUCED (log 12). -/
def eLive (v : LiveConfig) : List Byte :=
  e8 v.nearFull ++ e16 v.lampMin ++ e16 v.fmaxA ++ e16 v.fmaxB ++ v.tcOffsets.toList.flatMap eInt16 ++ e16 v.gain

/-- A cell in LINE_STATUS. -/
def eCell (v : SprayCell) : List Byte := e8 (cellStateCode v.state) ++ eOpt eIx (v.program.map Program.ix)

/-- A head in LINE_STATUS. -/
def eHead (v : Head) : List Byte := e8 (headStateCode v.state) ++ eOpt eIx (v.walk.map WalkTable.ix)

/-- A lane in LINE_STATUS. -/
def eLane (v : Lane) : List Byte :=
  e8 (v.cls.getD 0) ++ e8 v.order.length ++ e8 v.bound ++ e8 (laneStateCode v.state)

/-- A tunnel zone in LINE_STATUS. -/
def eZoneSense (v : ZoneSense) : List Byte := e8 (zoneCondCode v.cond) ++ eOpt eInt16 v.temp

/-- LINE_STATUS's data (R174), in the order of its list. The four zones and the four bench positions, whose number never
changes, are sent without a count; DEDUCED (log 12). -/
def State.eStatusReply (s : State) : List Byte :=
  eTime s.now ++ e8 (modeCode s.lmf.mode) ++ eFlag s.lmf.estop ++ eFlag s.lmf.record.correctable
    ++ eFlag s.lmf.record.nonfatal ++ eFlag s.lmf.record.fatal ++ s.eFatal ++ e8 (storeStateCode s.rsc.storeState)
    ++ eLive s.rsc.live ++ eCell s.scc.a ++ eCell s.scc.b ++ eHead s.ine.mask ++ eHead s.ine.inspect
    ++ e8 (lampStateCode s.ctc.lamp.state) ++ e16 s.ctc.measured ++ s.ctc.zones.toList.flatMap eZoneSense
    ++ eLane s.ctc.lane1 ++ eLane s.ctc.lane2 ++ eList eIx s.ctc.wetQueue ++ s.hmg.bench.toList.flatMap (eOpt eIx)
    ++ eList eIx s.hmg.queue ++ e8 (if s.liu.online then 0 else 1) ++ e8 s.liu.reports.length ++ e8 s.liu.lost

/-- LINE_STATUS (R174). -/
def State.doLineStatus (s : State) : Answer := s.ok s.eStatusReply

/-- LINE_MODE_SET (R164), by the present mode and the mode asked for. -/
def State.doModeSet (s : State) (m : LineMode) : Answer :=
  match s.lmf.mode, m with
  | .idle, .run => s.unless (decide (s.rsc.storeState ≠ .blank)) .storeBlank ((s.setMode .run .lineModeSet).ok [])
  | .idle, .pause => s.refuse .wrongMode
  | .run, .idle => s.refuse .wrongMode
  | .pause, .idle => s.unless s.noneLive .inUse ((s.setMode .idle .lineModeSet).ok [])
  | .stop, .run | .stop, .pause | .stop, .idle => s.refuse .wrongMode
  | .idle, .stop | .idle, .idle | .run, .run | .run, .pause | .run, .stop | .pause, .run | .pause, .pause
  | .pause, .stop | .stop, .stop => (s.setMode m .lineModeSet).ok []

/-- RESUME (R167). -/
def State.doResume (s : State) : Answer :=
  if s.lmf.mode ≠ .stop then s.refuse .wrongMode
  else if s.lmf.estop || s.lmf.record.fatal || !s.fatalZones.isEmpty then
    (s, some (.notClear, eFlag s.lmf.estop ++ eFlag s.lmf.record.fatal ++ s.eFatal))
  else (s.setMode .pause .resume).ok []

/-- The near-full offset and the lamp minimum of the live configuration set (R168). -/
def State.setLine (s : State) (nearFull lampMin : Nat) : State :=
  s.modRsc fun v => { v with live := { v.live with nearFull := nearFull, lampMin := lampMin } }

/-- LINE_CONFIG (R168). -/
def State.doLineConfig (s : State) (nearFull lampMin : Nat) : Answer :=
  s.unless (decide (s.lmf.mode = .idle)) .wrongMode ((s.setLine nearFull lampMin).ok [])

/-- FAULT_READ (R171). -/
def State.doFaultRead (s : State) : Answer := s.ok (eFaultRecord s.lmf.record)

/-- FAULT_ACK (R171). -/
def State.doFaultAck (s : State) (classes : Byte) : Answer := (s.setRecord (s.lmf.record.acknowledge classes)).ok []

/-! ## LINE_CLEAR (R169) -/

/-- The Line Tracker's part: every record FREE, moves, tag checks in progress (DESIGN CHOICE, log 43) and the LOAD entry
gone, the results of the mark writes dropped. The read of an arrival goes on (R8). -/
def Ltk.lineClear (v : Ltk) : Ltk :=
  { v with
    table := Vector.replicate 24 none, moves := [], loadEntry := none
    reads := v.reads.filter fun j => decide (j.place = .load ∧ j.why = .arrival)
    writes := v.writes.map fun w => { w with why := w.why.dropped } }

/-- A head's part (R46): its state is kept. -/
def Head.lineClear (v : Head) : Head := { v.emptied with given := none }

/-- A cell's part (R89). -/
def SprayCell.lineClear (v : SprayCell) : SprayCell := { v with runMark := none }

/-- Every block's LINE_CLEAR (R169). -/
def State.clearBlocks (s : State) : State :=
  let s₁ : State :=
    { s with
      ltk := s.ltk.lineClear, rsc := s.rsc.lineClear
      ine := { mask := s.ine.mask.lineClear, inspect := s.ine.inspect.lineClear }
      scc := { a := s.scc.a.lineClear, b := s.scc.b.lineClear } }
  { s₁.clearTunnel with hmg := Hmg.reset }

/-- LINE_CLEAR (R169): a carrier at LOAD is then taken as an arrival, read afresh with one LOAD_ARRIVAL in all (R1). -/
def State.doLineClear (s : State) : Answer :=
  if s.lmf.mode ≠ .stop then s.refuse .wrongMode
  else
    let s₁ := s.clearBlocks
    (if s₁.present .load then (s₁.dropRead .load).beginArrival else s₁).ok []

/-! ## Carriers (01) -/

/-- A record as ADMIT fills it (R6). Until its slot is known the qualified flag is clear and the mask verdict NONE; DESIGN
CHOICE (log 46). -/
def newRecord (id : TagId) (serial : List Byte) (recipe : Nat) : CarrierRecord :=
  { status := .loading, removalPending := false, position := .standing .load, tagCheck := .passed, plan := [], tagId := id
    serial := serial, recipe := recipe, slot := none, qualified := false, pass := 1, maskVerdict := .none, maskPoints := []
    zones := [], sprayEnd := none, flowClamps := 0, starves := 0, keepoutPoints := [], coveragePoints := [], lane := none
    posInLane := none, thermalDose := 0, uvDose := 0, peak := none, entryTime := none, exitTime := none
    cureUnknown := false, cureVerdict := .none, hold := none, history := [] }

/-- The LOAD entry that ADMIT can take: this tag ID, match NEW or MARKED, not taken (R12). -/
def State.admissible (s : State) (id : TagId) : Option LoadEntry :=
  match s.ltk.loadEntry with
  | some e =>
    match e.tag with
    | some t => if t.id = id ∧ (e.result = .new ∨ e.result = .marked) ∧ e.takenBy = none then some e else none
    | none => none
  | none => none

/-- The lowest-index FREE record. -/
def State.lowestFree (s : State) : Option RecIx := recIxs.find? fun i => (s.rec? i).isNone

/-- ADMIT accepted (R6, R12): the record LOADING, the LOAD entry taken, the load requested. -/
def State.admitTo (s : State) (i : RecIx) (e : LoadEntry) (r : CarrierRecord) : State :=
  ((s.setRec i (some r)).setEntry (some { e with takenBy := some i })).requestLoad i r.recipe

/-- ADMIT (R12). -/
def State.doAdmit (s : State) (id : TagId) (recipe : Nat) (serial : List Byte) : Answer :=
  if s.lmf.mode ≠ .run then s.refuse .wrongMode
  else
    match s.admissible id with
    | none => s.refuse .notFound
    | some e =>
      if e.result = .marked then s.refuse .marked
      else
        match s.lowestFree with
        | none => s.refuse .lineFull
        | some i =>
          if s.rsc.storeState = .blank then s.refuse .storeBlank
          else if entryEmpty s.rsc.dir recipe then s.refuse .noRecipe
          else (s.admitTo i e (newRecord id serial recipe)).ok (eIx i)

/-- REMOVE (R16). -/
def State.doRemove (s : State) (i : RecIx) : Answer :=
  match s.live? i with
  | none => s.refuse .notFound
  | some r =>
    match r.status with
    | .loading => (s.modRec i fun r => { r with removalPending := true }).ok []
    | .waitLane | .active | .done _ => (s.retire i .removed).ok []

/-- MARK_CLEAR (R15). -/
def State.doMarkClear (s : State) (id : TagId) : Answer :=
  if s.lmf.mode = .stop then s.refuse .wrongMode
  else s.unless (s.entryMarked id).isSome .notFound ((s.askWrite .load 0 (.markClear id)).ok [])

/-- CARRIER_READ (R25). -/
def State.doCarrierRead (s : State) (i : RecIx) : Answer := s.ok (eCarrier (s.rec? i))

/-- A DONE record. -/
def CarrierRecord.isDone (r : CarrierRecord) : Bool :=
  match r.status with
  | .done _ => true
  | .loading | .waitLane | .active => false

/-- TRACE_TAKE (R25): the trace, the record FREE, the re-match of R11. The record is sent in the order of R5's table, as by
CARRIER_READ, not in that of R25's list; DEDUCED (log 12). -/
def State.doTraceTake (s : State) (i : RecIx) : Answer :=
  match s.rec? i with
  | some r =>
    s.unless r.isDone .notDone (((s.setRec i none).rematch .duplicate r.tagId).ok (eRecord r))
  | none => s.refuse .notDone

/-! ## Holds (08) -/

/-- HOLD_PLACE (R144). -/
def State.doHoldPlace (s : State) (i : RecIx) (sev : Severity) : Answer :=
  match s.live? i with
  | some r =>
    match r.status with
    | .waitLane | .active => (s.raiseReason i .ordered sev).ok []
    | .loading | .done _ => s.refuse .notFound
  | none => s.refuse .notFound

/-- A position that the Bench Link may name: a bench position or OFFLINE (R150). -/
def Position.benchSide : Position → Bool
  | .standing (.bench _) | .standing .offline => true
  | .standing .load | .standing .mask | .standing .sprayA | .standing .sprayB | .standing .inspect | .standing .wetq
  | .standing .lane1 | .standing .lane2 | .standing .unload | .inTransit _ _ => false

/-- A link may name a record's hold. -/
def visibleTo (l : Link) (r : CarrierRecord) : Bool :=
  match l with
  | .host => true
  | .bench => r.position.benchSide

/-- The record and hold part that a request of a link may read (R154). -/
def State.holdSeen (s : State) (l : Link) (i : RecIx) : Option (CarrierRecord × Hold) :=
  match s.rec? i with
  | some r =>
    match r.hold with
    | some h => if visibleTo l r then some (r, h) else none
    | none => none
  | none => none

/-- The record and hold part that a request of a link may change: a DONE record's hold is not changed (R150). -/
def State.holdOpenTo (s : State) (l : Link) (i : RecIx) : Option (CarrierRecord × Hold) :=
  if (s.live? i).isSome then s.holdSeen l i else none

/-- HOLD_READ's data (R154). -/
def eHoldRead (i : RecIx) (r : CarrierRecord) (h : Hold) : List Byte :=
  eIx i ++ eText r.serial ++ e8 r.recipe ++ eFlag r.qualified ++ e8 r.pass ++ ePosition r.position ++ eHold h
    ++ e8 (maskVerdictCode r.maskVerdict) ++ eList (fun z : ZoneEntry => e8 (zoneVerdictCode z.verdict)) r.zones
    ++ e8 (cureVerdictCode r.cureVerdict)

/-- A text slot read. -/
def TextSlot.read (t : TextSlot) : TextSlot := { t with unread := false }

/-- The slot holds an unread text. -/
def slotUnread : Option TextSlot → Bool
  | some t => t.unread
  | none => false

/-- A Bench Link HOLD_READ marks an unread instruction read (R152). -/
def State.instructionRead (s : State) (i : RecIx) (h : Hold) : State :=
  if slotUnread h.instruction && (s.live? i).isSome then
    (s.modHold i fun h => { h with instruction := h.instruction.map TextSlot.read }).holdChanged i .instructionRead
  else s

/-- HOLD_READ (R154). -/
def State.doHoldRead (s : State) (l : Link) (i : RecIx) : Answer :=
  match s.holdSeen l i with
  | none => s.refuse .notFound
  | some (r, h) =>
    match l with
    | .host => s.ok (eHoldRead i r h)
    | .bench => (s.instructionRead i h).ok (eHoldRead i r h)

/-- The claim of a hold set, with HOLD_CHANGED (CLAIM) (R150, R151). -/
def State.setClaim (s : State) (i : RecIx) (c : Option Link) : State :=
  (s.modHold i fun h => { h with claim := c }).holdChanged i .claim

/-- HOLD_CLAIM (R150). -/
def State.doHoldClaim (s : State) (l : Link) (i : RecIx) : Answer :=
  match s.holdOpenTo l i with
  | none => s.refuse .notFound
  | some (_, h) =>
    match h.claim with
    | none => (s.setClaim i (some l)).ok []
    | some other => s.unless (decide (other = l)) .claimedElsewhere (s.ok [])

/-- HOLD_UNCLAIM (R150). -/
def State.doHoldUnclaim (s : State) (l : Link) (i : RecIx) : Answer :=
  match s.holdOpenTo l i with
  | none => s.refuse .notFound
  | some (_, h) => s.unless (decide (h.claim = some l)) .notClaimed ((s.setClaim i none).ok [])

/-- A text stored unread. -/
def newText (text : List Byte) : Option TextSlot := some { text := text, unread := true }

/-- INSTRUCTION_POST (R152). -/
def State.doInstructionPost (s : State) (i : RecIx) (text : List Byte) : Answer :=
  match s.holdOpenTo .host i with
  | none => s.refuse .notFound
  | some (_, h) =>
    s.unless (!slotUnread h.instruction) .slotFull
      ((s.modHold i fun h => { h with instruction := newText text }).ok [])

/-- FINDING_POST (R153). -/
def State.doFindingPost (s : State) (i : RecIx) (text : List Byte) : Answer :=
  match s.holdOpenTo .bench i with
  | none => s.refuse .notFound
  | some (_, h) =>
    match h.claim with
    | none => s.refuse .notClaimed
    | some .host => s.refuse .claimedElsewhere
    | some .bench =>
      s.unless (!slotUnread h.finding) .slotFull
        (((s.modHold i fun h => { h with finding := newText text }).holdChanged i .finding).ok [])

/-- FINDING_READ (R153). -/
def State.doFindingRead (s : State) (i : RecIx) : Answer :=
  match s.holdOpenTo .host i with
  | none => s.refuse .notFound
  | some (_, h) =>
    match h.finding with
    | none => s.refuse .notFound
    | some t => (s.modHold i fun h => { h with finding := h.finding.map TextSlot.read }).ok (eSlot t)

/-- An entry of BENCH_LIST (R154), whether a slot is present and unread being one optional field as in HOLD_CHANGED; DEDUCED
(log 12). -/
def eBenchEntry (i : RecIx) (r : CarrierRecord) (h : Hold) : List Byte :=
  eIx i ++ ePosition r.position ++ eText r.serial ++ e8 (holdStateCode h.state) ++ e8 (severityCode (holdSeverity h.reasons))
    ++ e8 (claimCode h.claim) ++ eOpt eFlag (h.instruction.map TextSlot.unread)
    ++ eOpt eFlag (h.finding.map TextSlot.unread)

/-- The entries of BENCH_LIST, in record index order. -/
def State.benchEntries (s : State) : List (List Byte) :=
  recIxs.filterMap fun i => (s.holdSeen .bench i).map fun v => eBenchEntry i v.1 v.2

/-- BENCH_LIST (R154). -/
def State.doBenchList (s : State) : Answer := s.ok (eList id s.benchEntries)

/-! ## Dispositions (R155 to R160) -/

/-- The checks that a NOT_PERMITTED of HOLD_DISPOSE names, in the order of R155. -/
inductive DisposeCheck where
  | position
  | severity
  | pass
  | stage
deriving DecidableEq, Repr

/-- The code of a check. -/
def DisposeCheck.code : DisposeCheck → Nat
  | .position => 0
  | .severity => 1
  | .pass => 2
  | .stage => 3

/-- USE_AS_IS and SCRAP close the record (R155). -/
def closingOf : Disposition → Option DoneOutcome
  | .useAsIs => some .concession
  | .scrap => some .scrapped
  | .remask | .respray | .recure | .wetWipe | .strip => none

/-- A carrier that can be disposed stands at a bench position, at UNLOAD or OFFLINE (R155). -/
def Position.disposable : Position → Bool
  | .standing .unload => true
  | p => p.benchSide

/-- The severity rows of R156. -/
def severityAllows (sev : Severity) (l : Link) (d : Disposition) : Bool :=
  match sev, l with
  | .minor, .host => true
  | .minor, .bench => (closingOf d).isNone
  | .major, .host => true
  | .critical, .host => decide (d = .scrap)
  | .major, .bench | .critical, .bench => false

/-- The pass row of R156. -/
def passAllows (pass : Nat) (l : Link) (d : Disposition) : Bool :=
  decide (pass ≠ 3) || (decide (l = .host) && (closingOf d).isSome)

/-- The stage fit of R157. -/
def stageAllows (st : Stage) (d : Disposition) : Bool :=
  match d with
  | .remask => decide (st = .mask)
  | .wetWipe => decide (st = .inspect)
  | .respray | .recure => decide (st = .exit)
  | .strip | .useAsIs | .scrap => true

/-- The first check of R155 that fails, with its data. Where both the severity row and the pass row of R156 forbid the
disposition, SEVERITY is named; DESIGN CHOICE (log 39). -/
def disposeRefusal (l : Link) (d : Disposition) (r : CarrierRecord) (h : Hold) : Option (ReplyStatus × List Byte) :=
  if h.claim = none then some (.notClaimed, [])
  else if h.claim ≠ some l then some (.claimedElsewhere, [])
  else if !r.position.disposable then some (.notPermitted, e8 DisposeCheck.position.code)
  else if l = .bench ∧ slotUnread h.instruction then some (.instructionUnread, [])
  else if !severityAllows (holdSeverity h.reasons) l d then some (.notPermitted, e8 DisposeCheck.severity.code)
  else if !passAllows r.pass l d then some (.notPermitted, e8 DisposeCheck.pass.code)
  else if !stageAllows h.stage d then some (.notPermitted, e8 DisposeCheck.stage.code)
  else none

/-- The hold part with a disposition recorded, DISPOSED (R158, R160). -/
def Hold.disposed (h : Hold) (d : Disposition) (l : Link) (now : LineTime) : Hold :=
  { h with disposition := some { what := d, disposer := l, time := now }, state := .disposed }

/-- What STRIP clears (R159). -/
def stripRecord (r : CarrierRecord) : CarrierRecord :=
  { r with
    zones := r.zones.map fun _ => { acc := 0, thickness := 0, verdict := .none, abandoned := false }
    thermalDose := 0, uvDose := 0, peak := none, cureUnknown := false, sprayEnd := none, maskVerdict := .none
    maskPoints := r.maskPoints.map fun _ => .notChecked
    keepoutPoints := r.keepoutPoints.map fun _ => .notChecked
    coveragePoints := r.coveragePoints.map fun _ => .notChecked
    hold := r.hold.map fun h => { h with stage := .stripped } }

/-- A rework disposition (R158). -/
def State.rework (s : State) (i : RecIx) (r : CarrierRecord) (h : Hold) (d : Disposition) (l : Link) : State :=
  let r₁ := { r with hold := some (h.disposed d l s.now) }
  let r₂ := if d = .strip then stripRecord r₁ else r₁
  ((s.setRec i (some r₂)).holdChanged i .disposed).rematch .duplicate r.tagId

/-- The writer of the position where a closed record's carrier stands (R160 step 5). -/
def closingWriter : Position → Option Place
  | .standing p => if p.isLiftPlace then some p else none
  | .inTransit _ _ => none

/-- A closing disposition (R160). -/
def State.closeOut (s : State) (i : RecIx) (r : CarrierRecord) (h : Hold) (d : Disposition) (l : Link)
    (outcome : DoneOutcome) : State :=
  let h' := h.disposed d l s.now
  let s₁ := s.setRec i (some { r with hold := none, history := r.history ++ [historyOf h'] })
  let s₂ := (s₁.queueReport (.holdChanged (holdReport i r h' .closed))).retire i outcome
  match closingWriter r.position with
  | some p => s₂.askWrite p 0 (.closing i)
  | none => s₂

/-- HOLD_DISPOSE (R155). -/
def State.doHoldDispose (s : State) (l : Link) (i : RecIx) (d : Disposition) : Answer :=
  match s.holdOpenTo l i with
  | none => s.refuse .notFound
  | some (r, h) =>
    if r.status ≠ .active then s.refuse .notFound
    else
      match disposeRefusal l d r h, closingOf d with
      | some a, _ => (s, some a)
      | none, some outcome => (s.closeOut i r h d l outcome).ok []
      | none, none => (s.rework i r h d l).ok []

/-! ## Cells, heads, lamp (R70, R87, R88, R64, R115) -/

/-- The cell goes to HOMING (R70). -/
def State.startHoming (s : State) (c : CellId) : State :=
  (s.modCell c fun v => { v with homeTimer := some (s.timer Config.homeMs) }).cellTo c .homing .cellHome none

/-- CELL_HOME (R70). -/
def State.doCellHome (s : State) (c : CellId) : Answer :=
  if s.lmf.mode = .stop then s.refuse .wrongMode
  else
    match (s.cell c).state with
    | .unhomed => (s.startHoming c).ok []
    | .homing | .ready => s.ok []
    | .priming | .running | .starved | .faulted => s.refuse .notPermitted

/-- CELL_ABORT (R87). -/
def State.doCellAbort (s : State) (c : CellId) : Answer :=
  match (s.cell c).program with
  | some p => (s.abandonProgram c p .aborted none none .ready .cellAbort).ok []
  | none => s.refuse .notPermitted

/-- CELL_CLEAR (R88). -/
def State.doCellClear (s : State) (c : CellId) : Answer :=
  if (s.cell c).state.working then s.refuse .notPermitted
  else ((s.modCell c SprayCell.lostHoming).cellTo c .unhomed .cellClear none).ok []

/-- HEAD_CLEAR (R64). -/
def State.doHeadClear (s : State) (h : HeadId) : Answer := (s.clearHead h).ok []

/-- LAMP_SET (R115). -/
def State.doLampSet (s : State) (on : Bool) : Answer := (s.lampSet on).ok []

/-! ## Store requests (R41 to R44) -/

/-- STORE_READ (R41): in execution from its taking. -/
def State.doStoreRead (s : State) (tag : Byte) (offset count : Nat) : Answer :=
  (s.setHostReq (some (.read tag offset count [])), none)

/-- STORE_WRITE (R31, R42). -/
def State.doStoreWrite (s : State) (tag : Byte) (offset : Nat) (data : List Byte) : Answer :=
  if s.lockedWrite offset data then s.refuse .locked
  else (s.setHostReq (some (.write tag offset data false)), none)

/-- RECIPE_CHECK (R43). -/
def State.doRecipeCheck (s : State) (tag : Byte) (recipe : Nat) : Answer :=
  let header := entryOffset s.rsc.dir recipe
  if s.rsc.storeState = .blank then s.refuse .storeBlank
  else if header = 0 then s.refuse .noRecipe
  else if !headerPlaceOk header then (s, some (.recipeBad, eBad header .headerPlace))
  else (s.setHostReq (some (.check tag (ChainWalk.begin recipe header))), none)

/-- An extent; its length takes 3 bytes, since that of a skipped section reaches 65,544 (R36, R190, log 12). -/
def eExtent (e : Extent) : List Byte := e24 e.offset ++ e24 e.length

/-- What SLOT_LIST gives of a LOADING or VALID slot: recipe number, use count, age of the last use. -/
def State.eSlotHead (s : State) (h : SlotHead) : List Byte := e8 h.recipe ++ e8 h.use ++ e32 (s.since h.lastUse)

/-- A slot in SLOT_LIST (R44). -/
def State.eSlotEntry (s : State) (k : SlotIx) : List Byte :=
  match s.rsc.slots[k] with
  | .empty => e8 0
  | .loading h => e8 1 ++ s.eSlotHead h ++ eList eExtent h.extents ++ e8 (s.rsc.loadList.idxOf k)
  | .valid h q _ => e8 2 ++ s.eSlotHead h ++ eFlag q ++ eList eExtent h.extents

/-- SLOT_LIST (R44). -/
def State.doSlotList (s : State) : Answer :=
  s.ok (slotIxs.flatMap s.eSlotEntry ++ e8 (storeStateCode s.rsc.storeState) ++ e16 s.rsc.lockBoundary ++ e8 s.rsc.qCount)

end Sys2Proof.Machine
end

