-- ==== Sys2Proof/Machine/Links.lean ====
section
/-! DEFINITION. The Link Interface Unit (10): reception, screening and dispatch, the busy rule, replies, the Host
transmitter's arbitration, and Bench Link presence; and what the part does by itself at the end of every command. -/

namespace Sys2Proof.Machine

/-! ## Dispatch (R179) -/

/-- A request with a record index that has been range-checked. -/
def State.withRec (s : State) (b : Byte) (f : RecIx → Answer) : Answer :=
  match recIxOf b with
  | some i => f i
  | none => s.refuse .badValue

/-- A request with a coded field that has been range-checked. -/
def State.withCode {α : Type} (s : State) (v : Option α) (f : α → Answer) : Answer :=
  match v with
  | some a => f a
  | none => s.refuse .badValue

/-- A request handed to its owner. -/
def State.dispatch (s : State) (l : Link) (tag : Byte) (r : Request) : Answer :=
  match r with
  | .identify => s.doIdentify
  | .lineStatus => s.doLineStatus
  | .lineModeSet m => s.withCode (modeOf m) s.doModeSet
  | .resume => s.doResume
  | .lineConfig x m => s.doLineConfig x.toNat m.toNat
  | .lineClear => s.doLineClear
  | .faultRead => s.doFaultRead
  | .faultAck c => s.doFaultAck c
  | .admitCarrier id n serial => s.doAdmit id n.toNat serial
  | .remove i => s.withRec i s.doRemove
  | .markClear id => s.doMarkClear id
  | .carrierRead i => s.withRec i s.doCarrierRead
  | .traceTake i => s.withRec i s.doTraceTake
  | .holdPlace i v => s.withRec i fun i => s.withCode (severityOf v) (s.doHoldPlace i)
  | .holdRead i => s.withRec i (s.doHoldRead l)
  | .holdClaim i => s.withRec i (s.doHoldClaim l)
  | .holdUnclaim i => s.withRec i (s.doHoldUnclaim l)
  | .instructionPost i text => s.withRec i fun i => s.doInstructionPost i text
  | .findingPost i text => s.withRec i fun i => s.doFindingPost i text
  | .findingRead i => s.withRec i s.doFindingRead
  | .benchList => s.doBenchList
  | .holdDispose i d => s.withRec i fun i => s.withCode (dispositionOf d) (s.doHoldDispose l i)
  | .cellHome c => s.withCode (cellOf c) s.doCellHome
  | .cellAbort c => s.withCode (cellOf c) s.doCellAbort
  | .cellClear c => s.withCode (cellOf c) s.doCellClear
  | .headClear h => s.withCode (headOf h) s.doHeadClear
  | .lampSet v => s.withCode (lampOf v) s.doLampSet
  | .storeRead o n => s.doStoreRead tag o.toNat n.toNat
  | .storeWrite o data => s.doStoreWrite tag o.toNat data
  | .recipeCheck n => s.doRecipeCheck tag n.toNat
  | .slotList => s.doSlotList

/-! ## Screening (R179, R180) -/

/-- The requests served while another Host Link request is in execution (R180). -/
def servedWhileBusy : Request → Bool
  | .lineModeSet m => decide (modeOf m = some .stop)
  | .lineStatus | .faultRead => true
  | .identify | .resume | .lineConfig _ _ | .lineClear | .faultAck _ | .admitCarrier _ _ _ | .remove _ => false
  | .markClear _ | .carrierRead _ | .traceTake _ | .holdPlace _ _ | .holdRead _ | .holdClaim _ | .holdUnclaim _ => false
  | .instructionPost _ _ | .findingPost _ _ | .findingRead _ | .benchList | .holdDispose _ _ | .cellHome _ => false
  | .cellAbort _ | .cellClear _ | .headClear _ | .lampSet _ | .storeRead _ _ | .storeWrite _ _ => false
  | .recipeCheck _ | .slotList => false

/-- The busy rule refuses a request on a link (R180). -/
def State.busy (s : State) (l : Link) (r : Request) : Bool :=
  decide (l = .host) && s.rsc.hostReq.isSome && !servedWhileBusy r

/-- Steps 2 to 6 of R179 for a request kind; `r` is the request of its body, none for a length that the kind does not
allow. -/
def State.screenRequest (s : State) (l : Link) (kind tag : Byte) (r : Option Request) : Answer :=
  if !requestKinds.contains kind then s.refuse .unknownKind
  else if !carries l kind then s.refuse .notPermitted
  else
    match r with
    | none => s.refuse .badLength
    | some r =>
      if !rangesOk r then s.refuse .badValue
      else if s.busy l r then s.refuse .busy
      else s.dispatch l tag r

/-- A reply formed on a link: in the Host reply store (R178), or on its way on the Bench Link at once (R182). -/
def State.sendReply (s : State) (l : Link) (r : Reply) : State :=
  match l with
  | .host => { s with liu := { s.liu with replies := s.liu.replies ++ [r] } }
  | .bench => { s with liu := { s.liu with benchTx := some r } }

/-- A request answered, when its answer is ready. -/
def Answer.deliver (a : Answer) (l : Link) (kind tag : Byte) : State :=
  match a.2 with
  | some (st, data) => a.1.sendReply l { kind := kind, tag := tag, status := st, data := data }
  | none => a.1

/-- A frame or request row screened (R179): a kind of 0x80 or more is discarded with no reply. -/
def State.screen (s : State) (l : Link) (kind tag : Byte) (r : Option Request) : State :=
  if 0x80 ≤ kind.toNat then s else (s.screenRequest l kind tag r).deliver l kind tag

/-! ## Taking a valid frame (R177, R178, R186) -/

/-- The places of the Host reply store that are taken; the place of the request in execution is reserved (R178). -/
def State.placesTaken (s : State) : Nat := s.liu.replies.length + s.rsc.hostReq.isSome.toNat

/-- A valid Bench Link frame sets the presence and restarts the silence timer (R186). -/
def State.benchHeard (s : State) : State :=
  { s with liu := { s.liu with online := true, silence := some (s.timer Config.silenceMs) } }

/-- The held frame set. -/
def State.setHeld (s : State) (f : Option Frame) : State := { s with liu := { s.liu with held := f } }

/-- A valid frame, or the request row that stands for one, taken on a link; `r` as in `State.screenRequest`. Until
start-up ends every frame is discarded (R172). -/
def State.take (s : State) (l : Link) (f : Frame) (r : Option Request) : State :=
  if s.starting then s
  else
    match l with
    | .bench => if s.liu.benchTx.isSome then s else s.benchHeard.screen .bench f.kind f.tag r
    | .host =>
      if s.liu.held.isSome then s
      else if Config.replyPlaces ≤ s.placesTaken then s.setHeld (some f)
      else s.screen .host f.kind f.tag r

/-- A valid frame taken on a link. -/
def State.takeFrame (s : State) (l : Link) (f : Frame) : State := s.take l f (requestOf f.kind f.body)

/-- A request row taken on a link: the frame that carries it, decoded. -/
def State.takeRequest (s : State) (l : Link) (tag : Byte) (r : Request) : State :=
  s.take l (frameOf tag r) (if r.lengthOk then some r else none)

/-- HELD_FRAME_SCREEN (R178): the held frame screened when a place is free. -/
def State.screenHeld (s : State) : State :=
  match s.liu.held with
  | some f =>
    if Config.replyPlaces ≤ s.placesTaken then s
    else (s.setHeld none).screen .host f.kind f.tag (requestOf f.kind f.body)
  | none => s

/-! ## Reception (R176, R177) -/

/-- A link's receiver. -/
def State.rx (s : State) : Link → Rx
  | .host => s.liu.hostRx
  | .bench => s.liu.benchRx

/-- A link's receiver set. -/
def State.setRx (s : State) (l : Link) (v : Rx) : State :=
  match l with
  | .host => { s with liu := { s.liu with hostRx := v } }
  | .bench => { s with liu := { s.liu with benchRx := v } }

/-- The line time of a receiver's last byte, in LENGTH and BODY. -/
def Rx.last : Rx → Option LineTime
  | .hunt => none
  | .length _ t => some t
  | .body _ t _ _ => some t

/-- A receiver when a byte comes: HUNT after a gap of more than 20 ms (R177). -/
def State.freshRx (s : State) (l : Link) : Rx :=
  match (s.rx l).last with
  | some t => if s.since t < Config.gapMs then s.rx l else .hunt
  | none => .hunt

/-- The Bench Link receiver takes no bytes while the V24 transmits on it (R176). -/
def State.deaf (s : State) (l : Link) : Bool := decide (l = .bench) && s.liu.benchTx.isSome

/-- A byte received on a link. -/
def State.receiveByte (l : Link) (s : State) (b : Byte) : State :=
  if s.deaf l then s
  else
    let (rx, f) := rxByte s.starting s.now (s.freshRx l) b
    let s₁ := s.setRx l rx
    match f with
    | some f => s₁.takeFrame l f
    | none => s₁

/-- FRAME_VALID (R177): the bytes received, up to the one that completes the frame. -/
def State.receive (s : State) (l : Link) (bytes : List Byte) : State := bytes.foldl (State.receiveByte l) s

/-- FRAME_DISCARD (R177): the bytes of a discarded frame leave the receiver in HUNT. Bytes that do not end in a discard
are no such event and change nothing. -/
def State.discard (s : State) (l : Link) (bytes : List Byte) (framing : Bool) : State :=
  if s.deaf l then s
  else
    let run := rxRun s.starting s.now (s.freshRx l) bytes
    if framing || (run.2.isEmpty && decide (run.1 = .hunt)) then s.setRx l .hunt else s

/-- RX_GAP_TIMEOUT (R177): more than 20 ms since the last byte of a frame. -/
def State.rxGap (s : State) (l : Link) : State :=
  match (s.rx l).last with
  | some t => (s.reach t Config.gapMs).setRx l .hunt
  | none => s

/-! ## Transmission (R181, R182, R184, R185) -/

/-- The Host transmitter takes the oldest reply, otherwise the oldest report with the lost count in its header, when it
is free. -/
def State.startTx (s : State) : State :=
  if s.liu.hostTx.isSome then s
  else
    match s.liu.replies, s.liu.reports with
    | r :: rs, _ => { s with liu := { s.liu with hostTx := some (.reply r), replies := rs } }
    | [], r :: rs =>
      { s with liu := { s.liu with
        hostTx := some (.report s.liu.lost r), reports := rs, lost := 0
        full := s.liu.full && decide (Config.reportQueueMax ≤ rs.length) } }
    | [], [] => s

/-- HOST_TX_DONE (R181): the frame, or the series, has been sent. -/
def State.hostTxDone (s : State) : State := { s with liu := { s.liu with hostTx := none } }

/-- BENCH_TX_DONE (R182). -/
def State.benchTxDone (s : State) : State := { s with liu := { s.liu with benchTx := none } }

/-- The BENCH_LINK claim of a record dropped (R151). -/
def State.dropClaim (s : State) (i : RecIx) : State :=
  match s.live? i with
  | some r =>
    match r.hold with
    | some h => if h.claim = some .bench then s.setClaim i none else s
    | none => s
  | none => s

/-- BENCH_SILENCE_EXPIRY (R151, R186). -/
def State.benchSilence (s : State) : State :=
  match s.liu.silence with
  | some t =>
    let s₁ := s.expire t
    recIxs.foldl State.dropClaim { s₁ with liu := { s₁.liu with online := false, silence := none } }
  | none => s

/-! ## The end of every command -/

/-- What follows at once from the state that a command leaves: the fetchers ask (R73), and the Host transmitter takes
its next frame (R181). It takes it once, at the command's end: the reply of a command goes before a report that the same
command has queued; DESIGN CHOICE (log 49). -/
def State.settle (s : State) : State := ((s.askFetch .a).askFetch .b).startTx

/-- A command that goes on to a next state. -/
def State.goesOn (s : State) : Host.Outcome State Fault Refusal := .next s.settle

end Sys2Proof.Machine
end

