-- ==== Sys2Proof/Machine/CarrierCommands.lean ====
section
/-! DEFINITION. Carriers, tags and moves: the meaning of each command, one definition for each row of the table. -/

namespace Sys2Proof.Machine

/-- LOAD_ARRIVAL (R8). -/
def execLoadArrival (s : State) : Host.Outcome State Fault Refusal := s.loadPresent.goesOn

/-- TAG_READ_ATTEMPT_END (R22). -/
def execTagReadAttemptEnd (place : Place) (result : Option TagRead) (s : State) : Host.Outcome State Fault Refusal :=
  (s.readEnd place result).goesOn

/-- TAG_WRITE_ATTEMPT_END (R149). -/
def execTagWriteAttemptEnd (place : Place) (readBack : Option Byte) (s : State) : Host.Outcome State Fault Refusal :=
  (s.writeEnd place readBack).goesOn

/-- LOAD_ENTRY_CLEAR (R8). -/
def execLoadEntryClear (s : State) : Host.Outcome State Fault Refusal := s.loadClear.goesOn

/-- MOVE_BEGIN (R2). -/
def execMoveBegin (ix : RecIx) (s : State) : Host.Outcome State Fault Refusal := (s.moveBegin ix).goesOn

/-- MOVE_END (R3). -/
def execMoveEnd (ix : RecIx) (s : State) : Host.Outcome State Fault Refusal := (s.moveEnd ix).goesOn

/-- TRANSPORT_TIMEOUT (R3). -/
def execTransportTimeout (ix : RecIx) (s : State) : Host.Outcome State Fault Refusal := (s.moveTimeout ix).goesOn

/-- SOURCE_CLEARED (R2). -/
def execSourceCleared (place : Place) (s : State) : Host.Outcome State Fault Refusal := (s.sourceClear place).goesOn

/-- CARRIER_MISSING (R24). -/
def execCarrierMissing (place : Place) (s : State) : Host.Outcome State Fault Refusal :=
  (s.carrierMissing place).goesOn

/-- CARRIER_LIFTED (R24). -/
def execCarrierLifted (place : Place) (s : State) : Host.Outcome State Fault Refusal := (s.carrierLifted place).goesOn

/-- BENCH_MOVE_START (R148). -/
def execBenchMoveStart (s : State) : Host.Outcome State Fault Refusal := s.benchMoveStart.goesOn

/-- CARRIER_SET_BACK (R24). -/
def execCarrierSetBack (place : Place) (s : State) : Host.Outcome State Fault Refusal := (s.setBack place).goesOn

/-- DONE_CARRIER_LIFTED (R1). -/
def execDoneCarrierLifted (place : Place) (s : State) : Host.Outcome State Fault Refusal :=
  (s.doneLifted place).goesOn

end Sys2Proof.Machine
end

