-- ==== Sys2Proof/Machine/CureCommands.lean ====
section
/-! DEFINITION. The cure tunnel: the meaning of each command, one definition for each row of the table. -/

namespace Sys2Proof.Machine

/-- The ballast fault input becomes active (R116); nothing when it is active already. -/
def State.ballastEvent (s : State) : State := if s.ctc.lamp.ballastFault then s else s.ballastActive

/-- ENTRY_TRANSFER_START (R111). -/
def execEntryTransferStart (s : State) : Host.Outcome State Fault Refusal := s.entryStart.goesOn

/-- LANE_ENTRY_END (R112). -/
def execLaneEntryEnd (lane : LaneId) (s : State) : Host.Outcome State Fault Refusal := (s.laneEntryEnd lane).goesOn

/-- ENCODER_PULSE (R114). -/
def execEncoderPulse (lane : LaneId) (s : State) : Host.Outcome State Fault Refusal := (s.encoderPulse lane).goesOn

/-- UV_SAMPLE (R119). -/
def execUvSample (raw : Option (BitVec 12)) (s : State) : Host.Outcome State Fault Refusal := (s.uvSample raw).goesOn

/-- THERMAL_SAMPLE (R131). -/
def execThermalSample (adc : Vector (Option Int) 8) (s : State) : Host.Outcome State Fault Refusal :=
  (s.thermalSample adc).goesOn

/-- WARM_UP_END (R115). -/
def execWarmUpEnd (s : State) : Host.Outcome State Fault Refusal := s.warmUpEnd.goesOn

/-- BALLAST_FAULT (R116). -/
def execBallastFault (s : State) : Host.Outcome State Fault Refusal := s.ballastEvent.goesOn

/-- BALLAST_FAULT_INACTIVE (R116). -/
def execBallastFaultInactive (s : State) : Host.Outcome State Fault Refusal := (s.setBallast false).goesOn

/-- EXIT_TRANSFER_START (R125). -/
def execExitTransferStart (s : State) : Host.Outcome State Fault Refusal := s.exitGrant.goesOn

/-- EXIT_TRANSFER_END (R126). -/
def execExitTransferEnd (s : State) : Host.Outcome State Fault Refusal := s.exitEnd.goesOn

end Sys2Proof.Machine
end

