-- ==== Sys2Proof/Machine/InspectCommands.lean ====
section
/-! DEFINITION. The inspection heads: the meaning of each command, one definition for each row of the table. -/

namespace Sys2Proof.Machine

/-- WALK_START (R49). -/
def execWalkStart (head : HeadId) (s : State) : Host.Outcome State Fault Refusal := (s.startWalk head).goesOn

/-- POSITIONER_ARRIVAL (R50). -/
def execPositionerArrival (head : HeadId) (answers : Bool) (s : State) : Host.Outcome State Fault Refusal :=
  (s.positionerArrival head answers).goesOn

/-- INSPECT_POSITION_TIMEOUT (R51). -/
def execInspectPositionTimeout (head : HeadId) (s : State) : Host.Outcome State Fault Refusal :=
  (s.positionTimeout head).goesOn

/-- CHANNEL_RESULT (R52, R55). -/
def execChannelResult (head : HeadId) (channel : Fin 4) (reading : BitVec 10)
    (s : State) : Host.Outcome State Fault Refusal :=
  (s.channelResult head channel reading).goesOn

/-- GROUP_WAIT_EXPIRY (R53). -/
def execGroupWaitExpiry (head : HeadId) (s : State) : Host.Outcome State Fault Refusal :=
  (s.groupWaitExpiry head).goesOn

/-- RESULT_TIMER_EXPIRY (R56). -/
def execResultTimerExpiry (head : HeadId) (channel : Fin 4) (s : State) : Host.Outcome State Fault Refusal :=
  (s.resultTimerExpiry head channel).goesOn

end Sys2Proof.Machine
end

