-- ==== Sys2Proof/Machine/LinkCommands.lean ====
section
/-! DEFINITION. The links: the meaning of each command, one definition for each row of the table. -/

namespace Sys2Proof.Machine

/-- FRAME_VALID (R177). -/
def execFrameValid (link : Link) (bytes : List Byte) (s : State) : Host.Outcome State Fault Refusal :=
  (s.receive link bytes).goesOn

/-- FRAME_DISCARD (R177). -/
def execFrameDiscard (link : Link) (bytes : List Byte) (framing : Bool)
    (s : State) : Host.Outcome State Fault Refusal :=
  (s.discard link bytes framing).goesOn

/-- RX_GAP_TIMEOUT (R177). -/
def execRxGapTimeout (link : Link) (s : State) : Host.Outcome State Fault Refusal := (s.rxGap link).goesOn

/-- HELD_FRAME_SCREEN (R178). -/
def execHeldFrameScreen (s : State) : Host.Outcome State Fault Refusal := s.screenHeld.goesOn

/-- HOST_TX_DONE (R181). -/
def execHostTxDone (s : State) : Host.Outcome State Fault Refusal := s.hostTxDone.goesOn

/-- BENCH_TX_DONE (R182). -/
def execBenchTxDone (s : State) : Host.Outcome State Fault Refusal := s.benchTxDone.goesOn

/-- BENCH_SILENCE_EXPIRY (R186). -/
def execBenchSilenceExpiry (s : State) : Host.Outcome State Fault Refusal := s.benchSilence.goesOn

end Sys2Proof.Machine
end

