-- ==== Sys2Proof/Machine/PowerCommands.lean ====
section
/-! DEFINITION. Power and the emergency-stop input: the meaning of each command, one definition for each row of the table. -/

namespace Sys2Proof.Machine

/-- POR (R172): every block at its POR value, the clock at 0, the strap read, start-up begun. The sensors, the
emergency-stop and ballast fault inputs and the store are outside the part and keep what they hold; the bytes of a page
write in progress are of unknown content (log 8). -/
def State.powerOn (s : State) (fast : Bool) : State :=
  let s₁ :=
    match s.rsc.port with
    | some a => s.spoil a.op
    | none => s
  { s₁ with
    ltk := Ltk.reset s.ltk.sensors, rsc := Rsc.reset, ine := { mask := Head.reset, inspect := Head.reset }
    scc := { a := SprayCell.reset, b := SprayCell.reset }, ctc := Ctc.reset s.ctc.lamp.ballastFault, hmg := Hmg.reset
    lmf := Lmf.reset s.lmf.estop, liu := Liu.reset fast }

/-- The emergency-stop input becomes active (R166); during start-up only its level is taken (R172 step 7). -/
def State.estopEvent (s : State) : State :=
  if s.lmf.estop then s else if s.starting then s.setEstop true else s.estopActive

/-- POR (R172). -/
def execPor (fast : Bool) (s : State) : Host.Outcome State Fault Refusal := (s.powerOn fast).goesOn

/-- EMERGENCY_STOP (R166). -/
def execEmergencyStop (s : State) : Host.Outcome State Fault Refusal := s.estopEvent.goesOn

/-- EMERGENCY_STOP_RELEASE (R166). -/
def execEmergencyStopRelease (s : State) : Host.Outcome State Fault Refusal := (s.setEstop false).goesOn

end Sys2Proof.Machine
end

