-- ==== Sys2Proof/Machine/RequestCommands.lean ====
section
/-! DEFINITION. The requests: the meaning of each command, one definition for each row of the table. -/

namespace Sys2Proof.Machine

/-- IDENTIFY (R189). -/
def execIdentify (link : Link) (tag : Byte) (s : State) : Host.Outcome State Fault Refusal :=
  (s.takeRequest link tag .identify).goesOn

/-- LINE_STATUS (R174). -/
def execLineStatus (link : Link) (tag : Byte) (s : State) : Host.Outcome State Fault Refusal :=
  (s.takeRequest link tag .lineStatus).goesOn

/-- LINE_MODE_SET (R164). -/
def execLineModeSet (link : Link) (tag mode : Byte) (s : State) : Host.Outcome State Fault Refusal :=
  (s.takeRequest link tag (.lineModeSet mode)).goesOn

/-- RESUME (R167). -/
def execResume (link : Link) (tag : Byte) (s : State) : Host.Outcome State Fault Refusal :=
  (s.takeRequest link tag .resume).goesOn

/-- LINE_CONFIG (R168). -/
def execLineConfig (link : Link) (tag nearFull : Byte) (lampMin : BitVec 16)
    (s : State) : Host.Outcome State Fault Refusal :=
  (s.takeRequest link tag (.lineConfig nearFull lampMin)).goesOn

/-- LINE_CLEAR (R169). -/
def execLineClear (link : Link) (tag : Byte) (s : State) : Host.Outcome State Fault Refusal :=
  (s.takeRequest link tag .lineClear).goesOn

/-- FAULT_READ (R171). -/
def execFaultRead (link : Link) (tag : Byte) (s : State) : Host.Outcome State Fault Refusal :=
  (s.takeRequest link tag .faultRead).goesOn

/-- FAULT_ACK (R171). -/
def execFaultAck (link : Link) (tag classes : Byte) (s : State) : Host.Outcome State Fault Refusal :=
  (s.takeRequest link tag (.faultAck classes)).goesOn

/-- ADMIT (R12). -/
def execAdmitCarrier (link : Link) (tag : Byte) (tagId : TagId) (recipe : Byte) (serial : List Byte)
    (s : State) : Host.Outcome State Fault Refusal :=
  (s.takeRequest link tag (.admitCarrier tagId recipe serial)).goesOn

/-- REMOVE (R16). -/
def execRemove (link : Link) (tag index : Byte) (s : State) : Host.Outcome State Fault Refusal :=
  (s.takeRequest link tag (.remove index)).goesOn

/-- MARK_CLEAR (R15). -/
def execMarkClear (link : Link) (tag : Byte) (tagId : TagId) (s : State) : Host.Outcome State Fault Refusal :=
  (s.takeRequest link tag (.markClear tagId)).goesOn

/-- CARRIER_READ (R25). -/
def execCarrierRead (link : Link) (tag index : Byte) (s : State) : Host.Outcome State Fault Refusal :=
  (s.takeRequest link tag (.carrierRead index)).goesOn

/-- TRACE_TAKE (R25). -/
def execTraceTake (link : Link) (tag index : Byte) (s : State) : Host.Outcome State Fault Refusal :=
  (s.takeRequest link tag (.traceTake index)).goesOn

/-- HOLD_PLACE (R144). -/
def execHoldPlace (link : Link) (tag index severity : Byte) (s : State) : Host.Outcome State Fault Refusal :=
  (s.takeRequest link tag (.holdPlace index severity)).goesOn

/-- HOLD_READ (R154). -/
def execHoldRead (link : Link) (tag index : Byte) (s : State) : Host.Outcome State Fault Refusal :=
  (s.takeRequest link tag (.holdRead index)).goesOn

/-- HOLD_CLAIM (R150). -/
def execHoldClaim (link : Link) (tag index : Byte) (s : State) : Host.Outcome State Fault Refusal :=
  (s.takeRequest link tag (.holdClaim index)).goesOn

/-- HOLD_UNCLAIM (R150). -/
def execHoldUnclaim (link : Link) (tag index : Byte) (s : State) : Host.Outcome State Fault Refusal :=
  (s.takeRequest link tag (.holdUnclaim index)).goesOn

/-- INSTRUCTION_POST (R152). -/
def execInstructionPost (link : Link) (tag index : Byte) (text : List Byte)
    (s : State) : Host.Outcome State Fault Refusal :=
  (s.takeRequest link tag (.instructionPost index text)).goesOn

/-- FINDING_POST (R153). -/
def execFindingPost (link : Link) (tag index : Byte) (text : List Byte)
    (s : State) : Host.Outcome State Fault Refusal :=
  (s.takeRequest link tag (.findingPost index text)).goesOn

/-- FINDING_READ (R153). -/
def execFindingRead (link : Link) (tag index : Byte) (s : State) : Host.Outcome State Fault Refusal :=
  (s.takeRequest link tag (.findingRead index)).goesOn

/-- BENCH_LIST (R154). -/
def execBenchList (link : Link) (tag : Byte) (s : State) : Host.Outcome State Fault Refusal :=
  (s.takeRequest link tag .benchList).goesOn

/-- HOLD_DISPOSE (R155). -/
def execHoldDispose (link : Link) (tag index disposition : Byte) (s : State) : Host.Outcome State Fault Refusal :=
  (s.takeRequest link tag (.holdDispose index disposition)).goesOn

/-- CELL_HOME (R70). -/
def execCellHome (link : Link) (tag cell : Byte) (s : State) : Host.Outcome State Fault Refusal :=
  (s.takeRequest link tag (.cellHome cell)).goesOn

/-- CELL_ABORT (R87). -/
def execCellAbort (link : Link) (tag cell : Byte) (s : State) : Host.Outcome State Fault Refusal :=
  (s.takeRequest link tag (.cellAbort cell)).goesOn

/-- CELL_CLEAR (R88). -/
def execCellClear (link : Link) (tag cell : Byte) (s : State) : Host.Outcome State Fault Refusal :=
  (s.takeRequest link tag (.cellClear cell)).goesOn

/-- HEAD_CLEAR (R64). -/
def execHeadClear (link : Link) (tag head : Byte) (s : State) : Host.Outcome State Fault Refusal :=
  (s.takeRequest link tag (.headClear head)).goesOn

/-- LAMP_SET (R115). -/
def execLampSet (link : Link) (tag lamp : Byte) (s : State) : Host.Outcome State Fault Refusal :=
  (s.takeRequest link tag (.lampSet lamp)).goesOn

/-- STORE_READ (R41). -/
def execStoreRead (link : Link) (tag : Byte) (offset : BitVec 24) (count : Byte)
    (s : State) : Host.Outcome State Fault Refusal :=
  (s.takeRequest link tag (.storeRead offset count)).goesOn

/-- STORE_WRITE (R42). -/
def execStoreWrite (link : Link) (tag : Byte) (offset : BitVec 24) (data : List Byte)
    (s : State) : Host.Outcome State Fault Refusal :=
  (s.takeRequest link tag (.storeWrite offset data)).goesOn

/-- RECIPE_CHECK (R43). -/
def execRecipeCheck (link : Link) (tag recipe : Byte) (s : State) : Host.Outcome State Fault Refusal :=
  (s.takeRequest link tag (.recipeCheck recipe)).goesOn

/-- SLOT_LIST (R44). -/
def execSlotList (link : Link) (tag : Byte) (s : State) : Host.Outcome State Fault Refusal :=
  (s.takeRequest link tag .slotList).goesOn

end Sys2Proof.Machine
end

