-- ==== Sys2Proof/Machine/SprayCommands.lean ====
section
/-! DEFINITION. The spray cells: the meaning of each command, one definition for each row of the table. -/

namespace Sys2Proof.Machine

/-- HOME_REACHED (R71). -/
def execHomeReached (cell : CellId) (s : State) : Host.Outcome State Fault Refusal := (s.homeReached cell).goesOn

/-- HOME_TIMEOUT (R71). -/
def execHomeTimeout (cell : CellId) (s : State) : Host.Outcome State Fault Refusal := (s.homeTimeout cell).goesOn

/-- PROGRAM_START (R72). -/
def execProgramStart (cell : CellId) (s : State) : Host.Outcome State Fault Refusal := (s.startProgram cell).goesOn

/-- SEEK_END (R76). -/
def execSeekEnd (cell : CellId) (s : State) : Host.Outcome State Fault Refusal := (s.seekEnd cell).goesOn

/-- LEAD_TIMER_EXPIRY (R77). -/
def execLeadTimerExpiry (cell : CellId) (s : State) : Host.Outcome State Fault Refusal := (s.leadExpiry cell).goesOn

/-- VALVE_CLOSE_TIMER (R77). -/
def execValveCloseTimer (cell : CellId) (s : State) : Host.Outcome State Fault Refusal := (s.valveClose cell).goesOn

/-- MOTION_END (R77). -/
def execMotionEnd (cell : CellId) (s : State) : Host.Outcome State Fault Refusal := (s.motionEnd cell).goesOn

/-- GANTRY_TIMEOUT (R76, R77). -/
def execGantryTimeout (cell : CellId) (s : State) : Host.Outcome State Fault Refusal := (s.gantryTimeout cell).goesOn

/-- GANTRY_HALT_REPORT (R79). -/
def execGantryHaltReport (cell : CellId) (x y z : Nat) (s : State) : Host.Outcome State Fault Refusal :=
  (s.haltReport cell x y z).goesOn

/-- STARVE_LIMIT (R81). -/
def execStarveLimit (cell : CellId) (s : State) : Host.Outcome State Fault Refusal := (s.starveLimit cell).goesOn

/-- VALVE_FAULT (R83). -/
def execValveFault (cell : CellId) (s : State) : Host.Outcome State Fault Refusal := (s.valveFault cell).goesOn

end Sys2Proof.Machine
end

