-- ==== Sys2Proof/Machine/StoreCommands.lean ====
section
/-! DEFINITION. The Store Port: the meaning of each command, one definition for each row of the table. -/

namespace Sys2Proof.Machine

/-- An access in progress that lies in the store ends by `f`; one that reaches beyond it is the fault storeRange. -/
def State.endAccess (s : State) (f : State → Access → State) : Host.Outcome State Fault Refusal :=
  match s.rsc.port with
  | some a => if a.op.inStore then (f s a).goesOn else .fault .storeRange
  | none => s.goesOn

/-- STORE_GRANT (R40). -/
def execStoreGrant (s : State) : Host.Outcome State Fault Refusal := s.grant.goesOn

/-- STORE_ACCESS_END (R26). -/
def execStoreAccessEnd (s : State) : Host.Outcome State Fault Refusal := s.endAccess State.accessEnd

/-- STORE_ACCESS_TIMEOUT (R26). -/
def execStoreAccessTimeout (s : State) : Host.Outcome State Fault Refusal := s.endAccess State.accessError

end Sys2Proof.Machine
end

