-- ==== Sys2Proof/Machine/Dispatch.lean ====
section
/-! DEFINITION. The dispatch of the commands: one arm per row of the table. -/

namespace Sys2Proof.Machine

/-- What a command does to everything but the queue. -/
def exec (i : Instr) (s : State) : Host.Outcome State Fault Refusal :=
  match i with
  | .por fast => Sys2Proof.Machine.execPor fast s
  | .emergencyStop => Sys2Proof.Machine.execEmergencyStop s
  | .emergencyStopRelease => Sys2Proof.Machine.execEmergencyStopRelease s
  | .frameValid link bytes => Sys2Proof.Machine.execFrameValid link bytes s
  | .frameDiscard link bytes framing => Sys2Proof.Machine.execFrameDiscard link bytes framing s
  | .rxGapTimeout link => Sys2Proof.Machine.execRxGapTimeout link s
  | .heldFrameScreen => Sys2Proof.Machine.execHeldFrameScreen s
  | .hostTxDone => Sys2Proof.Machine.execHostTxDone s
  | .benchTxDone => Sys2Proof.Machine.execBenchTxDone s
  | .benchSilenceExpiry => Sys2Proof.Machine.execBenchSilenceExpiry s
  | .identify link tag => Sys2Proof.Machine.execIdentify link tag s
  | .lineStatus link tag => Sys2Proof.Machine.execLineStatus link tag s
  | .lineModeSet link tag mode => Sys2Proof.Machine.execLineModeSet link tag mode s
  | .resume link tag => Sys2Proof.Machine.execResume link tag s
  | .lineConfig link tag nearFull lampMin => Sys2Proof.Machine.execLineConfig link tag nearFull lampMin s
  | .lineClear link tag => Sys2Proof.Machine.execLineClear link tag s
  | .faultRead link tag => Sys2Proof.Machine.execFaultRead link tag s
  | .faultAck link tag classes => Sys2Proof.Machine.execFaultAck link tag classes s
  | .admitCarrier link tag tagId recipe serial => Sys2Proof.Machine.execAdmitCarrier link tag tagId recipe serial s
  | .remove link tag index => Sys2Proof.Machine.execRemove link tag index s
  | .markClear link tag tagId => Sys2Proof.Machine.execMarkClear link tag tagId s
  | .carrierRead link tag index => Sys2Proof.Machine.execCarrierRead link tag index s
  | .traceTake link tag index => Sys2Proof.Machine.execTraceTake link tag index s
  | .holdPlace link tag index severity => Sys2Proof.Machine.execHoldPlace link tag index severity s
  | .holdRead link tag index => Sys2Proof.Machine.execHoldRead link tag index s
  | .holdClaim link tag index => Sys2Proof.Machine.execHoldClaim link tag index s
  | .holdUnclaim link tag index => Sys2Proof.Machine.execHoldUnclaim link tag index s
  | .instructionPost link tag index text => Sys2Proof.Machine.execInstructionPost link tag index text s
  | .findingPost link tag index text => Sys2Proof.Machine.execFindingPost link tag index text s
  | .findingRead link tag index => Sys2Proof.Machine.execFindingRead link tag index s
  | .benchList link tag => Sys2Proof.Machine.execBenchList link tag s
  | .holdDispose link tag index disposition => Sys2Proof.Machine.execHoldDispose link tag index disposition s
  | .cellHome link tag cell => Sys2Proof.Machine.execCellHome link tag cell s
  | .cellAbort link tag cell => Sys2Proof.Machine.execCellAbort link tag cell s
  | .cellClear link tag cell => Sys2Proof.Machine.execCellClear link tag cell s
  | .headClear link tag head => Sys2Proof.Machine.execHeadClear link tag head s
  | .lampSet link tag lamp => Sys2Proof.Machine.execLampSet link tag lamp s
  | .storeRead link tag offset count => Sys2Proof.Machine.execStoreRead link tag offset count s
  | .storeWrite link tag offset data => Sys2Proof.Machine.execStoreWrite link tag offset data s
  | .recipeCheck link tag recipe => Sys2Proof.Machine.execRecipeCheck link tag recipe s
  | .slotList link tag => Sys2Proof.Machine.execSlotList link tag s
  | .storeGrant => Sys2Proof.Machine.execStoreGrant s
  | .storeAccessEnd => Sys2Proof.Machine.execStoreAccessEnd s
  | .storeAccessTimeout => Sys2Proof.Machine.execStoreAccessTimeout s
  | .loadArrival => Sys2Proof.Machine.execLoadArrival s
  | .tagReadAttemptEnd place result => Sys2Proof.Machine.execTagReadAttemptEnd place result s
  | .tagWriteAttemptEnd place readBack => Sys2Proof.Machine.execTagWriteAttemptEnd place readBack s
  | .loadEntryClear => Sys2Proof.Machine.execLoadEntryClear s
  | .moveBegin ix => Sys2Proof.Machine.execMoveBegin ix s
  | .moveEnd ix => Sys2Proof.Machine.execMoveEnd ix s
  | .transportTimeout ix => Sys2Proof.Machine.execTransportTimeout ix s
  | .sourceCleared place => Sys2Proof.Machine.execSourceCleared place s
  | .carrierMissing place => Sys2Proof.Machine.execCarrierMissing place s
  | .carrierLifted place => Sys2Proof.Machine.execCarrierLifted place s
  | .walkStart head => Sys2Proof.Machine.execWalkStart head s
  | .positionerArrival head answers => Sys2Proof.Machine.execPositionerArrival head answers s
  | .inspectPositionTimeout head => Sys2Proof.Machine.execInspectPositionTimeout head s
  | .channelResult head channel reading => Sys2Proof.Machine.execChannelResult head channel reading s
  | .groupWaitExpiry head => Sys2Proof.Machine.execGroupWaitExpiry head s
  | .resultTimerExpiry head channel => Sys2Proof.Machine.execResultTimerExpiry head channel s
  | .homeReached cell => Sys2Proof.Machine.execHomeReached cell s
  | .homeTimeout cell => Sys2Proof.Machine.execHomeTimeout cell s
  | .programStart cell => Sys2Proof.Machine.execProgramStart cell s
  | .seekEnd cell => Sys2Proof.Machine.execSeekEnd cell s
  | .leadTimerExpiry cell => Sys2Proof.Machine.execLeadTimerExpiry cell s
  | .valveCloseTimer cell => Sys2Proof.Machine.execValveCloseTimer cell s
  | .motionEnd cell => Sys2Proof.Machine.execMotionEnd cell s
  | .gantryTimeout cell => Sys2Proof.Machine.execGantryTimeout cell s
  | .gantryHaltReport cell x y z => Sys2Proof.Machine.execGantryHaltReport cell x y z s
  | .starveLimit cell => Sys2Proof.Machine.execStarveLimit cell s
  | .valveFault cell => Sys2Proof.Machine.execValveFault cell s
  | .entryTransferStart => Sys2Proof.Machine.execEntryTransferStart s
  | .laneEntryEnd lane => Sys2Proof.Machine.execLaneEntryEnd lane s
  | .encoderPulse lane => Sys2Proof.Machine.execEncoderPulse lane s
  | .uvSample raw => Sys2Proof.Machine.execUvSample raw s
  | .thermalSample adc => Sys2Proof.Machine.execThermalSample adc s
  | .warmUpEnd => Sys2Proof.Machine.execWarmUpEnd s
  | .ballastFault => Sys2Proof.Machine.execBallastFault s
  | .exitTransferStart => Sys2Proof.Machine.execExitTransferStart s
  | .exitTransferEnd => Sys2Proof.Machine.execExitTransferEnd s
  | .benchMoveStart => Sys2Proof.Machine.execBenchMoveStart s
  | .carrierSetBack place => Sys2Proof.Machine.execCarrierSetBack place s
  | .doneCarrierLifted place => Sys2Proof.Machine.execDoneCarrierLifted place s
  | .ballastFaultInactive => Sys2Proof.Machine.execBallastFaultInactive s

end Sys2Proof.Machine
end

