-- ==== Sys2Proof/Safety.lean ====
section
/-! DEFINITION. The terms that the statements use: when a link takes a request, the laws that the spec gives the whole
part, and what a stop is. -/

namespace Sys2Proof.Machine

/-! ## Requests -/

/-- A link hears a frame now (R172, R176, R178): start-up has ended; on the Host Link no frame is held and a place of the
reply store is free; on the Bench Link the V24 does not transmit. -/
def State.hears (s : State) (l : Link) : Bool :=
  !s.starting &&
    match l with
    | .host => s.liu.held.isNone && decide (s.placesTaken < Config.replyPlaces)
    | .bench => s.liu.benchTx.isNone

/-- A link takes a request now: it hears it, and no Host Link request is in execution that would make it BUSY (R180). -/
def State.takesRequest (s : State) (l : Link) : Bool :=
  s.hears l &&
    match l with
    | .host => s.rsc.hostReq.isNone
    | .bench => true

/-- The state in which a request is screened: a valid Bench Link frame has set the presence first (R186). -/
def State.heard (s : State) : Link → State
  | .host => s
  | .bench => s.benchHeard

/-- A request that its link carries, of a length and in the ranges that its kind allows (R179 steps 2 to 5). -/
def wellAsked (l : Link) (r : Request) : Bool := carries l (kindOf r) && r.lengthOk && rangesOk r

/-- A reply formed to a request (R179). -/
def State.answers (s : State) (l : Link) (tag : Byte) (r : Request) (st : ReplyStatus) (data : List Byte) : State :=
  s.sendReply l { kind := kindOf r, tag := tag, status := st, data := data }

/-! ## The laws of the part -/

/-- A record's status holds work of its pass: WAIT_LANE or ACTIVE. -/
def Status.inPass : Status → Bool
  | .waitLane | .active => true
  | .loading | .done _ => false

/-- The limits that the spec gives queues and counts: the Report Queue and the lost count (R183), the reply store
(R178), the lanes (R106). -/
structure BoundLaw (s : State) : Prop where
  reports : s.liu.reports.length ≤ 32
  lost : s.liu.lost ≤ 255
  places : s.placesTaken ≤ 4
  lane1 : s.ctc.lane1.bound ≤ 8
  lane2 : s.ctc.lane2.bound ≤ 8

/-- The limits that the spec gives a record: pass 1..3 (R10), no disposition standing in pass 3 (R156), one history entry
at most for each pass that has ended (R161), a reasons list of 1..8 (R141), doses up to their limit (R133). -/
structure RecordOk (r : CarrierRecord) : Prop where
  passLow : 1 ≤ r.pass
  passHigh : r.pass ≤ 3
  disposed : ∀ h, r.hold = some h → h.state = .disposed → r.pass ≤ 2
  history : r.history.length ≤ 3
  historyLive : r.status.isLive = true → r.history.length + 1 ≤ r.pass
  reasons : ∀ h, r.hold = some h → 1 ≤ h.reasons.length ∧ h.reasons.length ≤ 8
  thermal : r.thermalDose ≤ Config.doseMax
  uv : r.uvDose ≤ Config.doseMax

/-- Every record in use keeps its limits. -/
def RecordLaw (s : State) : Prop := ∀ i r, s.rec? i = some r → RecordOk r

/-- What ties a cell's program, execution and valve together (R78, R83, R89, R91): a program in progress belongs to a
record of the line in RUN or PAUSE and the cell works; a segment executes only while it runs; the valve is open only in
the LEAD or MOTION of a segment that sprays. -/
structure CellOk (s : State) (c : CellId) : Prop where
  program : ∀ p, (s.cell c).program = some p →
    (s.lmf.mode = .run ∨ s.lmf.mode = .pause) ∧ (s.cell c).state.working = true ∧
      ∃ r, s.rec? p.ix = some r ∧ r.status.inPass = true
  executing : ∀ e, (s.cell c).executing = some e →
    (s.cell c).program.isSome = true ∧ (s.cell c).state = .running ∧ (0 < e.feff → e.seg.kind = some .spray)
  valve : (s.cell c).valveOpen = true → ∃ e, (s.cell c).executing = some e ∧ e.phase ≠ .seek ∧ 0 < e.feff

/-- Both cells keep their law. -/
def CellLaw (s : State) : Prop := ∀ c, CellOk s c

/-! ## Rules spelled out for the statements -/

/-- A single-place or bench position is free: no live record stands there, no move in flight has it as its target, none
that goes from it to a bench position is in flight, and its sensor reads clear (R1, R19). -/
def FreeByRule (s : State) (p : Place) : Prop :=
  (∀ i r, s.rec? i = some r → r.status.isLive = true → r.position ≠ .standing p) ∧
  (∀ m ∈ s.ltk.moves, m.dst ≠ p ∧ (m.src = p → ∀ n, m.dst ≠ .bench n)) ∧ s.present p = false

/-- The lowest-numbered free bench position (R148, R123). -/
def LowestBench (s : State) (n : BenchIx) : Prop := FreeByRule s (.bench n) ∧ ∀ m, m < n → ¬ FreeByRule s (.bench m)

/-- A station has released a carrier: at LOAD the record is ACTIVE, at a head the result-given mark names it in its pass,
at a cell the program-run mark does and its program is over (R2, R61, R91). -/
def ReleasedByRule (s : State) (i : RecIx) (r : CarrierRecord) : Place → Prop
  | .load => r.status = .active
  | .mask => s.ine.mask.given = some { ix := i, pass := r.pass }
  | .inspect => s.ine.inspect.given = some { ix := i, pass := r.pass }
  | .sprayA => s.scc.a.runMark = some { ix := i, pass := r.pass } ∧ ∀ p, s.scc.a.program = some p → p.ix ≠ i
  | .sprayB => s.scc.b.runMark = some { ix := i, pass := r.pass } ∧ ∀ p, s.scc.b.program = some p → p.ix ≠ i
  | .wetq | .lane1 | .lane2 | .unload | .bench _ | .offline => False

/-- The line mode lets the Line Tracker move a carrier to a target: any in RUN, the wet queue in PAUSE (R2). -/
def ModeLets (m : LineMode) (dst : Place) : Prop := m = .run ∨ (m = .pause ∧ dst = .wetq)

/-- The entry conditions of a target: it is free, a spray cell is READY and the mask verdict OK, the wet queue has space
(R2, R18, R110). -/
def AdmittedByRule (s : State) (r : CarrierRecord) : Place → Prop
  | .mask => FreeByRule s .mask
  | .inspect => FreeByRule s .inspect
  | .sprayA => FreeByRule s .sprayA ∧ s.scc.a.state = .ready ∧ r.maskVerdict = .ok
  | .sprayB => FreeByRule s .sprayB ∧ s.scc.b.state = .ready ∧ r.maskVerdict = .ok
  | .wetq => s.ctc.wetQueue.length + (s.ltk.moves.filter fun m => decide (m.dst = .wetq)).length < 3
  | .load | .lane1 | .lane2 | .unload | .bench _ | .offline => False

/-- The first entry of a plan leads to a target of the Line Tracker's moves (R17). -/
def PlanLeads (plan : List RouteEntry) (dst : Place) : Prop :=
  (dst, plan.head?) ∈ [(Place.mask, some RouteEntry.mask), (.sprayA, some .sprayA), (.sprayB, some .sprayB),
    (.inspect, some .inspect), (.wetq, some .wetq)]

/-- A record may begin a move (R2, R18, R22), but for the order among those that wait for one target. -/
def MayMove (s : State) (i : RecIx) (r : CarrierRecord) (src dst : Place) : Prop :=
  r.status = .active ∧ r.position = .standing src ∧ PlanLeads r.plan dst ∧ ReleasedByRule s i r src ∧
    r.tagCheck ≠ .failed ∧ ModeLets s.lmf.mode dst ∧ AdmittedByRule s r dst

/-- The order LOAD, MASK, SPRAY_A, SPRAY_B, INSPECT (R18). -/
def sourceOrder : List Place := [.load, .mask, .sprayA, .sprayB, .inspect]

/-- Another record may move into the same target from a source that stands later in the order (R18). -/
def GivesWay (s : State) (i : RecIx) (src dst : Place) : Prop :=
  ∃ j q src', j ≠ i ∧ s.rec? j = some q ∧ MayMove s j q src' dst ∧ sourceOrder.idxOf src < sourceOrder.idxOf src'

/-- A slot whose use count has fallen by one (R7, R39). -/
def oneUseLess : Slot → Slot
  | .empty => .empty
  | .loading h => .loading { h with use := h.use - 1 }
  | .valid h q r => .valid { h with use := h.use - 1 } q r

/-- The slots after the use that a record makes of one of them has been released. -/
def UseReleased (s u : State) (r : CarrierRecord) : Prop :=
  ∀ k : SlotIx, u.rsc.slots[k] = if r.slot = some k then oneUseLess s.rsc.slots[k] else s.rsc.slots[k]

/-- A lane may take a binding of a class under a limit (R107). -/
def EligibleByRule (s : State) (c limit : Nat) (l : LaneId) : Prop :=
  ((s.lane l).cls = some c ∨ (s.lane l).cls = none) ∧ (s.lane l).bound < limit

/-- The lane that a bind request takes (R107): of its class, with the smaller bound count, LANE1 when equal; without one
of its class, a lane of class NONE, LANE1 first. -/
def ChosenByRule (s : State) (c limit : Nat) (l : LaneId) : Prop :=
  EligibleByRule s c limit l ∧
    if (s.lane l).cls = some c then
      ∀ l', l' ≠ l → EligibleByRule s c limit l' → (s.lane l').cls = some c →
        (s.lane l).bound < (s.lane l').bound ∨ ((s.lane l).bound = (s.lane l').bound ∧ l = .lane1)
    else
      ∀ l', l' ≠ l → EligibleByRule s c limit l' → (s.lane l').cls ≠ some c ∧ l = .lane1

/-- The full route plan (R17). -/
def planByRule (p : Recipe) : List RouteEntry :=
  [.mask] ++ (if p.progA.count = 0 then [] else [.sprayA]) ++ (if p.progB.count = 0 then [] else [.sprayB])
    ++ [.inspect, .wetq, .lane, .exit]

/-- A record shaped to the recipe of its slot: point verdicts NOT_CHECKED and zones empty, as many as the recipe has
(R6). -/
def shapedByRule (k : SlotIx) (qualified : Bool) (p : Recipe) (r : CarrierRecord) : CarrierRecord :=
  { r with
    slot := some k, qualified := qualified, maskVerdict := .none
    maskPoints := List.replicate ((p.mask.map fun v => v.points.length).getD 0) .notChecked
    keepoutPoints := List.replicate ((p.keepout.map fun v => v.points.length).getD 0) .notChecked
    coveragePoints := List.replicate ((p.coverage.map List.length).getD 0) .notChecked
    zones := List.replicate p.zones.length { acc := 0, thickness := 0, verdict := .none, abandoned := false } }

/-- A record bound to a lane, as ADMITTED tells it, with the plan that it takes, or kept WAIT_LANE with the waiting binding
(R107, R14, R17). -/
def Bound (s u : State) (i : RecIx) (r : CarrierRecord) (plan : List RouteEntry) (c limit : Nat) (kind : LimitKind) : Prop :=
  (∀ l, ChosenByRule s c limit l →
    u.rec? i = some { r with status := .active, plan := plan, lane := some l, posInLane := none } ∧ u.ctc.waiting = none ∧
    (u.lane l).cls = some c ∧ (u.lane l).bound = (s.lane l).bound + 1 ∧
    (s.liu.reports.length < 24 → { time := s.now, body := .admitted i r.pass } ∈ u.liu.reports.drop s.liu.reports.length)) ∧
  ((∀ l, ¬ EligibleByRule s c limit l) →
    u.rec? i = some { r with status := .waitLane } ∧ u.ctc.waiting = some { ix := i, cls := c, kind := kind } ∧
    u.ctc.lane1 = s.ctc.lane1 ∧ u.ctc.lane2 = s.ctc.lane2)

/-- The belt drive command of a lane (R113): the speed of its class in mm/min while RUNNING, otherwise the commanded
stop. -/
def BeltByRule (v : Lane) : Prop :=
  v.belt =
    if v.state = .running then
      match v.cls with
      | none => none
      | some 1 => some 100
      | some 2 => some 150
      | some 3 => some 200
      | some _ => some 300
    else none

/-- A host write is refused with LOCKED (R31). -/
def LockedByRule (s : State) (o : Nat) (data : List Byte) : Prop :=
  s.rsc.storeState = .guarded ∧
    (o < 256 ∨
      ((∃ a, o ≤ a ∧ a < o + data.length ∧ 256 ≤ a ∧ a < 256 + 4 * s.rsc.qCount) ∧
        ∃ k, ∃ h : k < data.length, ∃ x : Fin 256, o + k = 256 + x.val ∧ s.rsc.dir[x] ≠ data[k]) ∨
      ∃ a, o ≤ a ∧ a < o + data.length ∧ 512 ≤ a ∧ a < s.rsc.lockBoundary * 64)

/-- A zone evaluated from its accumulator and abandoned flag (R101, R102). -/
def zoneByRule (acc : Nat) (abandoned : Bool) (w : ZoneSpec) : ZoneEntry :=
  let t := min (acc * 10 / w.area) 65535
  { acc := acc, thickness := t, abandoned := abandoned
    verdict := if abandoned then .unknown else if t < w.low then .low else if w.high < t then .high else .ok }

/-- The plan of a record holds no further spray cell (R84, R85). -/
abbrev NoCellLeft (r : CarrierRecord) : Prop := .sprayA ∉ r.plan ∧ .sprayB ∉ r.plan

/-- The film at the end or abandonment of a program, its deposits and flags being those of `zones`: with no cell left the
spray-end time is set, every zone evaluated and the film reasons raised; otherwise neither changes (R84, R85, R100 to
R103). -/
def FilmByRule (s u : State) (i : RecIx) (r : CarrierRecord) (rc : Recipe) (zones : List ZoneEntry) : Prop :=
  ∃ r', u.rec? i = some r' ∧
    (NoCellLeft r →
      r'.sprayEnd = some s.now ∧ r'.zones = List.zipWith (fun q w => zoneByRule q.acc q.abandoned w) zones rc.zones ∧
      ((∀ h, r.hold = some h → h.reasons.length ≤ 5) →
        ∀ x y, (x, y) ∈ [(ZoneVerdict.unknown, ReasonCode.filmUnknown), (.low, .filmLow), (.high, .filmHigh)] →
          (∃ q ∈ r'.zones, q.verdict = x) → ∃ h, r'.hold = some h ∧ ∃ z ∈ h.reasons, z.code = y)) ∧
    (¬ NoCellLeft r → r'.sprayEnd = r.sprayEnd ∧ r'.zones = zones)

/-- SPRAY_DONE is among the reports that an event has queued, with whether the film was evaluated (R86). -/
def SprayDoneTold (s u : State) (c : CellId) (p : Program) (o : ProgramOutcome) (r : CarrierRecord) : Prop :=
  s.liu.reports.length < 24 → ∃ d, { time := s.now, body := .sprayDone d } ∈ u.liu.reports.drop s.liu.reports.length ∧
    d.cell = c ∧ d.ix = p.ix ∧ d.pass = p.pass ∧ d.outcome = o ∧
    (NoCellLeft r → d.evaluated = true ∧ d.sprayEnd = some s.now) ∧
    (¬ NoCellLeft r → d.evaluated = false ∧ d.sprayEnd = none)

/-! ### The segments of a program -/

/-- A place is the end of a segment (R67). -/
def EndsAt (g : Segment) (q : GantryPos) : Prop :=
  q.z = g.z ∧
    ((g.dir = some .plusX ∧ q.x = g.x + g.len ∧ q.y = g.y) ∨ (g.dir = some .minusX ∧ q.x + g.len = g.x ∧ q.y = g.y) ∨
      (g.dir = some .plusY ∧ q.x = g.x ∧ q.y = g.y + g.len) ∨ (g.dir = some .minusY ∧ q.x = g.x ∧ q.y + g.len = g.y))

/-- A segment is not SEGMENT_BAD (R68), for a recipe of so many zones: its kind and its end, every field in its range (R67). -/
def PassesByRule (zones : Nat) (g : Segment) (k : SegKind) (q : GantryPos) : Prop :=
  g.kind = some k ∧ EndsAt g q ∧ (1 ≤ g.len ∧ g.len ≤ 6000) ∧ (5 ≤ g.speed ∧ g.speed ≤ 400) ∧ g.flow ≤ 2000 ∧
    (30 ≤ g.z ∧ g.z ≤ 300) ∧ g.lead ≤ 25 ∧ g.trail ≤ 25 ∧ g.zone < zones ∧ (g.x ≤ 6000 ∧ g.y ≤ 5000) ∧
    (q.x ≤ 6000 ∧ q.y ≤ 5000)

/-- The flow of a segment after the low-height derate (R95). -/
def deratedByRule (m : Material) (g : Segment) : Nat := if g.z < m.zLow then g.flow * m.derate / 100 else g.flow

/-- The values formed for a segment at its execution (R92 to R96): the motion time of at least 2 ms with lead and trail 0
under it, a trail below the motion time, the clamped flow, the staged deposit; a MOVE segment has flow and deposit 0. -/
def formedByRule (m : Material) (fmax : Nat) (k : SegKind) (q : GantryPos) (g : Segment) : Executing :=
  let t := g.len * 100 / g.speed
  let feff := if k = .spray then min (deratedByRule m g) fmax else 0
  { seg := g, finish := q, phase := .seek, time := max t 2, lead := if t < 2 then 0 else g.lead
    trail := if t < 2 then 0 else min g.trail (t - 1), feff := feff
    deposit := feff * max t 2 * m.solids / 1000 * m.efficiency / 100 }

/-- A cell whose valve is shut as a segment begins (R75 to R77): SEEK where the gantry does not stand at its start and
height, otherwise the valve opened for a flow above 0, with LEAD for a lead above 0, and MOTION. -/
def begunByRule (now : LineTime) (v : SprayCell) (e : Executing) : SprayCell :=
  let motion : SprayCell := { v with
    executing := some { e with phase := .motion }, gantryTimer := some { since := now, ms := e.time + 2000 } }
  if v.gantry ≠ some ⟨e.seg.x, e.seg.y, e.seg.z⟩ then
    { v with executing := some { e with phase := .seek }, gantryTimer := some { since := now, ms := 2000 } }
  else if e.feff = 0 then { motion with valveTimer := none }
  else if e.lead = 0 then
    { motion with valveOpen := true, valveTimer := some { since := now, ms := e.time - e.trail } }
  else
    { v with
      executing := some { e with phase := .lead }, valveOpen := true, leadTimer := some { since := now, ms := e.lead } }

/-- A segment begins a new run in its program (R69). -/
def BeginsRun (f : Fetched) : Prop := (decodeSegment f.bits).runStart = true ∧ f.index ≠ 0

/-- The cell that the segment at the execution pointer finds: a new run has its zone absent and the skip flag clear. -/
def enteredByRule (v : SprayCell) (f : Fetched) : SprayCell :=
  if (decodeSegment f.bits).runStart = true ∧ f.index ≠ 0 then { v with runZone := none, skip := false } else v

/-- The segment at the execution pointer comes to execution (R75): refused with SEGMENT_BAD (R68) or RUN_ZONE (R82), the
fault noted and the program abandoned with the cell going to FAULTED (R83, R84); otherwise its values formed with its own
cell's Fmax (R92), a flow clamp counted (R95), the run's zone that of its first SPRAY segment, and the segment begun. -/
def TakenByRule (t u : State) (c : CellId) (p : Program) (r : CarrierRecord) (rc : Recipe) (f : Fetched) : Prop :=
  let g := decodeSegment f.bits
  let w := enteredByRule (t.cell c) f
  let refused (code : FaultCode) (bad : Option Nat) : Prop :=
    u = ((t.setCell c w).noteFault code (.scc c) { ix := some p.ix, segment := some f.index }).abandonProgram c p .faulted
      (some (code, f.index)) bad .faulted (.fault code)
  (∀ k q, PassesByRule rc.zones.length g k q →
    ((∀ z, k = .spray → w.runZone = some z → z = g.zone) →
      u = (if k = .spray ∧ t.fmax c < deratedByRule rc.material g then
          t.setRec p.ix (some { r with flowClamps := min (r.flowClamps + 1) 65535 })
        else t).setCell c (begunByRule t.now { w with runZone := if k = .spray then some g.zone else w.runZone }
          (formedByRule rc.material (t.fmax c) k q g))) ∧
    (∀ z, k = .spray → w.runZone = some z → z ≠ g.zone → refused .runZone (some g.zone))) ∧
  ((∀ k q, ¬ PassesByRule rc.zones.length g k q) → refused .segmentBad none)

/-- The program of a cell ends (R85). -/
def EndedByRule (t u : State) (c : CellId) (p : Program) (r : CarrierRecord) (rc : Recipe) : Prop :=
  (u.cell c).state = .ready ∧ (u.cell c).program = none ∧ (u.cell c).executing = none ∧
    (∀ k : Fin 4, (u.cell c).buffer[k] = none) ∧ (u.cell c).valveOpen = (t.cell c).valveOpen ∧
    (u.cell c).gantry = (t.cell c).gantry ∧ (u.cell c).runMark = some { ix := p.ix, pass := p.pass } ∧
    FilmByRule t u p.ix r rc r.zones ∧ SprayDoneTold t u c p .completed r

/-- A segment discarded in a skip (R81): its slot freed, the counter, and the zone that a SPRAY segment fixes for the
abandoned run, with its abandoned flag. -/
def discardedByRule (t : State) (c : CellId) (p : Program) (r : CarrierRecord) (rc : Recipe) (f : Fetched) : State :=
  let v := t.cell c
  let g := decodeSegment f.bits
  let z := if v.runZone = none ∧ g.kind = some .spray ∧ g.zone < rc.zones.length then some g.zone else none
  (t.setRec p.ix (some { r with
    zones := r.zones.mapIdx fun k q => { q with abandoned := q.abandoned || decide (z = some k) } })).setCell c { v with
      buffer := v.buffer.set v.exec none, exec := v.exec + 1, program := some { p with next := p.next + 1 }
      executing := none, runZone := v.runZone.or z
      counts := { v.counts with discarded := min (v.counts.discarded + 1) 65535 } }

/-- A cell starves (R80): STARVED with the 250 ms timer, the record's count and the program's one more. -/
def starvedByRule (t : State) (c : CellId) (p : Program) (r : CarrierRecord) : State :=
  let v := t.cell c
  (t.setRec p.ix (some { r with starves := min (r.starves + 1) 255 })).setCell c { v with
    state := .starved, starveTimer := some { since := t.now, ms := 250 }
    counts := { v.counts with starves := min (v.counts.starves + 1) 65535 } }

/-- What a RUNNING cell does when a segment's execution has ended, when it leaves PRIMING, or when an awaited segment has
landed (R75, R80, R81, R85), from the first state to the second. -/
inductive NextByRule (c : CellId) (rc : Recipe) : State → State → Prop where
  /-- No segment is left: the program ends. -/
  | ends {t u : State} {p : Program} {r : CarrierRecord} (hp : (t.cell c).program = some p) (hr : t.rec? p.ix = some r)
      (empty : (t.cell c).buffer[(t.cell c).exec] = none) (last : p.count ≤ p.next) (ended : EndedByRule t u c p r rc) :
      NextByRule c rc t u
  /-- The slot is empty in a skip: the segment is awaited in RUNNING. -/
  | awaits {t : State} {p : Program} (hp : (t.cell c).program = some p)
      (empty : (t.cell c).buffer[(t.cell c).exec] = none) (more : p.next < p.count) (skip : (t.cell c).skip = true) :
      NextByRule c rc t t
  /-- The slot is empty outside a skip: the cell starves. -/
  | starves {t : State} {p : Program} {r : CarrierRecord} (hp : (t.cell c).program = some p) (hr : t.rec? p.ix = some r)
      (empty : (t.cell c).buffer[(t.cell c).exec] = none) (more : p.next < p.count) (skip : (t.cell c).skip = false) :
      NextByRule c rc t (starvedByRule t c p r)
  /-- The segment comes to execution; one that begins a run ends a skip. -/
  | takes {t u : State} {p : Program} {r : CarrierRecord} {f : Fetched} (hp : (t.cell c).program = some p)
      (hr : t.rec? p.ix = some r) (full : (t.cell c).buffer[(t.cell c).exec] = some f)
      (skip : (t.cell c).skip = false ∨ BeginsRun f) (taken : TakenByRule t u c p r rc f) : NextByRule c rc t u
  /-- The segment is discarded in a skip, and the next one follows. -/
  | discards {t u : State} {p : Program} {r : CarrierRecord} {f : Fetched} (hp : (t.cell c).program = some p)
      (hr : t.rec? p.ix = some r) (full : (t.cell c).buffer[(t.cell c).exec] = some f) (skip : (t.cell c).skip = true)
      (inRun : ¬ BeginsRun f) (rest : NextByRule c rc (discardedByRule t c p r rc f) u) : NextByRule c rc t u

/-! ### The load list -/

/-- The load list, the walk and the slots once a load has ended (R38): the next LOADING slot's load begins, with the
directory entry as its first extent; one whose entry is empty (R30), or whose header would lie outside its place (R33),
fails at once, and its slot is EMPTY. -/
def nextLoadByRule (dir : Vector Byte 256) :
    List SlotIx → Vector Slot 8 → List SlotIx × Option ChainWalk × Vector Slot 8
  | [], slots => ([], none, slots)
  | k :: ks, slots =>
    match slots[k] with
    | .loading h =>
      let o := entryOffset dir h.recipe
      if entryEmpty dir h.recipe = true ∨ o < 512 ∨ 262144 < o + 16 then nextLoadByRule dir ks (slots.set k .empty)
      else
        (k :: ks, some (ChainWalk.begin h.recipe o),
          slots.set k (.loading { h with extents := [{ offset := 256 + 4 * (h.recipe - 1), length := 4 }] }))
    | .empty | .valid _ _ _ => nextLoadByRule dir ks slots

/-- After a load has ended the loader is as `nextLoadByRule` says, from the rest of the load list and the slots as the
load has found them, but for its own slot `k`; a record that waits for a load which fails at once is FREE (R13). -/
def LoaderGoesOn (s u : State) (k : SlotIx) (rest : List SlotIx) : Prop :=
  let next := nextLoadByRule s.rsc.dir rest s.rsc.slots
  u.rsc.loadList = next.1 ∧ u.rsc.walk = next.2.1 ∧ (∀ j : SlotIx, j ≠ k → u.rsc.slots[j] = next.2.2[j]) ∧
    ∀ j ∈ rest, ∀ h, s.rsc.slots[j] = .loading h → u.rsc.slots[j] = .empty →
      ∀ i r, s.rec? i = some r → r.status = .loading → r.recipe = h.recipe → r.removalPending = false → u.rec? i = none

/-! ### Start-up -/

/-- Start-up ends (R172 steps 5 to 7): the live configuration, LINE_MODE with cause START_UP, STOP under an active
emergency-stop input, and a carrier standing at LOAD read as an arrival. -/
def StartedUp (s u : State) (live : LiveConfig) : Prop :=
  u.rsc.startUp = none ∧ u.rsc.port = none ∧ u.rsc.live = live ∧ u.rsc.slots = s.rsc.slots ∧
    (s.liu.reports.length < 32 → ∃ rest, u.liu.reports =
      s.liu.reports ++ { time := s.now, body := .lineMode s.lmf.mode .idle s.now .startUp } :: rest) ∧
    u.lmf.mode = (if s.lmf.estop then .stop else s.lmf.mode) ∧
    (s.present .load = true → u.ltk.loadEntry = none ∧
      ∃ rs, u.ltk.reads = rs ++ [{ place := .load, why := .arrival, attempt := 1 }])

/-- A hold goes ahead of an entry's hold in the Bench Queue (R147). -/
def AheadByRule (s : State) (mine other : Hold) : Prop :=
  let keepout (h : Hold) : Prop := ∃ x ∈ h.reasons, x.code = .keepout
  (keepout mine ∧ ¬ keepout other) ∨
    ((keepout mine ↔ keepout other) ∧ (s.now - other.raiseTime).toNat < (s.now - mine.raiseTime).toNat)

/-- A record stands in the Bench Queue with a hold (R147): ahead of the first entry that its hold goes ahead of, behind all
others, whose order stays. -/
def QueuedByRule (s u : State) (i : RecIx) (mine : Hold) : Prop :=
  ∃ pre post, s.hmg.queue.filter (fun j => decide (j ≠ i)) = pre ++ post ∧ u.hmg.queue = pre ++ i :: post ∧
    (∀ j ∈ pre, ∀ q o, s.rec? j = some q → q.hold = some o → ¬ AheadByRule s mine o) ∧
    ∀ j, post.head? = some j → ∃ q o, s.rec? j = some q ∧ q.hold = some o ∧ AheadByRule s mine o

/-- A record is diverted to the bench (R19, R20, R147): plan empty, unbound, its hold of the station's stage, in the Bench
Queue. -/
def DivertedByRule (s u : State) (i : RecIx) (stage : Stage) : Prop :=
  ∃ r h, u.rec? i = some r ∧ r.hold = some h ∧ r.plan = [] ∧ r.lane = none ∧ h.stage = stage ∧ QueuedByRule s u i h

/-- A head has given its result: IDLE, without a walk, its mark naming the record in its pass (R58, R59). -/
def ResultGiven (u : State) (h : HeadId) (i : RecIx) (pass : Nat) : Prop :=
  (u.head h).state = .idle ∧ (u.head h).walk = none ∧ (u.head h).given = some { ix := i, pass := pass }

/-- The provisional outcome of a front is GOOD: no hold part, and every cure check passes (R123, R136). -/
def GoodFront (s : State) (i : RecIx) : Prop :=
  ∃ r p, s.rec? i = some r ∧ s.recipeOf i = some p ∧ r.hold = none ∧ cureFailures p.cure r = []

/-- The target of a front that waits at the exit (R123). -/
def ExitTarget (s : State) (i : RecIx) (target : Place) : Prop :=
  (GoodFront s i → target = .unload) ∧
    (¬ GoodFront s i →
      (s.hmg.queue = [] ∧ ∃ n, LowestBench s n ∧ target = .bench n) ∨
        ((s.hmg.queue ≠ [] ∨ ∀ n, ¬ LowestBench s n) ∧ target = .unload))

/-- A front waits in the arbiter since a line time, and its target is available (R124). -/
def ReadyFront (s : State) (l : LaneId) (t : LineTime) : Prop :=
  ∃ i rest target, (s.lane l).order = i :: rest ∧ (s.lane l).arrival = some t ∧ ExitTarget s i target ∧ FreeByRule s target

/-- The arbiter grants a lane's front (R124). -/
def GrantedByRule (s : State) (l : LaneId) (t : LineTime) : Prop :=
  s.ctc.exitHolder = none ∧ s.lmf.mode ≠ .stop ∧ ReadyFront s l t ∧
    ∀ l' t', l' ≠ l → ReadyFront s l' t' →
      (s.now - t').toNat < (s.now - t).toNat ∨ ((s.now - t').toNat = (s.now - t).toNat ∧ l = .lane1)

/-! ## Frames -/

/-- Parts of the state. `rep` stands for the Report Queue, its counts and the fault record; `link`
for the rest of the Link Interface Unit; `req` for the host store request in execution; `pass` for a record's leaving
WAIT_LANE and ACTIVE. -/
structure Blocks where
  ltk : Bool := false
  rsc : Bool := false
  req : Bool := false
  ine : Bool := false
  scc : Bool := false
  ctc : Bool := false
  hmg : Bool := false
  rep : Bool := false
  link : Bool := false
  mode : Bool := false
  estop : Bool := false
  clock : Bool := false
  pass : Bool := false
deriving DecidableEq

/-- The Link Interface Unit but for the Report Queue and its counts. -/
def Liu.rest (v : Liu) : Liu := { v with reports := [], lost := 0, full := false }

/-- From `s` to `t` at most the parts of `b` change: every other part, the commands that wait and the store are as they
were. -/
structure OnlyIn (b : Blocks) (s t : State) : Prop where
  pending : t.pending = s.pending
  store : t.store = s.store
  freeCount : t.freeCount = s.freeCount
  ltk : b.ltk = false → t.ltk = s.ltk
  rsc : b.rsc = false → t.rsc = s.rsc
  req : b.req = false → t.rsc.hostReq = s.rsc.hostReq
  ine : b.ine = false → t.ine = s.ine
  scc : b.scc = false → t.scc = s.scc
  ctc : b.ctc = false → t.ctc = s.ctc
  hmg : b.hmg = false → t.hmg = s.hmg
  record : b.rep = false → t.lmf.record = s.lmf.record
  mode : b.mode = false → t.lmf.mode = s.lmf.mode
  estop : b.estop = false → t.lmf.estop = s.lmf.estop
  clock : b.clock = false → t.lmf.clock = s.lmf.clock
  queue : b.rep = false → t.liu.reports = s.liu.reports ∧ t.liu.lost = s.liu.lost ∧ t.liu.full = s.liu.full
  link : b.link = false → t.liu.rest = s.liu.rest
  pass : b.pass = false → ∀ i r, s.rec? i = some r → r.status.inPass = true →
    ∃ r', t.rec? i = some r' ∧ r'.status.inPass = true

/-- The parts that a request can change, beside the link that answers it. -/
def partsOfRequest : Request → Blocks
  | .identify | .lineStatus | .faultRead | .carrierRead _ | .benchList | .slotList => {}
  | .lineModeSet _ | .resume => { ltk := true, ine := true, scc := true, ctc := true, rep := true, mode := true }
  | .lineConfig _ _ => { rsc := true }
  | .faultAck _ => { rep := true }
  | .lineClear | .admitCarrier _ _ _ | .remove _ | .holdDispose _ _ =>
    { ltk := true, rsc := true, ine := true, scc := true, ctc := true, hmg := true, rep := true, pass := true }
  | .markClear _ => { ltk := true }
  | .traceTake _ => { ltk := true, hmg := true, rep := true, pass := true }
  | .holdPlace _ _ | .holdRead _ | .holdClaim _ | .holdUnclaim _ | .instructionPost _ _ | .findingPost _ _
  | .findingRead _ => { ltk := true, rep := true }
  | .cellHome _ | .cellClear _ => { scc := true, rep := true }
  | .cellAbort _ => { ltk := true, scc := true, rep := true }
  | .headClear _ => { ine := true }
  | .lampSet _ => { ctc := true, rep := true }
  | .storeRead _ _ | .storeWrite _ _ | .recipeCheck _ => { rsc := true, req := true }

/-- The parts that a command can change before the part settles; `none` for POR, for the frames (they run the row that
they carry) and for the ends of accesses. -/
def partsOf (c : Instr) : Option Blocks :=
  match c with
  | .por _ | .frameValid _ _ | .heldFrameScreen | .storeAccessEnd | .storeAccessTimeout => none
  | .emergencyStop =>
    some { ltk := true, ine := true, scc := true, ctc := true, rep := true, mode := true, estop := true }
  | .emergencyStopRelease => some { estop := true }
  | .frameDiscard _ _ _ | .hostTxDone | .benchTxDone => some { link := true }
  | .rxGapTimeout _ => some { link := true, clock := true }
  | .benchSilenceExpiry => some { ltk := true, rep := true, link := true, clock := true }
  | .storeGrant => some { ltk := true, rsc := true, req := true, scc := true, rep := true, link := true }
  | .loadEntryClear | .sourceCleared _ | .doneCarrierLifted _ => some { ltk := true }
  | .loadArrival | .carrierSetBack _ => some { ltk := true, rep := true }
  | .tagReadAttemptEnd _ _ => some
    { ltk := true, rsc := true, ine := true, scc := true, ctc := true, hmg := true, rep := true, mode := true, pass := true }
  | .tagWriteAttemptEnd _ _ => some { ltk := true, ctc := true, hmg := true, rep := true }
  | .moveBegin _ => some { ltk := true, ine := true, scc := true }
  | .moveEnd _ | .exitTransferEnd => some { ltk := true, ctc := true, hmg := true }
  | .transportTimeout _ =>
    some { ltk := true, ine := true, scc := true, ctc := true, rep := true, mode := true, clock := true }
  | .carrierMissing _ => some { ltk := true, ine := true, scc := true, ctc := true, rep := true, mode := true }
  | .carrierLifted _ => some { ltk := true, hmg := true, rep := true }
  | .benchMoveStart => some { ltk := true, ine := true, scc := true, hmg := true }
  | .walkStart _ | .channelResult _ _ _ => some { ltk := true, ine := true, ctc := true, hmg := true, rep := true }
  | .positionerArrival _ _ => some { ine := true }
  | .inspectPositionTimeout _ => some { ine := true, rep := true, clock := true }
  | .groupWaitExpiry _ | .resultTimerExpiry _ _ =>
    some { ltk := true, ine := true, ctc := true, hmg := true, rep := true, clock := true }
  | .homeReached _ | .programStart _ => some { scc := true, rep := true }
  | .homeTimeout _ => some { scc := true, rep := true, clock := true }
  | .seekEnd _ | .gantryHaltReport _ _ _ _ => some { scc := true }
  | .leadTimerExpiry _ | .valveCloseTimer _ => some { scc := true, clock := true }
  | .motionEnd _ | .valveFault _ => some { ltk := true, scc := true, rep := true }
  | .gantryTimeout _ | .starveLimit _ => some { ltk := true, scc := true, rep := true, clock := true }
  | .entryTransferStart => some { ltk := true, ine := true, scc := true, ctc := true }
  | .laneEntryEnd _ => some { ltk := true, ctc := true, rep := true }
  | .encoderPulse _ | .exitTransferStart => some { ltk := true, ine := true, scc := true, ctc := true, rep := true }
  | .uvSample _ => some { ltk := true, ctc := true, rep := true, clock := true }
  | .thermalSample _ =>
    some { ltk := true, ine := true, scc := true, ctc := true, rep := true, mode := true, clock := true }
  | .warmUpEnd => some { ctc := true, rep := true, clock := true }
  | .ballastFault => some { ctc := true, rep := true }
  | .ballastFaultInactive => some { ctc := true }
  | .identify _ _ | .lineStatus _ _ | .lineModeSet _ _ _ | .resume _ _ | .lineConfig _ _ _ _ | .lineClear _ _
  | .faultRead _ _ | .faultAck _ _ _ | .admitCarrier _ _ _ _ _ | .remove _ _ _ | .markClear _ _ _ | .carrierRead _ _ _
  | .traceTake _ _ _ | .holdPlace _ _ _ _ | .holdRead _ _ _ | .holdClaim _ _ _ | .holdUnclaim _ _ _
  | .instructionPost _ _ _ _ | .findingPost _ _ _ _ | .findingRead _ _ _ | .benchList _ _ | .holdDispose _ _ _ _
  | .cellHome _ _ _ | .cellAbort _ _ _ | .cellClear _ _ _ | .headClear _ _ _ | .lampSet _ _ _ | .storeRead _ _ _ _
  | .storeWrite _ _ _ _ | .recipeCheck _ _ _ | .slotList _ _ =>
    c.request?.map fun q => { partsOfRequest q.2.2 with link := true }

/-! ## Stops -/

/-- The access in progress lies in the store, whenever there is one. -/
def State.portInStore (s : State) : Bool :=
  match s.rsc.port with
  | some a => a.op.inStore
  | none => true

end Sys2Proof.Machine
end

