-- ==== Sys2Proof/Certificates/Slice0/Obligations.lean ====
section
/-! DEFINITION. The statements for the provers. Each says what the rules of spec/ that it cites say of the model; where a
statement rests on a choice of the model, its docstring names the log entry. -/

open Sys2Proof Sys2Proof.Machine

/-! ## The whole part -/

/-- The command at the front of the queue runs on the state with the queue's rest. On an empty queue one ms passes and
nothing else happens: the model's choice (log 3) under R173's clock. -/
def Obligations.StepRunsTheFrontCommand : Prop :=
  (∀ (c : Instr) (rest : List Instr) (s : State), s.pending = c :: rest → step s = exec c { s with pending := rest }) ∧
  (∀ s : State, s.pending = [] → step s = .next { s with lmf := { s.lmf with clock := s.lmf.clock + 1 } })

/-- What follows every command (R73, R181, R184): a cell's fetcher asks when a program is in progress, the slot at the
fill pointer is empty, segments remain and no fetch is out; a free Host transmitter takes the oldest reply, otherwise the
oldest report with the lost count, which becomes 0. It does so once, at the command's end (log 49, DESIGN CHOICE). Nothing
else changes. -/
def Obligations.SettlingAsksAndSends : Prop :=
  ∀ s : State,
    OnlyIn { scc := true, rep := true, link := true } s s.settle ∧ s.settle.lmf = s.lmf ∧
    (∀ c, s.settle.cell c =
      match (s.cell c).program with
      | some p =>
        if ((s.cell c).state = .priming ∨ (s.cell c).state = .running ∨ (s.cell c).state = .starved)
          ∧ (s.cell c).buffer[(s.cell c).fill] = none ∧ (s.cell c).fetchIndex < p.count ∧ (s.cell c).fetch = .none
        then { s.cell c with fetch := .waiting } else s.cell c
      | none => s.cell c) ∧
    s.settle.liu =
      match s.liu.hostTx, s.liu.replies, s.liu.reports with
      | some _, _, _ => s.liu
      | none, r :: rs, _ => { s.liu with hostTx := some (.reply r), replies := rs }
      | none, [], r :: rs =>
        { s.liu with
          hostTx := some (.report s.liu.lost r), reports := rs, lost := 0
          full := if rs.length < 32 then false else s.liu.full }
      | none, [], [] => s.liu

/-- The model's choices: an access that reaches beyond byte 262,143, the last of the store (R26), stops at its end or
timeout by the fault storeRange (log 30); every other command, in every state, goes on to a next state; that a command
whose conditions do not hold goes on too is log 2. -/
def Obligations.OnlyAccessesBeyondTheStoreStop : Prop :=
  ∀ (c : Instr) (s : State),
    if (c = .storeAccessEnd ∨ c = .storeAccessTimeout) ∧
        ∃ a, s.rsc.port = some a ∧ 262144 < a.op.range.1 + a.op.range.2
    then exec c s = .fault .storeRange
    else ∃ t, exec c s = .next t

/-- A command leaves the queue of waiting commands as it is, and every byte of the store too, but for POR and the ends
of accesses. The frame of the commands: beside what the part does as it settles, a command changes at most the parts
that `partsOf` lists for it. -/
def Obligations.CommandsKeepTheirFrames : Prop :=
  (∀ (c : Instr) (s t : State), exec c s = .next t →
     t.pending = s.pending ∧
     ((∀ f, c ≠ .por f) → c ≠ .storeAccessEnd → c ≠ .storeAccessTimeout →
       (∀ a, storeGet t.store a = storeGet s.store a) ∧ t.freeCount = s.freeCount)) ∧
  (∀ (c : Instr) (b : Blocks) (s t : State), partsOf c = some b → exec c s = .next t →
     ∃ u, t = u.settle ∧ OnlyIn b s u)

/-- The reset state keeps every law that the steps are stated to keep. -/
def Obligations.ResetKeepsTheLaws : Prop :=
  storeWf State.reset.store = true ∧ BoundLaw State.reset ∧ RecordLaw State.reset ∧ CellLaw State.reset ∧
    State.reset.ctc.shutterOpen = false

/-- The store's list keeps its canonical form in every step. The Report Queue, the lost count, the reply store and the
lanes keep their limits in every step (R183, R178, R106). Every record keeps its limits in every step (R10, R133,
R141, R156, R161). -/
def Obligations.StepsKeepTheLimits : Prop :=
  (∀ s t : State, storeWf s.store = true → step s = .next t → storeWf t.store = true) ∧
  (∀ s t : State, BoundLaw s → step s = .next t → BoundLaw t) ∧
  (∀ s t : State, RecordLaw s → step s = .next t → RecordLaw t)

/-- Every step keeps the ties between program, execution and valve (R78, R83, R89, R91): the valve is never left open
outside the LEAD and MOTION of a segment that sprays. -/
def Obligations.StepsKeepTheValveLaw : Prop :=
  ∀ s t : State, CellLaw s → step s = .next t → CellLaw t

/-- The shutter is commanded open exactly when the lamp is READY or LOW and the line mode is not STOP: at reset, and
from every state where it is so, after every step. While it is closed the irradiance used for dose is 0, otherwise it is
the measured irradiance (R118). -/
def Obligations.ShutterFollowsLampAndMode : Prop :=
  let law (s : State) : Prop :=
    s.ctc.shutterOpen = true ↔ (s.ctc.lamp.state = .ready ∨ s.ctc.lamp.state = .low) ∧ s.lmf.mode ≠ .stop
  law State.reset ∧ (∀ s t : State, law s → step s = .next t → law t) ∧
    ∀ s : State, s.doseIrradiance = if s.ctc.shutterOpen then s.ctc.measured else 0

/-- From states whose records keep their limits, no command but a HOLD_DISPOSE with STRIP lowers a dose of a record that
stays in use (R133). A frame is excepted as it can carry that row. -/
def Obligations.DosesNeverDecrease : Prop :=
  ∀ (c : Instr) (s t : State) (i : RecIx) (r r' : CarrierRecord),
    RecordLaw s → exec c s = .next t →
    (∀ l bytes, c ≠ .frameValid l bytes) → c ≠ .heldFrameScreen → (∀ l tag ix, c ≠ .holdDispose l tag ix 0x05) →
    s.rec? i = some r → t.rec? i = some r' →
    r.thermalDose ≤ r'.thermalDose ∧ r.uvDose ≤ r'.uvDose

/-! ## Power and inputs -/

/-- POR (R172, R27, R46, R66, R106, R115, R120, R163, R170, R173, R176, R178, R183, R186): every record FREE, every slot
EMPTY, the heads IDLE, the cells UNHOMED with their gantries unknown and their valves shut, the lanes NONE and STOPPED,
the lamp OFF with the shutter closed, the mode IDLE at line time 0, the links at rest, and the first header grant of
start-up due. The model's choices: the inputs keep their levels and no tag read or write is in progress (log 5), the store
keeps its bytes (log 7) but for those of a page write in progress (log 8). -/
def Obligations.PowerOnResets : Prop :=
  ∀ (fast : Bool) (s : State), ∃ u : State,
    exec (.por fast) s = .next u.settle ∧ u.pending = s.pending ∧
    (∀ i, u.rec? i = none) ∧ u.ltk.moves = [] ∧ u.ltk.loadEntry = none ∧ u.ltk.reads = [] ∧ u.ltk.writes = [] ∧
    u.ltk.sensors = s.ltk.sensors ∧
    (∀ k : SlotIx, u.rsc.slots[k] = .empty) ∧ u.rsc.loadList = [] ∧ u.rsc.walk = none ∧ u.rsc.port = none ∧
    u.rsc.hostReq = none ∧ u.rsc.lastFetch = .b ∧ (∃ v, u.rsc.startUp = some v ∧ v.directory = false ∧ v.grant = 0) ∧
    (∀ h, (u.head h).state = .idle ∧ (u.head h).walk = none ∧ (u.head h).given = none ∧ (u.head h).posTimer = none) ∧
    (∀ c, (u.cell c).state = .unhomed ∧ (u.cell c).gantry = none ∧ (u.cell c).program = none ∧
      (u.cell c).runMark = none ∧ (u.cell c).fetch = .none ∧ (u.cell c).valveOpen = false) ∧
    (∀ l, (u.lane l).cls = none ∧ (u.lane l).bound = 0 ∧ (u.lane l).order = [] ∧ (u.lane l).state = .stopped) ∧
    u.ctc.waiting = none ∧ u.ctc.wetQueue = [] ∧ u.ctc.exitHolder = none ∧ u.ctc.lamp.state = .off ∧
    u.ctc.lamp.ballastFault = s.ctc.lamp.ballastFault ∧ u.ctc.shutterOpen = false ∧
    (∀ z : ZoneIx, u.ctc.zones[z].cond = .normal ∧ u.ctc.zones[z].temp = none) ∧
    (∀ n : BenchIx, u.hmg.bench[n] = none) ∧ u.hmg.queue = [] ∧
    u.lmf.mode = .idle ∧ u.lmf.clock = 0 ∧ u.lmf.estop = s.lmf.estop ∧ u.lmf.record = FaultRecord.clear ∧
    u.liu.hostRx = .hunt ∧ u.liu.benchRx = .hunt ∧ u.liu.hostFast = fast ∧ u.liu.replies = [] ∧ u.liu.held = none ∧
    u.liu.hostTx = none ∧ u.liu.benchTx = none ∧ u.liu.reports = [] ∧ u.liu.lost = 0 ∧ u.liu.full = false ∧
    u.liu.online = false ∧ u.liu.silence = none ∧
    ∀ a, (∀ v, s.rsc.port = some v → ∀ o data, v.op = .write o data → a < o ∨ o + data.length ≤ a) →
      storeGet u.store a = storeGet s.store a

/-- EMERGENCY_STOP (R165, R166, R90, R63, R4, R118): after start-up, the input's becoming active takes the line to STOP;
every cell is UNHOMED with its gantry unknown, its valve shut and no program, no head walks, every move is halted where
it is, both lanes are STOPPED and the shutter is closed. In STOP already, the cells are unhomed all the same. The slots,
the live configuration and the Hold Manager stay as they are. -/
def Obligations.EmergencyStopStops : Prop :=
  ∀ s : State, s.starting = false → s.lmf.estop = false → ∃ u : State,
    exec .emergencyStop s = .next u.settle ∧ u.lmf.estop = true ∧ u.lmf.mode = .stop ∧ u.lmf.clock = s.lmf.clock ∧
    u.rsc = s.rsc ∧ u.hmg = s.hmg ∧
    (∀ c, (u.cell c).state = .unhomed ∧ (u.cell c).gantry = none ∧ (u.cell c).valveOpen = false ∧
      (u.cell c).program = none ∧ (u.cell c).homeTimer = none ∧ (u.cell c).gantryTimer = none) ∧
    (s.lmf.mode ≠ .stop →
      (∀ h, (u.head h).state.walks = false) ∧
      u.ltk.moves = s.ltk.moves.map (fun m => { m with drive := .halted }) ∧
      (∀ l, (u.lane l).state = .stopped ∧ (u.lane l).order = (s.lane l).order) ∧ u.ctc.shutterOpen = false)

/-- The inputs' other events (R166, R172, R116): a release takes the level and changes nothing else; EMERGENCY_STOP
while the input is active already changes nothing, and during start-up it takes the level alone (logs 5 and 32).
HOST_TX_DONE and BENCH_TX_DONE (R181, R182): the transmitter is free, one HOST_TX_DONE ending a reply's whole series of
frames (log 14). -/
def Obligations.InputsAndTransmittersOnlyTakeTheirLevel : Prop :=
  (∀ s : State,
     exec .emergencyStopRelease s = .next { s with lmf := { s.lmf with estop := false } }.settle ∧
     exec .ballastFaultInactive s =
       .next { s with ctc := { s.ctc with lamp := { s.ctc.lamp with ballastFault := false } } }.settle ∧
     (s.lmf.estop = true → exec .emergencyStop s = .next s.settle) ∧
     (s.lmf.estop = false → s.starting = true →
       exec .emergencyStop s = .next { s with lmf := { s.lmf with estop := true } }.settle)) ∧
  (∀ s : State,
     exec .hostTxDone s = .next { s with liu := { s.liu with hostTx := none } }.settle ∧
     exec .benchTxDone s = .next { s with liu := { s.liu with benchTx := none } }.settle)

/-! ## The links -/

/-- FRAME_VALID (R177, R188, R190): the bytes of the frame that carries a request, received by a receiver that hunts, have
the effect of the request's row: a row stands for its frame received whole (log 29), and FRAME_VALID carries the bytes that
the receiver takes one by one (log 28). -/
def Obligations.FrameRunsTheRequestItCarries : Prop :=
  ∀ (c : Instr) (l : Link) (tag : Byte) (r : Request) (s : State),
    c.request? = some (l, tag, r) → r.lengthOk = true → s.rx l = .hunt →
    exec (.frameValid l (frameOf tag r).bytes) s = exec c s

/-- FRAME_VALID for any frame of 0 to 240 body bytes after start-up (R177, R179, R186): on a free Host Link, or on the
Bench Link while the V24 does not transmit, a kind of 0x80 and above is given no reply and an unassigned kind below is
answered UNKNOWN_KIND; on the Bench Link the presence is ONLINE with its 30 s timer. FRAME_DISCARD and RX_GAP_TIMEOUT
(R177, R186): a discarded frame leaves its receiver in HUNT and changes nothing else. A gap's end brings the line
clock to 21 ms after the last byte, unless it is there already (log 3). -/
def Obligations.FramesOfNoRequestAreDropped : Prop :=
  (∀ (s : State) (l : Link) (f : Frame), s.hears l = true → s.rx l = .hunt → f.body.length ≤ 240 →
     f.kind ∉ requestKinds →
     exec (.frameValid l f.bytes) s =
       if 0x80 ≤ f.kind.toNat then .next (s.heard l).settle
       else .next ((s.heard l).sendReply l { kind := f.kind, tag := f.tag, status := .unknownKind, data := [] }).settle) ∧
  (∀ (s : State) (l : Link),
     (∀ bytes, s.deaf l = false → exec (.frameDiscard l bytes true) s = .next (s.setRx l .hunt).settle) ∧
     (∀ len got b early last, s.deaf l = false → s.rx l = .body early last len got → s.since last ≤ 20 →
       got.length + 1 = len.toNat + 2 → frameIn len (got ++ [b]) = none →
       exec (.frameDiscard l [b] false) s = .next (s.setRx l .hunt).settle) ∧
     (∀ b early last, s.deaf l = false → s.rx l = .length early last → s.since last ≤ 20 → (b.toNat < 2 ∨ 242 < b.toNat) →
       exec (.frameDiscard l [b] false) s = .next (s.setRx l .hunt).settle) ∧
     (∀ last, (s.rx l).last = some last →
       exec (.rxGapTimeout l) s = .next ((s.reach last 21).setRx l .hunt).settle))

/-- The reply store (R178): while four places are taken, a valid Host frame is held and answered by nothing; while a frame
is held, a further one is discarded; when a place is free, the held frame is screened as it would have been, and so a held
LINE_STATUS is answered with its data. Without a held frame, or without a place, nothing is screened (log 2). -/
def Obligations.FullReplyStoreHoldsOneFrame : Prop :=
  ∀ (c : Instr) (tag : Byte) (r : Request) (s : State), c.request? = some (.host, tag, r) → r.lengthOk = true →
    s.starting = false →
    let screened : State := { s with liu := { s.liu with held := none } }
    (s.liu.held = none → 4 ≤ s.placesTaken →
      exec c s = .next { s with liu := { s.liu with held := some (frameOf tag r) } }.settle) ∧
    (s.liu.held.isSome = true → exec c s = .next s.settle) ∧
    (s.liu.held = some (frameOf tag r) → s.placesTaken < 4 → exec .heldFrameScreen s = exec c screened) ∧
    (s.liu.held = some (frameOf tag .lineStatus) → s.placesTaken < 4 →
      exec .heldFrameScreen s = .next (screened.answers .host tag .lineStatus .ok s.eStatusReply).settle) ∧
    (s.liu.held.isSome = true → 4 ≤ s.placesTaken → exec .heldFrameScreen s = .next s.settle) ∧
    (s.liu.held = none → exec .heldFrameScreen s = .next s.settle)

/-- A request is given no reply and has no effect until start-up ends, and on the Bench Link while the V24 transmits
(R172, R176). Screening (R179, R180): a request that its link does not carry is answered NOT_PERMITTED, then a body of a
wrong length BAD_LENGTH (R190; so too an ADMIT whose serial has not 1..20 bytes and an INSTRUCTION_POST or FINDING_POST
whose text has not 1..48 bytes, which R12, R152 and R153 answer with BAD_VALUE; log 11, DEDUCED), a value out of its
range BAD_VALUE, and, on the Host Link while another request is in execution, all but LINE_STATUS, FAULT_READ and
LINE_MODE_SET to STOP BUSY. None of these changes anything but for the reply. -/
def Obligations.ScreeningRefusesInOrder : Prop :=
  (∀ (c : Instr) (l : Link) (tag : Byte) (r : Request) (s : State), c.request? = some (l, tag, r) →
     (s.starting = true ∨ (l = .bench ∧ s.liu.benchTx.isSome = true)) → exec c s = .next s.settle) ∧
  (∀ (c : Instr) (l : Link) (tag : Byte) (r : Request) (s : State), c.request? = some (l, tag, r) → s.hears l = true →
     (carries l (kindOf r) = false → exec c s = .next ((s.heard l).answers l tag r .notPermitted []).settle) ∧
     (carries l (kindOf r) = true → r.lengthOk = false →
       exec c s = .next ((s.heard l).answers l tag r .badLength []).settle) ∧
     (carries l (kindOf r) = true → r.lengthOk = true → rangesOk r = false →
       exec c s = .next ((s.heard l).answers l tag r .badValue []).settle) ∧
     (l = .host → wellAsked l r = true → s.rsc.hostReq.isSome = true →
       r ≠ .lineStatus → r ≠ .faultRead → r ≠ .lineModeSet 0x03 →
       exec c s = .next (s.answers l tag r .busy []).settle))

/-- BENCH_SILENCE_EXPIRY (R186, R151): the presence becomes SILENT, the timer stops, and every BENCH_LINK claim of a record
in LOADING, WAIT_LANE or ACTIVE is dropped; claims of the Host Link and every other part of a record stay. Without a
running timer nothing happens (log 2). The HOLD_CHANGED (CLAIM) reports are not stated here. -/
def Obligations.SilenceDropsBenchClaims : Prop :=
  ∀ s : State,
    (s.liu.silence = none → exec .benchSilenceExpiry s = .next s.settle) ∧
    ∀ t, s.liu.silence = some t → ∃ u : State,
      exec .benchSilenceExpiry s = .next u.settle ∧ OnlyIn { ltk := true, rep := true, link := true, clock := true } s u ∧
      u.liu.online = false ∧ u.liu.silence = none ∧ u.liu.replies = s.liu.replies ∧
      ∀ i, u.rec? i =
        match s.live? i with
        | some r => some { r with hold := r.hold.map fun h => if h.claim = some .bench then { h with claim := none } else h }
        | none => s.rec? i

/-- The Report Queue and its lost count (R183, R185): below 32 a report is placed at the end; at 32 it is discarded and the
lost count rises by 1 up to 255. The first discard while the full flag is clear sets the flag and notes REPORT_LOST of
the LIU in the fault record, and its own report counts as lost too; the line mode stays. -/
def Obligations.FullQueueCountsLostReports : Prop :=
  ∀ (s : State) (b : ReportBody),
    (s.liu.reports.length < 32 →
      s.queueReport b = { s with liu := { s.liu with reports := s.liu.reports ++ [{ time := s.now, body := b }] } }) ∧
    (32 ≤ s.liu.reports.length → s.liu.full = true →
      s.queueReport b = { s with liu := { s.liu with lost := min (s.liu.lost + 1) 255 } }) ∧
    (32 ≤ s.liu.reports.length → s.liu.full = false →
      s.queueReport b =
        { s with
          liu := { s.liu with lost := min (s.liu.lost + 2) 255, full := true }
          lmf := { s.lmf with record := { s.lmf.record with
            nonfatal := true
            lastNonfatal := some { code := .reportLost, origin := .liu, time := s.now, detail := {} } } } })

/-! ## Requests of the line -/

/-- The requests that only read (R174, R171, R25, R44, R154): the reply carries the data and nothing else changes.
LINE_STATUS and FAULT_READ are served while another request is in execution, too. The bytes of the data follow log 12
(SLOT_LIST's eight slots without a count, the forms of LINE_STATUS), and BENCH_LIST's DONE records log 23; those of
LINE_STATUS, FAULT_READ, CARRIER_READ and BENCH_LIST are named by the model's encoders. -/
def Obligations.ReadingRequestsOnlyReply : Prop :=
  ∀ (s : State) (tag index : Byte) (i : RecIx), index.toNat = i.val →
    (s.hears .host = true →
      exec (.lineStatus .host tag) s = .next (s.answers .host tag .lineStatus .ok s.eStatusReply).settle ∧
      exec (.faultRead .host tag) s = .next (s.answers .host tag .faultRead .ok (eFaultRecord s.lmf.record)).settle) ∧
    (s.takesRequest .host = true →
      exec (.carrierRead .host tag index) s =
        .next (s.answers .host tag (.carrierRead index) .ok (eCarrier (s.rec? i))).settle ∧
      exec (.slotList .host tag) s =
        .next (s.answers .host tag .slotList .ok (slotIxs.flatMap s.eSlotEntry ++ e8 (storeStateCode s.rsc.storeState)
          ++ e16 s.rsc.lockBoundary ++ e8 s.rsc.qCount)).settle) ∧
    (s.hears .bench = true →
      exec (.benchList .bench tag) s =
        .next (s.benchHeard.answers .bench tag .benchList .ok (eList id s.benchEntries)).settle)

/-- IDENTIFY (R175): in every mode, under the busy rule, it changes nothing and its reply OK carries the vendor code
0F3A, the part code 0B24, the revision 01 and the store state; the Bench Link does not carry it. -/
def Obligations.IdentifyCarriesTheCodes : Prop :=
  ∀ (s : State) (tag : Byte),
    (s.hears .host = true → s.rsc.hostReq = none →
      exec (.identify .host tag) s =
        .next (s.answers .host tag .identify .ok
          [0x0F, 0x3A, 0x0B, 0x24, 0x01, match s.rsc.storeState with
            | .blank => 0
            | .opened => 1
            | .guarded => 2]).settle) ∧
    (s.hears .host = true → s.rsc.hostReq.isSome = true →
      exec (.identify .host tag) s = .next (s.answers .host tag .identify .busy []).settle) ∧
    (s.hears .bench = true →
      exec (.identify .bench tag) s = .next (s.benchHeard.answers .bench tag .identify .notPermitted []).settle)

/-- LINE_MODE_SET (R164): the table of the present mode and the mode asked for; a value that is no mode is refused with
BAD_VALUE; STOP is served while another request is in execution, the others under the busy rule; the Bench Link does not
carry it. What a change of mode does to the blocks is `Obligations.ModeChangesReachTheBlocks`. -/
def Obligations.ModeSetFollowsTheTable : Prop :=
  ∀ (s : State) (tag m : Byte),
    (s.hears .bench = true →
      exec (.lineModeSet .bench tag m) s =
        .next (s.benchHeard.answers .bench tag (.lineModeSet m) .notPermitted []).settle) ∧
    (s.hears .host = true →
      let reply (u : State) (st : ReplyStatus) : Prop :=
        exec (.lineModeSet .host tag m) s = .next (u.answers .host tag (.lineModeSet m) st []).settle
      let free (p : Prop) : Prop := if s.rsc.hostReq.isSome = true then reply s .busy else p
      (3 < m.toNat → reply s .badValue) ∧
      (m = 0x03 → reply (s.setMode .stop .lineModeSet) .ok) ∧
      (m = 0x00 → free (match s.lmf.mode with
        | .idle => reply s .ok
        | .run | .stop => reply s .wrongMode
        | .pause =>
          if ∃ i r, s.rec? i = some r ∧ r.status.isLive = true then reply s .inUse
          else reply (s.setMode .idle .lineModeSet) .ok)) ∧
      (m = 0x01 → free (match s.lmf.mode with
        | .idle => if s.rsc.storeState = .blank then reply s .storeBlank else reply (s.setMode .run .lineModeSet) .ok
        | .run => reply s .ok
        | .pause => reply (s.setMode .run .lineModeSet) .ok
        | .stop => reply s .wrongMode)) ∧
      (m = 0x02 → free (match s.lmf.mode with
        | .idle | .stop => reply s .wrongMode
        | .run => reply (s.setMode .pause .lineModeSet) .ok
        | .pause => reply s .ok)))

/-- A change of the line mode (R163, R3, R4, R63, R89, R113, R118, R127): the mode is written and LINE_MODE queued; at STOP
every move is halted, no head walks, no cell has a program and none is HOMING; at RUN (R3), and from STOP to PAUSE, the
halted and timed-out moves are driven again with a fresh 20 s timer, which for the timed-out ones from STOP to PAUSE is log
26; the lanes are STOPPED in IDLE and STOP, otherwise BLOCKED with their front at the exit and RUNNING without, and the belts
are commanded with them; the shutter follows. -/
def Obligations.ModeChangesReachTheBlocks : Prop :=
  ∀ (s : State) (m : LineMode) (cause : ModeCause), s.lmf.mode ≠ m →
    let u := s.setMode m cause
    OnlyIn { ltk := true, ine := true, scc := true, ctc := true, rep := true, mode := true } s u ∧ u.lmf.mode = m ∧
    (s.liu.reports.length < 32 → ∃ rest, u.liu.reports =
      s.liu.reports ++ { time := s.now, body := .lineMode m s.lmf.mode s.now cause } :: rest) ∧
    u.ctc.shutterOpen = ((s.ctc.lamp.state = .ready ∨ s.ctc.lamp.state = .low) ∧ m ≠ .stop : Bool) ∧
    (∀ l, (u.lane l).state =
      if m = .idle ∨ m = .stop then .stopped else if u.frontAtExit l then .blocked else .running) ∧
    (∀ l, BeltByRule (u.lane l)) ∧
    (m = .stop →
      u.ltk.moves = s.ltk.moves.map (fun v => { v with drive := .halted }) ∧ (∀ h, (u.head h).state.walks = false) ∧
      ∀ c, (u.cell c).program = none ∧ (u.cell c).state ≠ .homing) ∧
    (m = .run ∨ (m = .pause ∧ s.lmf.mode = .stop) →
      u.ltk.moves = s.ltk.moves.map fun v =>
        match v.drive with
        | .driven _ => v
        | .timedOut | .halted => { v with drive := .driven { since := s.now, ms := 20000 } }) ∧
    (m = .idle ∨ (m = .pause ∧ s.lmf.mode ≠ .stop) → u.ltk = s.ltk) ∧
    (m ≠ .stop → u.ine = s.ine ∧ u.scc = s.scc)

/-- How a line mode is left (R163 to R167). STOP is left only by RESUME, to PAUSE, or by POR; IDLE is entered only from PAUSE
by LINE_MODE_SET IDLE while every record is FREE or DONE, or by POR; RUN is entered only from IDLE or PAUSE by LINE_MODE_SET
RUN. A frame has the effect of the request that it carries (`Obligations.FrameRunsTheRequestItCarries`) and is excepted. -/
def Obligations.ModesAreLeftOnlyByTheirRequests : Prop :=
  ∀ (c : Instr) (s t : State), exec c s = .next t →
    (∀ f, c ≠ .por f) → (∀ l bytes, c ≠ .frameValid l bytes) → c ≠ .heldFrameScreen →
    (s.lmf.mode = .stop → t.lmf.mode ≠ .stop → t.lmf.mode = .pause ∧ ∃ tag, c = .resume .host tag) ∧
    (t.lmf.mode = .idle → s.lmf.mode ≠ .idle →
      s.lmf.mode = .pause ∧ (∀ i r, s.rec? i = some r → r.status.isLive = false) ∧ ∃ tag, c = .lineModeSet .host tag 0x00) ∧
    (t.lmf.mode = .run → s.lmf.mode ≠ .run →
      (s.lmf.mode = .idle ∨ s.lmf.mode = .pause) ∧ ∃ tag, c = .lineModeSet .host tag 0x01)

/-- RESUME (R167): refused with WRONG_MODE outside STOP; in STOP refused with NOT_CLEAR while the emergency-stop input is
active, the FATAL flag is set, or a zone is LOST or above 2,300, with the three named in the bytes of log 12; otherwise PAUSE. -/
def Obligations.ResumeNeedsAClearLine : Prop :=
  ∀ (s : State) (tag : Byte), s.takesRequest .host = true →
    let fatal := ∃ z : ZoneIx, s.ctc.zones[z].cond = .lost ∨ ∃ t, s.ctc.zones[z].temp = some t ∧ 2300 < t
    (s.lmf.mode ≠ .stop → exec (.resume .host tag) s = .next (s.answers .host tag .resume .wrongMode []).settle) ∧
    (s.lmf.mode = .stop → (s.lmf.estop = true ∨ s.lmf.record.fatal = true ∨ fatal) →
      exec (.resume .host tag) s = .next (s.answers .host tag .resume .notClear
        ([BitVec.ofNat 8 s.lmf.estop.toNat, BitVec.ofNat 8 s.lmf.record.fatal.toNat] ++ s.eFatal)).settle) ∧
    (s.lmf.mode = .stop → s.lmf.estop = false → s.lmf.record.fatal = false → ¬ fatal →
      exec (.resume .host tag) s = .next ((s.setMode .pause .resume).answers .host tag .resume .ok []).settle)

/-- LINE_CONFIG (R168): outside its ranges refused with BAD_VALUE, in RUN, PAUSE and STOP with WRONG_MODE; in IDLE
both values replace those of the live configuration, and nothing else changes but for the reply. FAULT_ACK (R171): an
empty set is refused with BAD_VALUE (as is a set with a bit beyond FATAL's); otherwise the flags of the classes named
are cleared, with FATAL the first-FATAL entry too, and the last-fault entries are kept. -/
def Obligations.LineConfigAndFaultAck : Prop :=
  (∀ (s : State) (tag x : Byte) (lo : BitVec 16), s.takesRequest .host = true →
     let r : Request := .lineConfig x lo
     let ok := (1 ≤ x.toNat ∧ x.toNat ≤ 4) ∧ 1 ≤ lo.toNat ∧ lo.toNat ≤ 2000
     (¬ ok → exec (.lineConfig .host tag x lo) s = .next (s.answers .host tag r .badValue []).settle) ∧
     (ok → s.lmf.mode ≠ .idle → exec (.lineConfig .host tag x lo) s = .next (s.answers .host tag r .wrongMode []).settle) ∧
     (ok → s.lmf.mode = .idle →
       exec (.lineConfig .host tag x lo) s =
         .next (({ s with rsc := { s.rsc with live :=
           { s.rsc.live with nearFull := x.toNat, lampMin := lo.toNat } } } : State).answers .host tag r .ok []).settle)) ∧
  (∀ (s : State) (tag v : Byte), s.takesRequest .host = true →
     ((v = 0 ∨ 8 ≤ v.toNat) →
       exec (.faultAck .host tag v) s = .next (s.answers .host tag (.faultAck v) .badValue []).settle) ∧
     (v ≠ 0 → v.toNat < 8 →
       exec (.faultAck .host tag v) s =
         .next (({ s with lmf := { s.lmf with record :=
           { s.lmf.record with
             correctable := if v.getLsbD 0 then false else s.lmf.record.correctable
             nonfatal := if v.getLsbD 1 then false else s.lmf.record.nonfatal
             fatal := if v.getLsbD 2 then false else s.lmf.record.fatal
             firstFatal := if v.getLsbD 2 then none else s.lmf.record.firstFatal } } } : State).answers .host tag (.faultAck v)
               .ok []).settle))

/-- LINE_CLEAR (R169, R45, R46, R106, R113, R146, R147): outside STOP refused with WRONG_MODE; in STOP every record is
FREE, moves, tag checks in progress (log 43, DESIGN CHOICE) and the LOAD entry are gone, a carrier standing at LOAD is
read afresh as an arrival, otherwise the read of an arrival that has been lifted goes on (R8), no mark write has a result left to take, every use count is 0 (log 31), the waiting loads are
dropped with their slots EMPTY and the load in progress goes on, no head has a walk or a mark, no cell a mark, both
lanes are NONE and STOPPED with nothing bound and their belts stopped, wet queue, arbiter, bench and Bench Queue are
empty. The mode, the cells' states, the lamp, the zones and the live configuration stay, and so does the fault record
while the Report Queue has room for the LANE_STATE reports. -/
def Obligations.LineClearEmptiesTheLine : Prop :=
  ∀ (s : State) (tag : Byte), s.takesRequest .host = true →
    (s.lmf.mode ≠ .stop → exec (.lineClear .host tag) s = .next (s.answers .host tag .lineClear .wrongMode []).settle) ∧
    (s.lmf.mode = .stop → ∃ u : State,
      exec (.lineClear .host tag) s = .next (u.answers .host tag .lineClear .ok []).settle ∧
      u.lmf.mode = s.lmf.mode ∧ u.lmf.clock = s.lmf.clock ∧ u.lmf.estop = s.lmf.estop ∧ u.liu.rest = s.liu.rest ∧
      (s.liu.reports.length < 31 → u.lmf.record = s.lmf.record) ∧
      (∀ i, u.rec? i = none) ∧ u.ltk.moves = [] ∧ u.ltk.loadEntry = none ∧ u.ltk.sensors = s.ltk.sensors ∧
      u.ltk.reads = (if s.present .load then [{ place := .load, why := .arrival, attempt := 1 }]
        else s.ltk.reads.filter fun j => decide (j.place = .load ∧ j.why = .arrival)) ∧
      (∀ w ∈ u.ltk.writes, ∀ i, w.why ≠ .holdMark i true ∧ ∀ d, w.why ≠ .reentry i (some d)) ∧
      (let dropped := if s.rsc.walk.isSome then s.rsc.loadList.tail else s.rsc.loadList
       u.rsc.walk = s.rsc.walk ∧ u.rsc.loadList = (if s.rsc.walk.isSome then s.rsc.loadList.take 1 else []) ∧
       ∀ k : SlotIx, u.rsc.slots[k] =
         match s.rsc.slots[k] with
         | .empty => .empty
         | .loading h => if k ∈ dropped then .empty else .loading { h with use := 0 }
         | .valid h q p => .valid { h with use := 0 } q p) ∧
      u.rsc.live = s.rsc.live ∧ u.rsc.port = s.rsc.port ∧ u.rsc.storeState = s.rsc.storeState ∧ u.rsc.dir = s.rsc.dir ∧
      (∀ h, (u.head h).walk = none ∧ (u.head h).given = none ∧ (u.head h).state = (s.head h).state) ∧
      (∀ c, u.cell c = { s.cell c with runMark := none }) ∧
      (∀ l, (u.lane l).cls = none ∧ (u.lane l).bound = 0 ∧ (u.lane l).order = [] ∧ (u.lane l).arrival = none ∧
        (u.lane l).lastEntry = none ∧ (u.lane l).state = .stopped ∧ (u.lane l).belt = none) ∧
      u.ctc.waiting = none ∧ u.ctc.wetQueue = [] ∧ u.ctc.exitHolder = none ∧ u.ctc.lamp = s.ctc.lamp ∧
      u.ctc.zones = s.ctc.zones ∧ u.ctc.shutterOpen = s.ctc.shutterOpen ∧
      (∀ n : BenchIx, u.hmg.bench[n] = none) ∧ u.hmg.queue = [])

/-! ## Requests about carriers -/

/-- ADMIT accepted (R12, R6, R37): in RUN, for the LOAD entry's carrier with match NEW that no record has taken, a FREE
record, a store that is not BLANK and a recipe with an entry, the lowest FREE record becomes LOADING with the tag ID,
the serial and the recipe of the request and takes the entry, and the reply carries its index. A recipe that a LOADING
slot holds is joined, its use count one more; otherwise, while a load is in progress, the chosen slot becomes LOADING
with use count 1 at the end of the load list. ADMIT refused (R12): the first check that fails gives the status, and
nothing changes but for the reply. The slots and the record meant are the rules' own (R37, R12). A recipe in a VALID
slot is taken at once: the record is shaped to it and bound under the limit 8 - X for new admissions, or waits for a
lane (R6, R13, R14, R107; the record's values before that, log 46). With no load under way the new one starts, with the directory entry as its first extent, or
fails with RECIPE_BAD where its header would lie outside the store (R38, R33); with no slot to choose it fails with
NO_SLOT. A load that fails frees the record, gives the LOAD entry back, or clears it when LOAD reads clear by then (log
9, DEDUCED from R8 and R12), and queues ADMIT_FAILED (R13). -/
def Obligations.AdmitTakesTheEntryOrRefuses : Prop :=
  (∀ (s : State) (tag n : Byte) (id : TagId) (serial : List Byte) (e : LoadEntry) (t : TagRead) (i : RecIx) (k : SlotIx),
     let c : Request := .admitCarrier id n serial
     s.takesRequest .host = true → wellAsked .host c = true → s.lmf.mode = .run →
     s.ltk.loadEntry = some e → e.tag = some t → t.id = id → e.result = .new → e.takenBy = none →
     s.lowestFree = some i → s.rsc.storeState ≠ .blank → entryEmpty s.rsc.dir n.toNat = false →
     s.residentSlot n.toNat = none →
     (s.loadingSlot n.toNat = some k ∨ (s.loadingSlot n.toNat = none ∧ s.slotForLoad = some k ∧ s.rsc.walk.isSome = true)) →
     ∃ u : State, exec (.admitCarrier .host tag id n serial) s =
         .next (u.answers .host tag c .ok [BitVec.ofNat 8 i.val]).settle ∧
       OnlyIn { ltk := true, rsc := true } s u ∧
       (∃ r, u.ltk = { s.ltk with table := s.ltk.table.set i (some r), loadEntry := some { e with takenBy := some i } } ∧
         r.status = .loading ∧ r.tagId = id ∧ r.serial = serial ∧ r.recipe = n.toNat ∧ r.pass = 1 ∧
         r.position = .standing .load ∧ r.tagCheck = .passed ∧ r.plan = [] ∧ r.thermalDose = 0 ∧ r.uvDose = 0 ∧
         r.peak = none ∧ r.cureUnknown = false ∧ r.cureVerdict = .none ∧ r.hold = none ∧ r.history = [] ∧ r.slot = none ∧
         r.lane = none ∧ r.removalPending = false) ∧
       (∀ j : SlotIx, j ≠ k → u.rsc.slots[j] = s.rsc.slots[j]) ∧
       match s.loadingSlot n.toNat, s.rsc.slots[k] with
       | some _, .loading h =>
         u.rsc.slots[k] = .loading { h with use := h.use + 1, lastUse := s.now } ∧ u.rsc.loadList = s.rsc.loadList
       | _, _ =>
         u.rsc.slots[k] = .loading { recipe := n.toNat, use := 1, lastUse := s.now, extents := [] } ∧
         u.rsc.loadList = s.rsc.loadList ++ [k]) ∧
  (∀ (s : State) (tag n : Byte) (id : TagId) (serial : List Byte),
     let c : Request := .admitCarrier id n serial
     let refused (st : ReplyStatus) : Prop :=
       exec (.admitCarrier .host tag id n serial) s = .next (s.answers .host tag c st []).settle
     let atLoad (m : MatchResult) : Prop :=
       ∃ e t, s.ltk.loadEntry = some e ∧ e.tag = some t ∧ t.id = id ∧ e.takenBy = none ∧ e.result = m
     s.takesRequest .host = true → wellAsked .host c = true →
     (s.lmf.mode ≠ .run → refused .wrongMode) ∧
     (s.lmf.mode = .run → ¬ atLoad .new → ¬ atLoad .marked → refused .notFound) ∧
     (s.lmf.mode = .run → atLoad .marked → refused .marked) ∧
     (s.lmf.mode = .run → atLoad .new → (∀ i, (s.rec? i).isSome = true) → refused .lineFull) ∧
     (s.lmf.mode = .run → atLoad .new → (∃ i, s.rec? i = none) →
       (s.rsc.storeState = .blank → refused .storeBlank) ∧
       (s.rsc.storeState ≠ .blank → entryEmpty s.rsc.dir n.toNat = true → refused .noRecipe))) ∧
  (∀ (s : State) (recipe : Nat) (i : RecIx) (k : SlotIx),
     let age (h : SlotHead) : Nat := (s.now - h.lastUse).toNat
     (s.lowestFree = some i ↔ s.rec? i = none ∧ ∀ j, j < i → (s.rec? j).isSome = true) ∧
     (s.residentSlot recipe = some k → ∃ h q p, s.rsc.slots[k] = .valid h q p ∧ h.recipe = recipe) ∧
     (s.residentSlot recipe = none ↔ ∀ (j : SlotIx) h q p, s.rsc.slots[j] = .valid h q p → h.recipe ≠ recipe) ∧
     (s.loadingSlot recipe = some k → ∃ h, s.rsc.slots[k] = .loading h ∧ h.recipe = recipe) ∧
     (s.loadingSlot recipe = none ↔ ∀ (j : SlotIx) h, s.rsc.slots[j] = .loading h → h.recipe ≠ recipe) ∧
     (s.slotForLoad = some k ↔
       (s.rsc.slots[k] = .empty ∧ ∀ j : SlotIx, j < k → s.rsc.slots[j] ≠ .empty) ∨
       ((∀ j : SlotIx, s.rsc.slots[j] ≠ .empty) ∧ ∃ h q p, s.rsc.slots[k] = .valid h q p ∧ h.use = 0 ∧
         ∀ (j : SlotIx) h' q' p', j ≠ k → s.rsc.slots[j] = .valid h' q' p' → h'.use = 0 →
           age h' < age h ∨ (age h' = age h ∧ k < j)))) ∧
  (∀ (s : State) (tag n : Byte) (id : TagId) (serial : List Byte) (e : LoadEntry) (t : TagRead) (i : RecIx),
     let c : Request := .admitCarrier id n serial
     let taken (u : State) : Prop :=
       exec (.admitCarrier .host tag id n serial) s = .next (u.answers .host tag c .ok [BitVec.ofNat 8 i.val]).settle
     let header := entryOffset s.rsc.dir n.toNat
     let failed (u : State) (why : LoadFailure) : Prop :=
       u.ltk.table = s.ltk.table ∧ u.ltk.loadEntry = (if s.present .load then some e else none) ∧ u.ctc = s.ctc ∧
       (s.liu.reports.length < 32 →
         u.liu.reports = s.liu.reports ++ [{ time := s.now, body := .admitFailed id why }])
     s.takesRequest .host = true → wellAsked .host c = true → s.lmf.mode = .run →
     s.ltk.loadEntry = some e → e.tag = some t → t.id = id → e.result = .new → e.takenBy = none →
     s.lowestFree = some i → s.rsc.storeState ≠ .blank → entryEmpty s.rsc.dir n.toNat = false →
     (∀ (k : SlotIx) (h : SlotHead) (q : Bool) (p : Recipe), s.residentSlot n.toNat = some k → s.rsc.slots[k] = .valid h q p →
       ∃ u, taken u ∧ u.ltk.loadEntry = some { e with takenBy := some i } ∧
         (∀ j : SlotIx, u.rsc.slots[j] =
           if j = k then .valid { h with use := h.use + 1, lastUse := s.now } q p else s.rsc.slots[j]) ∧
         Bound s u i (shapedByRule k q p
           { status := .waitLane, removalPending := false, position := .standing .load, tagCheck := .passed, plan := []
             tagId := id, serial := serial, recipe := n.toNat, slot := none, qualified := false, pass := 1
             maskVerdict := .none, maskPoints := [], zones := [], sprayEnd := none, flowClamps := 0, starves := 0
             keepoutPoints := [], coveragePoints := [], lane := none, posInLane := none, thermalDose := 0, uvDose := 0
             peak := none, entryTime := none, exitTime := none, cureUnknown := false, cureVerdict := .none, hold := none
             history := [] }) (planByRule p) p.cure.speedClass (8 - s.rsc.live.nearFull) .new) ∧
     (s.residentSlot n.toNat = none → s.loadingSlot n.toNat = none →
       (s.slotForLoad = none → ∃ u, taken u ∧ failed u .noSlot ∧ u.rsc = s.rsc) ∧
       ∀ k, s.slotForLoad = some k → s.rsc.walk = none → s.rsc.loadList = [] →
         (512 ≤ header → header + 16 ≤ 262144 → ∃ u, taken u ∧ (∃ r, u.rec? i = some r ∧ r.status = .loading) ∧
           u.rsc.loadList = [k] ∧ u.rsc.walk = some (ChainWalk.begin n.toNat header) ∧
           u.rsc.slots[k] = .loading
             { recipe := n.toNat, use := 1, lastUse := s.now
               extents := [{ offset := 256 + 4 * (n.toNat - 1), length := 4 }] }) ∧
         ((header < 512 ∨ 262144 < header + 16) →
           (∀ j r, s.rec? j = some r → r.status = .loading → r.recipe ≠ n.toNat) →
           ∃ u, taken u ∧ failed u .recipeBad ∧ u.rsc.loadList = [] ∧ u.rsc.walk = none ∧ u.rsc.slots[k] = .empty)))

/-- No two records in use hold the same tag ID (R5), and the LOAD entry agrees with the table: a carrier with match NEW
that no record has taken has a tag ID that no record holds (R9), and a taken entry's tag ID is that of the record that took
it. Reset has this, and every step keeps it. -/
def Obligations.NoTwoRecordsHoldOneTag : Prop :=
  let law (s : State) : Prop :=
    (∀ i j r q, s.rec? i = some r → s.rec? j = some q → r.tagId = q.tagId → i = j) ∧
    (∀ e t, s.ltk.loadEntry = some e → e.tag = some t →
      (e.result = .new → e.takenBy = none → ∀ i r, s.rec? i = some r → r.tagId ≠ t.id) ∧
      (∀ i r, e.takenBy = some i → s.rec? i = some r → r.tagId = t.id))
  law State.reset ∧ ∀ s t : State, law s → step s = .next t → law t

/-- REMOVE of a WAIT_LANE or ACTIVE record (R16): DONE with outcome REMOVED and an empty route plan, its hold part and
doses as they stand, its slot's use count one less (R7, R39); no move carries it, no queue, lane order, bench position,
arbiter, waiting binding, walk, program or mark names it. A LOADING record is marked for removal alone; a FREE or DONE one
is refused with NOT_FOUND. MARK_CLEAR (R15) and TRACE_TAKE (R25): for the LOAD entry's MARKED carrier a write of mark 0 is
asked of LOAD's writer; in STOP WRONG_MODE, without such an entry NOT_FOUND. A DONE record is carried whole by the reply and
becomes FREE, with the LOAD entry matched again when it is a DUPLICATE of its tag ID (R11); any other is refused with
NOT_DONE. A head has a walk only while it WALKS or EVALUATES (R46), and a record stands in the order of no lane but its own
(R106): premises of the two clauses that need them. -/
def Obligations.RemoveMarkClearAndTraceTake : Prop :=
  (∀ (s : State) (tag b : Byte) (i : RecIx), s.takesRequest .host = true → b.toNat = i.val →
     (s.live? i = none →
       exec (.remove .host tag b) s = .next (s.answers .host tag (.remove b) .notFound []).settle) ∧
     ∀ r, s.rec? i = some r →
       (r.status = .loading →
         exec (.remove .host tag b) s =
           .next ((s.setRec i (some { r with removalPending := true })).answers .host tag (.remove b) .ok []).settle) ∧
       ((r.status = .waitLane ∨ r.status = .active) → ∃ u : State,
         exec (.remove .host tag b) s = .next (u.answers .host tag (.remove b) .ok []).settle ∧
         (∃ r', u.rec? i = some r' ∧ r'.status = .done .removed ∧ r'.plan = [] ∧ r'.lane = none ∧ r'.hold = r.hold ∧
           r'.history = r.history ∧ r'.thermalDose = r.thermalDose ∧ r'.uvDose = r.uvDose ∧ r'.tagId = r.tagId) ∧
         UseReleased s u r ∧
         (∀ m ∈ u.ltk.moves, m.ix ≠ i) ∧ i ∉ u.ctc.wetQueue ∧ i ∉ u.hmg.queue ∧
         (∀ n : BenchIx, u.hmg.bench[n] ≠ some i) ∧ u.ctc.exitHolder ≠ some i ∧
         (∀ w, u.ctc.waiting = some w → w.ix ≠ i) ∧
         ((∀ h w, (s.head h).walk = some w → (s.head h).state.walks = true) →
           ∀ h w, (u.head h).walk = some w → w.ix ≠ i) ∧
         (∀ c p, (u.cell c).program = some p → p.ix ≠ i) ∧
         ((∀ l, i ∈ (s.lane l).order → r.lane = some l) → ∀ l, i ∉ (u.lane l).order) ∧
         (∀ h p, (u.head h).given ≠ some { ix := i, pass := p }) ∧
         (∀ c p, (u.cell c).runMark ≠ some { ix := i, pass := p }) ∧ u.ltk.sensors = s.ltk.sensors)) ∧
  (∀ (s : State) (tag b : Byte) (id : TagId) (i : RecIx), s.takesRequest .host = true → b.toNat = i.val →
     (s.lmf.mode = .stop →
       exec (.markClear .host tag id) s = .next (s.answers .host tag (.markClear id) .wrongMode []).settle) ∧
     (s.lmf.mode ≠ .stop → (∀ e t, s.ltk.loadEntry = some e → e.tag = some t → e.result = .marked → t.id ≠ id) →
       exec (.markClear .host tag id) s = .next (s.answers .host tag (.markClear id) .notFound []).settle) ∧
     (∀ e t, s.lmf.mode ≠ .stop → s.ltk.loadEntry = some e → e.tag = some t → e.result = .marked → t.id = id →
       exec (.markClear .host tag id) s =
         .next (({ s with ltk := { s.ltk with writes := s.ltk.writes ++
           [{ place := .load, value := 0, why := .markClear id, attempt := 1 }] } } : State).answers .host tag (.markClear id)
             .ok []).settle) ∧
     ((∀ r o, s.rec? i = some r → r.status ≠ .done o) →
       exec (.traceTake .host tag b) s = .next (s.answers .host tag (.traceTake b) .notDone []).settle) ∧
     (∀ r o, s.rec? i = some r → r.status = .done o →
       let u : State := { s with ltk := { s.ltk with table := s.ltk.table.set i none } }
       exec (.traceTake .host tag b) s =
         .next ((match s.ltk.loadEntry with
           | some ⟨some t, .duplicate, _⟩ => if t.id = r.tagId then u.takeMatch t else u
           | _ => u).answers .host tag (.traceTake b) .ok (eRecord r)).settle))

/-! ## Requests about holds -/

/-- A raise placed in a reasons list (R142, R143). A listed code is counted, saturating at 255, with its severity and first
raise kept, and the others stand. An unlisted code is appended with count 1 below 8 entries. Against 8 entries the code is
not listed: the earliest entry of the highest severity is counted and takes a higher severity. The hold severity never
falls below that of an unlisted code's raise. -/
def Obligations.RaisesArePlacedInTheList : Prop :=
  ∀ (code : ReasonCode) (sev : Severity) (now : LineTime) (rs : List Reason),
    ((∃ r ∈ rs, r.code = code) →
      placeReason code sev now rs =
        rs.map fun r => if r.code = code then { r with count := min (r.count + 1) 255 } else r) ∧
    ((∀ r ∈ rs, r.code ≠ code) → rs.length < 8 →
      placeReason code sev now rs = rs ++ [{ code := code, severity := sev, count := 1, firstRaise := now }]) ∧
    ((∀ r ∈ rs, r.code ≠ code) → rs.length = 8 →
      ∃ pre r post, rs = pre ++ r :: post ∧ r.severity = holdSeverity rs ∧ (∀ q ∈ pre, q.severity ≠ holdSeverity rs) ∧
        placeReason code sev now rs =
          pre ++ { r with count := min (r.count + 1) 255, severity := r.severity.max sev } :: post) ∧
    ((∀ r ∈ rs, r.code ≠ code) → rs.length ≤ 8 →
      holdSeverity (placeReason code sev now rs) = (holdSeverity rs).max sev)

/-- HOLD_PLACE (R144, R142): ORDERED is raised with the severity given against a WAIT_LANE or ACTIVE record. Without a hold
part one is created OPEN with it, PASS_LIMIT (MAJOR) behind it in pass 3, and HOLD_RAISED is queued; otherwise it is placed
in the list, a DISPOSED hold returns to OPEN without its disposition, and HOLD_CHANGED is queued. Any other record is
refused with NOT_FOUND. -/
def Obligations.HoldPlaceRaisesOrdered : Prop :=
  ∀ (s : State) (tag b v : Byte) (i : RecIx) (sev : Severity), s.takesRequest .host = true → b.toNat = i.val →
    severityOf v = some sev →
    let q : Request := .holdPlace b v
    ((∀ r, s.rec? i = some r → r.status.inPass = false) →
      exec (.holdPlace .host tag b v) s = .next (s.answers .host tag q .notFound []).settle) ∧
    ∀ r, s.rec? i = some r → r.status.inPass = true →
      (r.hold = none →
        let h : Hold :=
          { state := .opened, stage := .none, claim := none, instruction := none, finding := none, disposition := none
            markWritten := false, raiseTime := s.now
            reasons := { code := .ordered, severity := sev, count := 1, firstRaise := s.now } ::
              if r.pass = 3 then [{ code := .passLimit, severity := .major, count := 1, firstRaise := s.now }] else [] }
        exec (.holdPlace .host tag b v) s =
          .next ((((s.setRec i (some { r with hold := some h })).queueReport
            (.holdRaised (holdReport i r h .reason))).answers .host tag q .ok []).settle)) ∧
      ∀ h, r.hold = some h →
        let h' : Hold :=
          { h with
            reasons := placeReason .ordered sev s.now h.reasons
            state := if h.state = .disposed then .opened else h.state
            disposition := if h.state = .disposed then none else h.disposition }
        exec (.holdPlace .host tag b v) s =
          .next ((((s.setRec i (some { r with hold := some h' })).queueReport
            (.holdChanged (holdReport i r h' (if h.state = .disposed then .reopened else .reason)))).answers .host tag q
              .ok []).settle)

/-- HOLD_CLAIM and HOLD_UNCLAIM (R150): a claim is taken from NONE and given back by the link that holds it, with
HOLD_CHANGED (CLAIM); a claim that the link has already is OK without a change; the other link's is CLAIMED_ELSEWHERE, and
giving back what one does not hold is NOT_CLAIMED. A record without a hold part, and on the Bench Link one that is neither
at a bench position nor OFFLINE, is NOT_FOUND; so is a DONE record's, whose hold takes no request that changes it (log 22). -/
def Obligations.ClaimsBelongToOneLink : Prop :=
  ∀ (s : State) (l : Link) (tag b : Byte) (i : RecIx), s.takesRequest l = true → b.toNat = i.val →
    let answered (c : Instr) (u : State) (q : Request) (st : ReplyStatus) : Prop :=
      exec c s = .next (u.answers l tag q st []).settle
    let claim := answered (.holdClaim l tag b)
    let unclaim := answered (.holdUnclaim l tag b)
    ((∀ r, s.rec? i = some r → r.hold = none ∨ r.status.isLive = false ∨ visibleTo l r = false) →
      claim (s.heard l) (.holdClaim b) .notFound ∧ unclaim (s.heard l) (.holdUnclaim b) .notFound) ∧
    ∀ r h, s.rec? i = some r → r.hold = some h → r.status.isLive = true → visibleTo l r = true →
      let set (c : Option Link) : State :=
        ((s.heard l).setRec i (some { r with hold := some { h with claim := c } })).queueReport
          (.holdChanged (holdReport i r { h with claim := c } .claim))
      (h.claim = none →
        claim (set (some l)) (.holdClaim b) .ok ∧ unclaim (s.heard l) (.holdUnclaim b) .notClaimed) ∧
      (h.claim = some l → claim (s.heard l) (.holdClaim b) .ok ∧ unclaim (set none) (.holdUnclaim b) .ok) ∧
      (∀ o, o ≠ l → h.claim = some o →
        claim (s.heard l) (.holdClaim b) .claimedElsewhere ∧ unclaim (s.heard l) (.holdUnclaim b) .notClaimed)

/-- The texts of a hold (R152 to R154) of a record in use up to ACTIVE. HOLD_READ's data is the hold as it stands; on
the Host Link it changes nothing, on the Bench Link it marks an unread instruction read, with HOLD_CHANGED
(INSTRUCTION_READ). INSTRUCTION_POST stores the text unread over an absent or read one, otherwise SLOT_FULL;
FINDING_POST does the same for the claiming pendant, with HOLD_CHANGED (FINDING); FINDING_READ (R153) carries the
finding and marks it read. The bytes of the two replies, the unread flag as 1 or 0 among them, are those of log 12
(DEDUCED). -/
def Obligations.TextsAreReadAndPosted : Prop :=
  ∀ (s : State) (tag b : Byte) (i : RecIx) (r : CarrierRecord) (h : Hold) (text : List Byte),
    b.toNat = i.val → s.rec? i = some r → r.hold = some h → r.status.isLive = true →
    1 ≤ text.length → text.length ≤ 48 → text.all printable = true →
    let unread : Option TextSlot := some { text := text, unread := true }
    let put (u : State) (h' : Hold) : State := u.setRec i (some { r with hold := some h' })
    let bench := s.benchHeard
    (s.takesRequest .host = true →
      exec (.holdRead .host tag b) s = .next (s.answers .host tag (.holdRead b) .ok (eHoldRead i r h)).settle ∧
      ((∀ t, h.instruction = some t → t.unread = false) →
        exec (.instructionPost .host tag b text) s =
          .next ((put s { h with instruction := unread }).answers .host tag (.instructionPost b text) .ok []).settle) ∧
      (∀ t, h.instruction = some t → t.unread = true →
        exec (.instructionPost .host tag b text) s =
          .next (s.answers .host tag (.instructionPost b text) .slotFull []).settle) ∧
      (h.finding = none →
        exec (.findingRead .host tag b) s = .next (s.answers .host tag (.findingRead b) .notFound []).settle) ∧
      (∀ t, h.finding = some t →
        exec (.findingRead .host tag b) s =
          .next ((put s { h with finding := some { t with unread := false } }).answers .host tag (.findingRead b) .ok
            (eText t.text ++ [BitVec.ofNat 8 t.unread.toNat])).settle)) ∧
    (s.takesRequest .bench = true → r.position.benchSide = true →
      ((∀ t, h.instruction = some t → t.unread = false) →
        exec (.holdRead .bench tag b) s = .next (bench.answers .bench tag (.holdRead b) .ok (eHoldRead i r h)).settle) ∧
      (∀ t, h.instruction = some t → t.unread = true →
        let h' : Hold := { h with instruction := some { t with unread := false } }
        exec (.holdRead .bench tag b) s =
          .next (((put bench h').queueReport (.holdChanged (holdReport i r h' .instructionRead))).answers .bench tag
            (.holdRead b) .ok (eHoldRead i r h)).settle) ∧
      (h.claim = none →
        exec (.findingPost .bench tag b text) s =
          .next (bench.answers .bench tag (.findingPost b text) .notClaimed []).settle) ∧
      (h.claim = some .host →
        exec (.findingPost .bench tag b text) s =
          .next (bench.answers .bench tag (.findingPost b text) .claimedElsewhere []).settle) ∧
      (∀ t, h.claim = some .bench → h.finding = some t → t.unread = true →
        exec (.findingPost .bench tag b text) s =
          .next (bench.answers .bench tag (.findingPost b text) .slotFull []).settle) ∧
      (h.claim = some .bench → (∀ t, h.finding = some t → t.unread = false) →
        let h' : Hold := { h with finding := unread }
        exec (.findingPost .bench tag b text) s =
          .next (((put bench h').queueReport (.holdChanged (holdReport i r h' .finding))).answers .bench tag
            (.findingPost b text) .ok []).settle))

/-- The permissions of a disposition (R156): what each hold severity allows each link, and in pass 3 USE_AS_IS and
SCRAP of the Host Link alone. HOLD_DISPOSE's checks (R155 to R157), in their order, for an ACTIVE record with a hold
part that the link may name: the first that fails is answered, and nothing changes but for the reply. The check is named in a
byte 0..3 (log 12), the severity before the pass (log 39). -/
def Obligations.DisposePermissionsAndChecks : Prop :=
  (∀ (sev : Severity) (pass : Nat) (l : Link) (d : Disposition),
     let closes := d = .useAsIs ∨ d = .scrap
     (severityAllows sev l d = true ∧ passAllows pass l d = true) ↔
       (sev = .minor → l = .host ∨ ¬ closes) ∧ (sev = .major → l = .host) ∧ (sev = .critical → l = .host ∧ d = .scrap) ∧
         (pass = 3 → l = .host ∧ closes)) ∧
  (∀ (s : State) (l : Link) (tag b v : Byte) (i : RecIx) (d : Disposition) (r : CarrierRecord) (h : Hold),
     s.takesRequest l = true → b.toNat = i.val → dispositionOf v = some d →
     let refused (st : ReplyStatus) (data : List Byte) : Prop :=
       exec (.holdDispose l tag b v) s = .next ((s.heard l).answers l tag (.holdDispose b v) st data).settle
     ((∀ q, s.rec? i = some q → q.status ≠ .active ∨ q.hold = none ∨ visibleTo l q = false) → refused .notFound []) ∧
     (s.rec? i = some r → r.status = .active → r.hold = some h → visibleTo l r = true →
       (h.claim = none → refused .notClaimed []) ∧
       (∀ o, o ≠ l → h.claim = some o → refused .claimedElsewhere []) ∧
       (h.claim = some l →
         (r.position.disposable = false → refused .notPermitted [0]) ∧
         (r.position.disposable = true →
           (l = .bench → (∃ t, h.instruction = some t ∧ t.unread = true) → refused .instructionUnread []) ∧
           ((l = .host ∨ ∀ t, h.instruction = some t → t.unread = false) →
             (severityAllows (holdSeverity h.reasons) l d = false → refused .notPermitted [1]) ∧
             (severityAllows (holdSeverity h.reasons) l d = true → passAllows r.pass l d = false →
               refused .notPermitted [2]) ∧
             (severityAllows (holdSeverity h.reasons) l d = true → passAllows r.pass l d = true →
               ((d = .remask ∧ h.stage ≠ .mask) ∨ (d = .wetWipe ∧ h.stage ≠ .inspect) ∨
                 ((d = .respray ∨ d = .recure) ∧ h.stage ≠ .exit)) → refused .notPermitted [3]))))))

/-- HOLD_DISPOSE accepted (R158 to R161), when no check of R155 fails. A rework disposition is recorded with its disposer
and time, the hold becomes DISPOSED, STRIP clears what R159 lists, and HOLD_CHANGED (DISPOSED) is queued; a carrier at LOAD
that is no DUPLICATE of it is not matched again, one that is is matched again from its last-known tag (R11), as REENTRY when
its mark is the record's index + 1 (R9). USE_AS_IS and SCRAP close the hold into the history with HOLD_CHANGED (CLOSED),
make the record DONE with outcome CONCESSION or SCRAPPED, release its slot use, and ask a mark write of 0 where the carrier
stands at a bench position or UNLOAD. -/
def Obligations.DispositionsTakeEffect : Prop :=
  ∀ (s : State) (l : Link) (tag b v : Byte) (i : RecIx) (d : Disposition) (r : CarrierRecord) (h : Hold),
    s.takesRequest l = true → b.toNat = i.val → dispositionOf v = some d →
    s.rec? i = some r → r.status = .active → r.hold = some h → visibleTo l r = true → disposeRefusal l d r h = none →
    let h' : Hold := { h with disposition := some { what := d, disposer := l, time := s.now }, state := .disposed }
    (closingOf d = none →
      let stripped (z : CarrierRecord) : CarrierRecord :=
        { z with
          zones := z.zones.map fun _ => { acc := 0, thickness := 0, verdict := .none, abandoned := false }
          thermalDose := 0, uvDose := 0, peak := none, cureUnknown := false, sprayEnd := none, maskVerdict := .none
          maskPoints := z.maskPoints.map fun _ => .notChecked
          keepoutPoints := z.keepoutPoints.map fun _ => .notChecked
          coveragePoints := z.coveragePoints.map fun _ => .notChecked }
      let h'' : Hold := if d = .strip then { h' with stage := .stripped } else h'
      let r' : CarrierRecord := { (if d = .strip then stripped r else r) with hold := some h'' }
      let u := ((s.heard l).setRec i (some r')).queueReport (.holdChanged (holdReport i r' h'' .disposed))
      let answered (w : State) : Prop := exec (.holdDispose l tag b v) s = .next (w.answers l tag (.holdDispose b v) .ok []).settle
      ((∀ e t, s.ltk.loadEntry = some e → e.tag = some t → e.result = .duplicate → t.id ≠ r.tagId) → answered u) ∧
      (∀ e t, s.ltk.loadEntry = some e → e.tag = some t → e.result = .duplicate → t.id = r.tagId →
        answered (u.takeMatch t) ∧
        (s.recordOfTag t.id = some i → t.mark.toNat = i.val + 1 →
          (u.takeMatch t).ltk.loadEntry = some { tag := some t, result := .reentry, takenBy := some i } ∧
          ∃ q, (u.takeMatch t).rec? i = some q ∧ q.pass = r.pass + 1 ∧ q.hold = none ∧ q.position = .standing .load))) ∧
    (∀ o, closingOf d = some o → ∃ u : State,
      exec (.holdDispose l tag b v) s = .next (u.answers l tag (.holdDispose b v) .ok []).settle ∧
      (∃ r', u.rec? i = some r' ∧ r'.status = .done o ∧ r'.hold = none ∧ r'.history = r.history ++
        [{ reasons := h.reasons, severity := holdSeverity h.reasons, disposition := h'.disposition }] ∧
        r'.thermalDose = r.thermalDose ∧ r'.uvDose = r.uvDose ∧ r'.pass = r.pass) ∧
      UseReleased s u r ∧
      (s.liu.reports.length < 32 → ∃ rest, u.liu.reports =
        s.liu.reports ++ { time := s.now, body := .holdChanged (holdReport i r h' .closed) } :: rest) ∧
      (∀ n : BenchIx, u.hmg.bench[n] ≠ some i) ∧
      ∀ p, r.position = .standing p → (p = .unload ∨ ∃ n, p = .bench n) →
        ∃ ws, u.ltk.writes = ws ++ [{ place := p, value := 0, why := .closing i, attempt := 1 }])

/-! ## Requests to cells, heads and the lamp -/

/-- CELL_HOME (R70): a value that is no cell is BAD_VALUE, STOP is WRONG_MODE; otherwise an UNHOMED cell goes to HOMING
with its 10 s home timer and CELL_STATE is queued, its valve and all else as they are; HOMING and READY are OK without a
change; the other states are NOT_PERMITTED. The Bench Link does not carry it. CELL_CLEAR (R88), in every mode: in
PRIMING, RUNNING and STARVED it is NOT_PERMITTED; otherwise the cell goes to UNHOMED with its timers stopped, its gantry
unknown and its valve shut, its program-run mark kept, a halt report no longer awaited (log 17, DEDUCED), and CELL_STATE
is queued when the state changes. -/
def Obligations.CellHomeAndCellClear : Prop :=
  (∀ (s : State) (tag v : Byte) (c : CellId),
     (s.hears .bench = true →
       exec (.cellHome .bench tag v) s =
         .next (s.benchHeard.answers .bench tag (.cellHome v) .notPermitted []).settle) ∧
     (s.takesRequest .host = true →
       let reply (u : State) (st : ReplyStatus) : Prop :=
         exec (.cellHome .host tag v) s = .next (u.answers .host tag (.cellHome v) st []).settle
       (2 ≤ v.toNat → reply s .badValue) ∧
       (cellOf v = some c → s.lmf.mode = .stop → reply s .wrongMode) ∧
       (cellOf v = some c → s.lmf.mode ≠ .stop →
         match (s.cell c).state with
         | .unhomed =>
           let u := s.setCell c { s.cell c with state := .homing, homeTimer := some { since := s.now, ms := 10000 } }
           reply (u.queueReport (.cellState c .homing .cellHome none)) .ok
         | .homing | .ready => reply s .ok
         | .priming | .running | .starved | .faulted => reply s .notPermitted))) ∧
  (∀ (s : State) (tag v : Byte) (c : CellId), s.takesRequest .host = true → cellOf v = some c →
     let reply (u : State) (st : ReplyStatus) : Prop :=
       exec (.cellClear .host tag v) s = .next (u.answers .host tag (.cellClear v) st []).settle
     let u := s.setCell c
       { s.cell c with
         state := .unhomed, gantry := none, haltDue := false, valveOpen := false, homeTimer := none, gantryTimer := none
         leadTimer := none, valveTimer := none, starveTimer := none }
     match (s.cell c).state with
     | .priming | .running | .starved => reply s .notPermitted
     | .unhomed => reply u .ok
     | .homing | .ready | .faulted => reply (u.queueReport (.cellState c .unhomed .cellClear none)) .ok)

/-- HEAD_CLEAR (R64, R57) and LAMP_SET (R115, R116). A FAULTED head goes to IDLE, a walk is abandoned with its table, slots,
triggers and timers emptied, an IDLE head stays. ON takes an OFF or FAULT lamp to WARMING with the ballast on and 60 s to go,
with LAMP_STATE; a ballast fault input that is active takes it to FAULT at once with LAMP_FAULT; OFF turns any other lamp
than an OFF one off. -/
def Obligations.HeadClearAndLampSet : Prop :=
  ∀ (s : State) (tag v : Byte) (h : HeadId), s.takesRequest .host = true →
    (headOf v = some h →
      let reply (u : State) : Prop := exec (.headClear .host tag v) s = .next (u.answers .host tag (.headClear v) .ok []).settle
      match (s.head h).state with
      | .idle => reply s
      | .faulted => reply (s.setHead h { s.head h with state := .idle })
      | .walking | .evaluating =>
        reply (s.setHead h
          { state := .idle, given := (s.head h).given, walk := none, groupTimer := none, posTimer := none
            slots := Vector.replicate 4 none, pending := Vector.replicate 4 none
            resultTimers := Vector.replicate 4 none })) ∧
    (let lamp (u : State) (z : Lamp) : State := { u with ctc := { u.ctc with lamp := z, shutterOpen := false } }
     let warming : Lamp :=
       { s.ctc.lamp with state := .warming, count := 0, ballastOn := true, warmUp := some { since := s.now, ms := 60000 } }
     let off : Lamp := { s.ctc.lamp with state := .off, count := 0, ballastOn := false, warmUp := none }
     let fault : Lamp := { s.ctc.lamp with state := .fault, count := 0, ballastOn := false, warmUp := none }
     let told (u : State) (st : LampState) (why : LampCause) : State := u.queueReport (.lampState st why s.ctc.measured)
     let reply (u : State) : Prop := exec (.lampSet .host tag v) s = .next (u.answers .host tag (.lampSet v) .ok []).settle
     (v = 0x01 →
       (s.ctc.lamp.state = .off ∨ s.ctc.lamp.state = .fault →
         (s.ctc.lamp.ballastFault = false → reply (told (lamp s warming) .warming .lampSet)) ∧
         (s.ctc.lamp.ballastFault = true →
           reply ((told (lamp (told (lamp s warming) .warming .lampSet) fault) .fault .ballastFault).noteFault .lampFault
             .ctc {}))) ∧
       (s.ctc.lamp.state ≠ .off → s.ctc.lamp.state ≠ .fault → reply s)) ∧
     (v = 0x00 →
       (s.ctc.lamp.state = .off → reply s) ∧ (s.ctc.lamp.state ≠ .off → reply (told (lamp s off) .off .lampSet))))

/-- A program abandoned (R84, R79, R81, R83, R85, R86, R91), whatever ends it: the cell has no program and no segment, an
empty buffer, its timers stopped and its valve shut, on the entry to FAULTED its gantry halted in any case, otherwise one
that was moving is halted (log 17), with its position unknown, one run more is counted as abandoned, a waiting fetch is
withdrawn and one in progress will be discarded, the mark names the record and pass while the record is live and is absent
otherwise (log 18), and SPRAY_DONE follows with the outcome. The other cell is untouched. CELL_ABORT (R87, R84), in every
mode: with a program in progress it is abandoned with outcome ABORTED, the cell going to READY; without one it is
NOT_PERMITTED and nothing changes. The record (R84, R98 to R103): a SPRAY segment cut off in MOTION adds its deposit over the
elapsed time, the run's zone and the offending one are flagged, FILM_UNKNOWN is raised but for outcome REMOVED, and where the
plan holds no further cell the spray-end time is set, the film evaluated and told by SPRAY_DONE. -/
def Obligations.AbandonedProgramsLeaveTheCell : Prop :=
  (∀ (s : State) (c : CellId) (p : Program) (o : ProgramOutcome) (f : Option (FaultCode × Nat)) (z : Option Nat)
     (st : CellState) (why : CellCause),
     let u := s.abandonProgram c p o f z st why
     let v := u.cell c
     OnlyIn { ltk := true, scc := true, rep := true } s u ∧ u.cell (otherCell c) = s.cell (otherCell c) ∧
     v.state = st ∧ v.program = none ∧ v.executing = none ∧ (∀ k : Fin 4, v.buffer[k] = none) ∧ v.valveOpen = false ∧
     v.runZone = none ∧ v.skip = false ∧ v.homeTimer = none ∧ v.gantryTimer = none ∧ v.leadTimer = none ∧
     v.valveTimer = none ∧ v.starveTimer = none ∧
     v.counts = { (s.cell c).counts with abandoned := min ((s.cell c).counts.abandoned + 1) 65535 } ∧
     v.fetch = (match (s.cell c).fetch with
       | .none | .waiting => .none
       | .inProgress | .stale => .stale) ∧
     (if (s.cell c).gantryMoving ∨ st = .faulted then v.gantry = none ∧ v.haltDue = true
       else v.gantry = (s.cell c).gantry ∧ v.haltDue = (s.cell c).haltDue) ∧
     v.runMark = (if (s.live? p.ix).isSome then some { ix := p.ix, pass := p.pass } else none) ∧
     (s.liu.reports.length < 24 → ∃ d, { time := s.now, body := .sprayDone d } ∈ u.liu.reports ∧
       d.cell = c ∧ d.ix = p.ix ∧ d.pass = p.pass ∧ d.outcome = o ∧ d.fault = f ∧ d.counts = v.counts)) ∧
  (∀ (s : State) (tag v : Byte) (c : CellId), s.takesRequest .host = true → cellOf v = some c →
     ((s.cell c).program = none →
       exec (.cellAbort .host tag v) s = .next (s.answers .host tag (.cellAbort v) .notPermitted []).settle) ∧
     ∀ p, (s.cell c).program = some p → ∃ u : State,
       exec (.cellAbort .host tag v) s = .next (u.answers .host tag (.cellAbort v) .ok []).settle ∧
       u = s.abandonProgram c p .aborted none none .ready .cellAbort ∧
       (u.cell c).state = .ready ∧ (u.cell c).program = none ∧ u.lmf.mode = s.lmf.mode ∧ u.rsc = s.rsc ∧ u.ctc = s.ctc) ∧
  (∀ (s : State) (c : CellId) (p : Program) (o : ProgramOutcome) (f : Option (FaultCode × Nat)) (z : Option Nat)
     (st : CellState) (why : CellCause) (r : CarrierRecord) (rc : Recipe) (x : Nat),
     s.rec? p.ix = some r → r.status.isLive = true → s.recipeOf p.ix = some rc → (s.cell c).runZone = some x →
     (∀ e, (s.cell c).executing = some e → e.phase = .motion → (s.cell c).gantryTimer.isSome = true) →
     let u := s.abandonProgram c p o f z st why
     let cut (k : Nat) (q : ZoneEntry) : Nat :=
       match (s.cell c).executing, (s.cell c).gantryTimer with
       | some e, some t =>
         if e.phase = .motion ∧ e.seg.kind = some .spray ∧ 0 < e.feff ∧ k = e.seg.zone then
           min (q.acc + e.feff * min (s.now - t.since).toNat e.time * rc.material.solids / 1000 * rc.material.efficiency / 100)
             4294967295
         else q.acc
       | _, _ => q.acc
     FilmByRule s u p.ix r rc (r.zones.mapIdx fun k q =>
       { q with acc := cut k q, abandoned := q.abandoned || decide (k = x) || decide (z = some k) }) ∧
     SprayDoneTold s u c p o r ∧
     (o ≠ .removed → ∃ r' h, u.rec? p.ix = some r' ∧ r'.hold = some h ∧
       ((∀ q, r.hold = some q → q.reasons.length < 8) → ∃ y ∈ h.reasons, y.code = .filmUnknown)))

/-! ## The store -/

/-- STORE_READ, STORE_WRITE and RECIPE_CHECK (R41 to R43, R31, R180): taken, they are in execution and are answered when
they end; nothing else changes. A write that R31 protects is LOCKED: in PROTECTED one that touches the header, or an entry
of a recipe 1..Q with any written directory byte, of whichever entry, unlike the copy's (log 47, DEDUCED), or the locked
region. A check is STORE_BLANK, NO_RECIPE for
an entry offset of 0, RECIPE_BAD for a header that would lie outside 512..262,143, with the offset and the check's number in
the bytes of log 12. -/
def Obligations.StoreRequestsEnterExecution : Prop :=
  ∀ (s : State) (tag n : Byte) (o : BitVec 24) (data : List Byte), s.takesRequest .host = true →
    let running (r : HostReq) : State := { s with rsc := { s.rsc with hostReq := some r } }
    let header := entryOffset s.rsc.dir n.toNat
    (wellAsked .host (.storeRead o n) = true →
      exec (.storeRead .host tag o n) s = .next (running (.read tag o.toNat n.toNat [])).settle) ∧
    (wellAsked .host (.storeWrite o data) = true →
      (¬ LockedByRule s o.toNat data →
        exec (.storeWrite .host tag o data) s = .next (running (.write tag o.toNat data false)).settle) ∧
      (LockedByRule s o.toNat data →
        exec (.storeWrite .host tag o data) s = .next (s.answers .host tag (.storeWrite o data) .locked []).settle)) ∧
    (wellAsked .host (.recipeCheck n) = true →
      let refused (st : ReplyStatus) (d : List Byte) : Prop :=
        exec (.recipeCheck .host tag n) s = .next (s.answers .host tag (.recipeCheck n) st d).settle
      (s.rsc.storeState = .blank → refused .storeBlank []) ∧
      (s.rsc.storeState ≠ .blank → header = 0 → refused .noRecipe []) ∧
      (s.rsc.storeState ≠ .blank → header ≠ 0 → (header < 512 ∨ 262144 < header + 16) →
        refused .recipeBad (e24 header ++ [0])) ∧
      (s.rsc.storeState ≠ .blank → 512 ≤ header → header + 16 ≤ 262144 →
        exec (.recipeCheck .host tag n) s = .next (running (.check tag (ChainWalk.begin n.toNat header))).settle))

/-- STORE_GRANT (R40, R26, R172, R74): with the port free, start-up's reads come first; after start-up a waiting fetch,
of two the cell's that was not granted last, then a directory read-back, then the loader, then the other host accesses.
The access is recorded with its requestor, its range and the line time; a fetch also takes its turn and is in progress.
While an access is in progress, or nobody waits, nothing is granted and nothing changes (log 2, DESIGN CHOICE). A host
page write is granted (R42) unless a LOADING slot, or a VALID one in use, has an extent that it overlaps: then INUSE is
the reply and nothing is written. A VALID slot that is not in use and that it overlaps becomes EMPTY. -/
def Obligations.GrantsFollowThePrecedence : Prop :=
  (∀ s : State,
     let opened (u : State) (w : Requestor) (op : AccessOp) : State :=
       { u with rsc := { u.rsc with port := some { who := w, op := op, since := s.now } } }
     let granted (u : State) : Prop := exec .storeGrant s = .next u.settle
     let waits (c : CellId) : Prop := (s.cell c).fetch = .waiting
     (s.rsc.port.isSome = true → granted s) ∧
     (s.rsc.port = none → ∀ u, s.rsc.startUp = some u →
       granted (opened s .startUp (.read ((if u.directory then 256 else 0) + 64 * u.grant) 64))) ∧
     (s.rsc.port = none → s.rsc.startUp = none →
       (∀ c p, waits c → (c ≠ s.rsc.lastFetch ∨ ¬ waits (otherCell c)) → (s.cell c).program = some p →
         (s.live? p.ix).isSome = true →
         let u := s.setCell c { s.cell c with fetch := .inProgress }
         granted (opened { u with rsc := { u.rsc with lastFetch := c } } (.fetch c)
           (.read (p.offset + 12 * (s.cell c).fetchIndex) 12))) ∧
       (¬ waits .a → ¬ waits .b →
         (∀ tag o data, s.rsc.hostReq = some (.write tag o data true) →
           granted (opened s .readBack
             (.read (touchedEntries o data.length).1 (touchedEntries o data.length).2))) ∧
         ((∀ tag o data, s.rsc.hostReq ≠ some (.write tag o data true)) →
           (∀ k h w, s.loadNow = some (k, h, w) → granted (opened s .loader (.read w.nextRead.1 w.nextRead.2))) ∧
           (s.loadNow = none →
             (s.rsc.hostReq = none → granted s) ∧
             (∀ tag o n got, s.rsc.hostReq = some (.read tag o n got) →
               granted (opened s .host (.read (o + got.length) (min 64 (n - got.length))))) ∧
             (∀ tag w, s.rsc.hostReq = some (.check tag w) →
               granted (opened s .host (.read w.nextRead.1 w.nextRead.2)))))))) ∧
  (∀ (s : State) (tag : Byte) (o : Nat) (data : List Byte),
     s.rsc.port = none → s.rsc.startUp = none → s.fetchTurn = none → s.loadNow = none →
     s.rsc.hostReq = some (.write tag o data false) →
     let hit (h : SlotHead) : Prop := ∃ e ∈ h.extents, 0 < data.length ∧ 0 < e.length ∧ o < e.offset + e.length ∧ e.offset < o + data.length
     let blocked := ∃ k : SlotIx, ∃ h, (s.rsc.slots[k] = .loading h ∨ ∃ q r, s.rsc.slots[k] = .valid h q r ∧ 0 < h.use) ∧ hit h
     (blocked →
       exec .storeGrant s = .next ({ s with
         rsc := { s.rsc with hostReq := none }
         liu := { s.liu with replies := s.liu.replies ++
           [{ kind := 0x31, tag := tag, status := .inUse, data := [] }] } } : State).settle) ∧
     (¬ blocked → ∃ u : State, exec .storeGrant s = .next u.settle ∧ OnlyIn { rsc := true } s u ∧
       u.rsc.port = some { who := .host, op := .write o data, since := s.now } ∧
       ∀ (k : SlotIx) (h : SlotHead) (q : Bool) (r : Recipe), s.rsc.slots[k] = .valid h q r → h.use = 0 →
         (hit h → u.rsc.slots[k] = .empty) ∧ (¬ hit h → u.rsc.slots[k] = .valid h q r)))

/-- STORE_ACCESS_END (R26, R30, R41, R42): a host page write stores its bytes at its range, sets the directory copy's
bytes that it touches and is answered OK; every other byte reads as before. A STORE_READ gathers its bytes, and after
the last of them is answered with what was read, without a count (log 15); the store is unchanged. The port is free
afterwards. STORE_ACCESS_TIMEOUT (R26, R42): the access ends with an access error at 5 ms (log 3), STORE_FAULT
(NONFATAL) of the RSC is raised, and a host request is answered STORE_FAULT, a write that touches the directory after
its read-back. A read leaves the store as it is; the bytes of a page write are of unknown content (log 8) and every
other byte reads as before. The other requestors take their reads: a cell its segment (R73, R74, R80), which ends
PRIMING once the buffer is full or the last segment has come, ends a starve with STARVE_RECOVERED, or ends an awaiting,
what follows being `NextByRule` (R75), or discards it for a program that has ended; the loader the next item, a VALID
slot with its record bound, or a slot EMPTY with its record FREE (R38, R13), the next load beginning, or failing at
once, as `LoaderGoesOn` spells out; the read-back the touched entries (R30); RECIPE_CHECK its data (R43, log 12);
start-up its header, which may end it BLANK with the defaults of R28, its directory and its end (R27, R172). An access
error takes the cell whose program it fetches for to FAULTED with the record named (R74, R83), fails a load (R38),
leaves the touched entries empty (R30), and start-up BLANK (R27). The model's choices: a failed grant of start-up counts as
zeros and the grants behind it are still made (log 20), and a BLANK end leaves the copy as it was before, zeros (log 6). -/
def Obligations.AccessesEndOrTimeOut : Prop :=
  let defaults : LiveConfig :=
    { nearFull := 2, lampMin := 40, fmaxA := 1000, fmaxB := 1000, tcOffsets := Vector.replicate 8 0, gain := 1000 }
  (∀ (s : State) (a : Access) (tag : Byte) (o : Nat), s.rsc.port = some a → a.who = .host →
     (∀ data, a.op = .write o data → o + data.length ≤ 262144 → s.rsc.hostReq = some (.write tag o data false) →
       ∃ u : State, exec .storeAccessEnd s = .next u.settle ∧ u.rsc.port = none ∧ u.rsc.hostReq = none ∧
         u.rsc.slots = s.rsc.slots ∧ u.ltk = s.ltk ∧ u.ine = s.ine ∧ u.scc = s.scc ∧ u.ctc = s.ctc ∧ u.hmg = s.hmg ∧
         u.lmf = s.lmf ∧
         u.liu = { s.liu with replies := s.liu.replies ++ [{ kind := 0x31, tag := tag, status := .ok, data := [] }] } ∧
         (∀ k, (h : k < data.length) → storeGet u.store (o + k) = data[k]) ∧
         (∀ x, x < o ∨ o + data.length ≤ x → storeGet u.store x = storeGet s.store x) ∧
         ∀ x, (h : x < 256) → u.rsc.dir[x] =
           if k : o ≤ 256 + x ∧ 256 + x - o < data.length then data[256 + x - o] else s.rsc.dir[x]) ∧
     (∀ n x m got, a.op = .read x n → x + n ≤ 262144 → s.rsc.hostReq = some (.read tag o m got) → got.length + n < m →
       exec .storeAccessEnd s = .next ({ s with rsc := { s.rsc with
         port := none
         hostReq := some (.read tag o m (got ++ (List.range n).map fun k => storeGet s.store (x + k))) } } : State).settle) ∧
     (∀ n x got, a.op = .read x n → x + n ≤ 262144 → s.rsc.hostReq = some (.read tag o (got.length + n) got) →
       exec .storeAccessEnd s = .next ({ s with
         rsc := { s.rsc with port := none, hostReq := none }
         liu := { s.liu with replies := s.liu.replies ++
           [{ kind := 0x30, tag := tag, status := .ok
              data := got ++ (List.range n).map fun k => storeGet s.store (x + k) }] } } : State).settle)) ∧
  (∀ (s : State) (a : Access) (tag : Byte), s.rsc.port = some a → a.who = .host →
     let timed := (s.reach a.since 5).noteFault .storeFault .rsc {}
     let ended (u : State) (kind : Byte) : State :=
       { u with
         rsc := { u.rsc with port := none, hostReq := none }
         liu := { u.liu with replies := u.liu.replies ++
           [{ kind := kind, tag := tag, status := .storeFault, data := [] }] } }
     (∀ x n o m got, a.op = .read x n → x + n ≤ 262144 → s.rsc.hostReq = some (.read tag o m got) →
       exec .storeAccessTimeout s = .next (ended timed 0x30).settle) ∧
     (∀ x n w, a.op = .read x n → x + n ≤ 262144 → s.rsc.hostReq = some (.check tag w) →
       exec .storeAccessTimeout s = .next (ended timed 0x32).settle) ∧
     (∀ o data, a.op = .write o data → o + data.length ≤ 262144 → s.rsc.hostReq = some (.write tag o data false) →
       ∃ st : List Host.Cell, (∀ x, x < o ∨ o + data.length ≤ x → storeGet st x = storeGet s.store x) ∧
         exec .storeAccessTimeout s =
           .next ({ (if 256 < o + data.length ∧ o < 512 then
                 { timed with rsc := { timed.rsc with port := none, hostReq := some (.write tag o data true) } }
               else ended timed 0x31) with
             store := st, freeCount := s.freeCount + data.length } : State).settle)) ∧
  (∀ (s : State) (a : Access) (x n : Nat), s.rsc.port = some a → a.op = .read x n → x + n ≤ 262144 →
     let bytes := (List.range n).map fun k => storeGet s.store (x + k)
     let free : State := { s with rsc := { s.rsc with port := none } }
     let done (u : State) : Prop := exec .storeAccessEnd s = .next u.settle
     (∀ c, a.who = .fetch c →
       let v := s.cell c
       (v.fetch = .stale → done (free.setCell c { v with fetch := .none })) ∧
       (∀ p, v.fetch = .inProgress → v.program = some p →
         let landed : SprayCell := { v with
           buffer := v.buffer.set v.fill (some { index := v.fetchIndex, bits := segmentBits bytes })
           fill := v.fill + 1, fetchIndex := v.fetchIndex + 1, fetch := .none }
         let primed := p.count ≤ v.fetchIndex + 1 ∨ ∀ k, k ≠ v.fill → (v.buffer[k]).isSome = true
         let come := v.fill = v.exec ∨ (v.buffer[v.exec]).isSome = true
         ((v.state = .running ∧ v.executing.isSome = true) ∨ (v.state = .priming ∧ ¬ primed) ∨
             (v.state = .starved ∧ ¬ come) → done (free.setCell c landed)) ∧
         ∀ r rc, s.rec? p.ix = some r → r.status.isLive = true → s.recipeOf p.ix = some rc → v.valveOpen = false →
           let follows (t : State) : Prop := ∃ u, done u ∧ NextByRule c rc t u
           (v.state = .priming → primed → follows (free.setCell c { landed with state := .running })) ∧
           (v.state = .starved → come →
             follows ((free.setCell c { landed with state := .running, starveTimer := none }).noteFault .starveRecovered
               (.scc c) { ix := some p.ix })) ∧
           (v.state = .running → v.executing = none → follows (free.setCell c landed)))) ∧
     (∀ k h w, a.who = .loader → s.loadNow = some (k, h, w) →
       (∀ w' es, w.take bytes = .more w' es →
         done { s with rsc := { s.rsc with
           port := none, walk := some w', slots := s.rsc.slots.set k (.loading { h with extents := h.extents ++ es }) } }) ∧
       ∀ i r rest, s.rsc.loadList = k :: rest → (k :: rest).Nodup → s.rec? i = some r → r.status = .loading →
         r.removalPending = false → r.recipe = h.recipe →
         (∀ j q, j ≠ i → s.rec? j = some q → q.status = .loading → q.recipe ≠ h.recipe ∧ q.removalPending = false) →
         (∀ w' p es, w.take bytes = .done w' p es →
           let qualified := decide (s.rsc.storeState = .guarded ∧ h.recipe ≤ s.rsc.qCount ∧ 512 ≤ w'.header ∧
             w'.header + 16 ≤ s.rsc.lockBoundary * 64)
           ∃ u, done u ∧ LoaderGoesOn s u k rest ∧
             u.rsc.slots[k] = .valid { h with extents := h.extents ++ es } qualified p ∧
             Bound s u i (shapedByRule k qualified p r) (planByRule p) p.cure.speedClass (8 - s.rsc.live.nearFull) .new) ∧
         (∀ o chk, w.take bytes = .bad o chk →
           ∃ u, done u ∧ LoaderGoesOn s u k rest ∧ u.rsc.slots[k] = .empty ∧ u.rec? i = none ∧
             (s.liu.reports.length < 32 → ∃ more, (rest = [] → more = []) ∧ u.liu.reports =
               s.liu.reports ++ { time := s.now, body := .admitFailed r.tagId .recipeBad } :: more))) ∧
     (∀ tag o data, a.who = .readBack → s.rsc.hostReq = some (.write tag o data true) → x = max 256 (o / 4 * 4) →
       n = min 512 ((o + data.length + 3) / 4 * 4) - x →
       ∃ d : Vector Byte 256,
         (∀ y, (h : y < 256) → d[y] = if x ≤ 256 + y ∧ 256 + y < x + n then storeGet s.store (256 + y) else s.rsc.dir[y]) ∧
         done { s with
           rsc := { s.rsc with port := none, hostReq := none, dir := d }
           liu := { s.liu with replies := s.liu.replies ++
             [{ kind := 0x31, tag := tag, status := .storeFault, data := [] }] } }) ∧
     (∀ tag w, a.who = .host → s.rsc.hostReq = some (.check tag w) →
       let answered (st : ReplyStatus) (data : List Byte) : State := { s with
         rsc := { s.rsc with port := none, hostReq := none }
         liu := { s.liu with replies := s.liu.replies ++ [{ kind := 0x32, tag := tag, status := st, data := data }] } }
       match w.take bytes with
       | .more w' _ => done { s with rsc := { s.rsc with port := none, hostReq := some (.check tag w') } }
       | .done w' p _ => done (answered .ok (s.eCheck w' p))
       | .bad o chk => done (answered .recipeBad (e24 o ++ [BitVec.ofNat 8 (checkCode chk)]))) ∧
     (∀ v, a.who = .startUp → s.rsc.startUp = some v →
       let b := v.bytes ++ bytes
       (v.grant < 3 → done { s with rsc := { s.rsc with
         port := none, startUp := some { v with grant := v.grant + 1, bytes := b } } }) ∧
       (v.grant = 3 → v.directory = false → v.failed = false → storeStateOf b ≠ .blank →
         done { s with rsc := { s.rsc with
           port := none, storeState := storeStateOf b, lockBoundary := numAt b 3 2, qCount := byteAt b 5
           startUp := some { directory := true, grant := 0, bytes := [], failed := false, config := configOf b } } }) ∧
       (v.grant = 3 → v.directory = false → (v.failed = true ∨ storeStateOf b = .blank) → ∃ u, done u ∧
         u.rsc.storeState = .blank ∧ u.rsc.dir = s.rsc.dir ∧ StartedUp s u defaults) ∧
       (v.grant = 3 → v.directory = true → ∃ u d, done u ∧
         (∀ y, (h : y < 256) → (k : y < b.length) → d[y] = b[y]) ∧
         u.rsc = { s.rsc with port := none, startUp := none, live := v.config, dir := d } ∧ StartedUp s u v.config))) ∧
  (∀ (s : State) (a : Access) (x n : Nat), s.rsc.port = some a → a.op = .read x n → x + n ≤ 262144 →
     let timed := (s.reach a.since 5).noteFault .storeFault .rsc {}
     let late (u : State) : Prop := exec .storeAccessTimeout s = .next u.settle
     let failed (u : State) (ix : Option RecIx) (room : Nat) : Prop :=
       late u ∧ u.rsc.port = none ∧ u.lmf.record.nonfatal = true ∧
       (s.liu.reports.length < room → ∃ e, u.lmf.record.lastNonfatal = some e ∧ e.code = .storeFault ∧ e.origin = .rsc ∧
         e.detail.ix = ix)
     (∀ c, a.who = .fetch c →
       ((s.cell c).fetch = .stale → ∃ u, failed u none 16 ∧ u.cell c = { s.cell c with fetch := .none }) ∧
       ∀ p, (s.cell c).fetch = .inProgress → (s.cell c).program = some p → ∃ u, failed u (some p.ix) 16 ∧
         (u.cell c).state = .faulted ∧ (u.cell c).program = none ∧ (u.cell c).fetch = .none ∧
         (u.cell c).valveOpen = false) ∧
     (∀ k h w i r rest, a.who = .loader → s.loadNow = some (k, h, w) → s.rsc.loadList = k :: rest → (k :: rest).Nodup →
       s.rec? i = some r → r.status = .loading → r.removalPending = false → r.recipe = h.recipe →
       (∀ j q, j ≠ i → s.rec? j = some q → q.status = .loading → q.recipe ≠ h.recipe ∧ q.removalPending = false) →
       ∃ u, failed u none (if rest = [] then 16 else 7) ∧ LoaderGoesOn s u k rest ∧ u.rsc.slots[k] = .empty ∧
         u.rec? i = none) ∧
     (∀ tag o data, a.who = .readBack → s.rsc.hostReq = some (.write tag o data true) → x = max 256 (o / 4 * 4) →
       n = min 512 ((o + data.length + 3) / 4 * 4) - x →
       ∃ d : Vector Byte 256,
         (∀ y, (h : y < 256) → d[y] = if x ≤ 256 + y ∧ 256 + y < x + n then 0 else s.rsc.dir[y]) ∧
         late { timed with
           rsc := { timed.rsc with port := none, hostReq := none, dir := d }
           liu := { timed.liu with replies := timed.liu.replies ++
             [{ kind := 0x31, tag := tag, status := .storeFault, data := [] }] } }) ∧
     (∀ v, a.who = .startUp → s.rsc.startUp = some v →
       let b := v.bytes ++ List.replicate 64 0
       (v.grant < 3 → late { timed with rsc := { timed.rsc with
         port := none, startUp := some { v with grant := v.grant + 1, bytes := b, failed := true } } }) ∧
       (v.grant = 3 → v.directory = false → ∃ u, late u ∧ u.rsc.storeState = .blank ∧ u.rsc.dir = s.rsc.dir ∧
         StartedUp timed u defaults) ∧
       (v.grant = 3 → v.directory = true → ∃ u d, late u ∧
         (∀ y, (h : y < 256) → (k : y < b.length) → d[y] = b[y]) ∧
         u.rsc = { s.rsc with port := none, startUp := none, live := v.config, dir := d } ∧ StartedUp timed u v.config)))

/-! ## Sensors, tags and moves -/

/-- The presence sensors (R1, R2, R8, R24, R172). LOAD_ARRIVAL takes LOAD's level and, with no record there after
start-up, clears the LOAD entry and begins to read the tag; an earlier arrival whose read is still in progress is then
UNREADABLE with its LOAD_ARRIVAL (log 33, DESIGN CHOICE). With a record there it takes the level alone (log 40, DESIGN
CHOICE). LOAD_ENTRY_CLEAR, with no record there, clears the level and an entry that no record has taken; a read in progress
goes on, because each arrival has its LOAD_ARRIVAL. SOURCE_CLEARED clears the level of a moving
carrier's source, DONE_CARRIER_LIFTED (elsewhere than at LOAD) that of a place without a record that no move leaves.
CARRIER_SET_BACK under a record begins its tag check again, the check staying as it was till then (log 10). But for
that report nothing but the Line Tracker changes. An entry that a record at LOAD has taken is kept (log 9). -/
def Obligations.SensorLevelsAreTaken : Prop :=
  ∀ (s : State) (p : Place),
    let level (q : Place) (v : Bool) : Ltk := { s.ltk with sensors := s.ltk.sensors.write q v }
    let reading (v : Ltk) (q : Place) (why : ReadFor) : Ltk :=
      { v with reads := v.reads.filter (fun j => decide (j.place ≠ q)) ++ [{ place := q, why := why, attempt := 1 }] }
    (s.present .load = false →
      let alone := s.starting = true ∨ (s.recordAt .load).isSome = true
      let taken := if alone then level .load true
        else reading { level .load true with loadEntry := none } .load .arrival
      let told := if ¬ alone ∧ (s.readAt .load).map TagReadJob.why = some .arrival
        then s.queueReport (.loadArrival none .unreadable) else s
      exec .loadArrival s = .next { told with ltk := taken }.settle) ∧
    (s.recordAt .load = none →
      let entry := s.ltk.loadEntry.filter fun e => e.takenBy.isSome
      exec .loadEntryClear s = .next { s with ltk := { level .load false with loadEntry := entry } }.settle) ∧
    ((∃ m ∈ s.ltk.moves, m.src = p) → exec (.sourceCleared p) s = .next { s with ltk := level p false }.settle) ∧
    (s.recordAt p = none → (∀ m ∈ s.ltk.moves, m.src ≠ p) → p ≠ .load →
      exec (.doneCarrierLifted p) s = .next { s with ltk := level p false }.settle) ∧
    (s.present p = false → (∀ m ∈ s.ltk.moves, m.dst ≠ p) → p.hasSensor = true → s.starting = false →
      ∀ i, s.recordAt p = some i →
        exec (.carrierSetBack p) s = .next { s with ltk := reading (level p true) p (.check i) }.settle)

/-- TAG_READ_ATTEMPT_END at LOAD for an arrival (R8, R9): an attempt without a result is followed by the next, the
third by an UNREADABLE entry and LOAD_ARRIVAL, an entry standing only while LOAD reads present (log 33, DEDUCED); a tag that no record holds is NEW with mark 0 and MARKED otherwise, and
a tag that a record holds is DUPLICATE unless that record waits for re-entry and the mark is its index + 1.
TAG_READ_ATTEMPT_END for the tag check of a record (R22, R57, R165): the record's own tag ID passes; another, or a
third attempt without a result, fails the check, abandons its walk, notes TAG_MISMATCH of the LTK and takes a line in
RUN to PAUSE; before the third the next attempt follows. A check that passes at UNLOAD (R21, R149): without a hold part a
CURED record is DONE/GOOD with CARRIER_DONE and its slot use released, with one the hold mark is written. At a bench
position (R146): an OPEN hold goes to AT_BENCH, the hold mark is written and HOLD_CHANGED (BENCH) queued. -/
def Obligations.TagReadsMatchAndCheck : Prop :=
  (∀ (s : State) (j : TagReadJob) (t : TagRead), s.readAt .load = some j → j.why = .arrival →
     let rest := s.ltk.reads.filter fun k => decide (k.place ≠ .load)
     let again := s.ltk.reads.map fun k => if k.place = .load then { k with attempt := k.attempt + 1 } else k
     let entry (t : Option TagRead) (m : MatchResult) : Host.Outcome State Fault Refusal :=
       .next (({ s with ltk := { s.ltk with 
         reads := rest
         loadEntry := if s.present .load then some { tag := t, result := m, takenBy := none } else none } } : State).queueReport (.loadArrival t m)).settle
     (j.attempt < 3 →
       exec (.tagReadAttemptEnd .load none) s = .next { s with ltk := { s.ltk with reads := again } }.settle) ∧
     (3 ≤ j.attempt → exec (.tagReadAttemptEnd .load none) s = entry none .unreadable) ∧
     ((∀ i r, s.rec? i = some r → r.tagId ≠ t.id) →
       exec (.tagReadAttemptEnd .load (some t)) s = entry (some t) (if t.mark = 0 then .new else .marked)) ∧
     (∀ i r, s.recordOfTag t.id = some i → s.rec? i = some r →
       (r.status ≠ .active ∨ (∀ h, r.hold = some h → h.state ≠ .disposed) ∨ t.mark.toNat ≠ i.val + 1) →
       exec (.tagReadAttemptEnd .load (some t)) s = entry (some t) .duplicate)) ∧
  (∀ (s : State) (p : Place) (j : TagReadJob) (i : RecIx) (r : CarrierRecord),
     s.readAt p = some j → j.place = p → j.why = .check i → s.rec? i = some r → r.status.isLive = true →
     (∀ t, t.id = r.tagId → ∃ u : State, exec (.tagReadAttemptEnd p (some t)) s = .next u.settle ∧ u.lmf.mode = s.lmf.mode ∧
       (p.isLiftPlace = false →
         u = { s with ltk := { s.ltk with
           reads := s.ltk.reads.filter fun k => decide (k.place ≠ p)
           table := s.ltk.table.set i (some { r with tagCheck := .passed }) } })) ∧
     (∀ x, ((∃ t, x = some t ∧ t.id ≠ r.tagId) ∨ (x = none ∧ 3 ≤ j.attempt)) → ∃ u : State,
       exec (.tagReadAttemptEnd p x) s = .next u.settle ∧ u.rec? i = some { r with tagCheck := .failed } ∧
       (∀ h w, (s.head h).walk = some w → w.ix = i → (s.head h).state.walks = true → (u.head h).walk = none) ∧
       u.lmf.record.nonfatal = true ∧ u.lmf.mode = (if s.lmf.mode = .run then .pause else s.lmf.mode) ∧ u.scc = s.scc ∧
       (s.liu.reports.length < 16 → ∃ e, u.lmf.record.lastNonfatal = some e ∧ e.code = .tagMismatch)) ∧
     (j.attempt < 3 →
       let again := s.ltk.reads.map fun k => if k.place = p then { k with attempt := k.attempt + 1 } else k
       exec (.tagReadAttemptEnd p none) s = .next { s with ltk := { s.ltk with reads := again } }.settle)) ∧
  (∀ (s : State) (p : Place) (j : TagReadJob) (i : RecIx) (r : CarrierRecord) (t : TagRead),
     s.readAt p = some j → j.place = p → j.why = .check i → s.rec? i = some r → r.status.isLive = true → t.id = r.tagId →
     let marking (r' : CarrierRecord) : State := { s with ltk := { s.ltk with
       reads := s.ltk.reads.filter fun k => decide (k.place ≠ p), table := s.ltk.table.set i (some r')
       writes := s.ltk.writes ++
         [{ place := p, value := BitVec.ofNat 8 (i.val + 1), why := .holdMark i true, attempt := 1 }] } }
     (p = .unload →
       (∀ h, r.hold = some h →
         exec (.tagReadAttemptEnd p (some t)) s = .next (marking { r with tagCheck := .passed }).settle) ∧
       (r.hold = none → r.status = .active → r.cureVerdict = .cured → ∃ u : State,
         exec (.tagReadAttemptEnd p (some t)) s = .next u.settle ∧
         (∃ r', u.rec? i = some r' ∧ r'.status = .done .good ∧ r'.tagCheck = .passed ∧ r'.hold = none ∧ r'.lane = none) ∧
         UseReleased s u r ∧
         (s.liu.reports.length < 16 → ∃ rest, u.liu.reports = rest ++ [{ time := s.now, body := .carrierDone i }]))) ∧
     (∀ n h, p = .bench n → r.hold = some h →
       let h' : Hold := { h with state := if h.state = .opened then .atBench else h.state }
       let r' : CarrierRecord := { r with tagCheck := .passed, hold := some h' }
       exec (.tagReadAttemptEnd p (some t)) s =
         .next ((marking r').queueReport (.holdChanged (holdReport i r' h' .bench))).settle))

/-- A re-entry (R8 to R10, R17, R161): an ACTIVE record with a DISPOSED hold whose carrier comes to LOAD with its mark. The
hold is closed into the history with its disposition, the pass is one more, the position is LOAD with tag check PASSED, all
else in the record stays, no bench position names it (log 48, DESIGN CHOICE), and a write of mark 0 is asked of LOAD's
writer. When that write has ended, with the mark
written or after its third failure, the plan is the disposition's, the results of the stations that it visits are made
ready, doses, peak and accumulators are kept, and a lane is bound under the re-entry limit 8 or the record is WAIT_LANE as
the waiting binding. -/
def Obligations.ReentryBeginsTheNextPass : Prop :=
  (∀ (s : State) (j : TagReadJob) (t : TagRead) (i : RecIx) (r : CarrierRecord) (h : Hold) (d : DispositionEntry),
     s.readAt .load = some j → j.why = .arrival → s.recordOfTag t.id = some i → s.rec? i = some r → r.status = .active →
     r.hold = some h → h.state = .disposed → h.disposition = some d → t.mark.toNat = i.val + 1 →
     ∃ u : State, exec (.tagReadAttemptEnd .load (some t)) s = .next u.settle ∧
       u.ltk.loadEntry = some { tag := some t, result := .reentry, takenBy := some i } ∧
       (s.liu.reports.length < 32 → u.liu.reports =
         s.liu.reports ++ [{ time := s.now, body := .loadArrival (some t) .reentry }]) ∧
       u.rec? i = some { r with
         hold := none, pass := r.pass + 1, position := .standing .load, tagCheck := .passed
         history := r.history ++
           [{ reasons := h.reasons, severity := holdSeverity h.reasons, disposition := some d }] } ∧
       u.ltk.writes = s.ltk.writes ++ [{ place := .load, value := 0, why := .reentry i (some d.what), attempt := 1 }] ∧
       (∀ n : BenchIx, u.hmg.bench[n] ≠ some i) ∧ u.ctc = s.ctc ∧ u.rsc = s.rsc) ∧
  (∀ (s : State) (j : TagWriteJob) (pre post : List TagWriteJob) (b : Option Byte) (i : RecIx) (r : CarrierRecord)
     (p : Recipe) (d : Disposition),
     s.ltk.writes = pre ++ j :: post → j.place = .load → (∀ k ∈ pre, k.place ≠ .load) → j.why = .reentry i (some d) →
     (b = some j.value ∨ 3 ≤ j.attempt) → s.rec? i = some r → r.status.isLive = true → s.recipeOf i = some p →
     (0 < p.progA.count ∨ 0 < p.progB.count) → d ≠ .useAsIs → d ≠ .scrap →
     let full := d = .remask ∨ d = .respray ∨ d = .strip
     let plan := if d = .recure then [.wetq, .lane, .exit] else if d = .wetWipe then [.inspect, .wetq, .lane, .exit]
       else planByRule p
     let r' : CarrierRecord := { r with
       plan := plan
       maskVerdict := if full then .none else r.maskVerdict
       maskPoints := if full then r.maskPoints.map fun _ => .notChecked else r.maskPoints
       keepoutPoints := if d = .recure then r.keepoutPoints else r.keepoutPoints.map fun _ => .notChecked
       coveragePoints := if d = .recure then r.coveragePoints else r.coveragePoints.map fun _ => .notChecked
       zones := if full then r.zones.map fun z => { z with thickness := 0, verdict := .none, abandoned := false } else r.zones
       flowClamps := if full then 0 else r.flowClamps
       starves := if full then 0 else r.starves
       sprayEnd := if d = .wetWipe then r.sprayEnd else none
       cureVerdict := .none, entryTime := none, exitTime := none }
     ∃ u : State, exec (.tagWriteAttemptEnd .load b) s = .next u.settle ∧ u.ltk.writes = pre ++ post ∧
       Bound s u i r' plan p.cure.speedClass 8 .reentry ∧ u.lmf.mode = s.lmf.mode ∧ u.rsc = s.rsc)

/-- TAG_WRITE_ATTEMPT_END (R149, R10, R15, R160): the first write asked of the place's writer ends when the value reads
back, and a hold mark then has its flag with HOLD_CHANGED (MARK). Otherwise TAG_WRITE_RETRY is noted, with the detail of
log 42 (DESIGN CHOICE), as TAG_WRITE_FAIL is; before the third attempt the next follows, after it TAG_WRITE_FAIL is
noted and the write ends with its flag as it was. A MARK_CLEAR's write puts mark 0 into the LOAD entry, which is matched
again as NEW; after its third failure LOAD_ARRIVAL with match MARKED is queued. The result for a record that is DONE or
FREE is dropped (R5). What follows a re-entry's write is `Obligations.ReentryBeginsTheNextPass`. -/
def Obligations.TagWritesAreTriedThreeTimes : Prop :=
  ∀ (s : State) (p : Place) (j : TagWriteJob) (pre post : List TagWriteJob),
    s.ltk.writes = pre ++ j :: post → j.place = p → (∀ k ∈ pre, k.place ≠ p) →
    let ended (u : State) : State := { u with ltk := { u.ltk with writes := pre ++ post } }
    let retried := s.noteFault .tagWriteRetry (if p = .load then .ltk else .hmg) j.detail
    let failed := retried.noteFault .tagWriteFail (if p = .load then .ltk else .hmg) j.detail
    let dropped (i : RecIx) : Prop :=
      j.why = .closing i ∨ j.why = .reentry i none ∨ j.why = .holdMark i false ∨
        ((j.why = .holdMark i true ∨ ∃ d, j.why = .reentry i (some d)) ∧ s.live? i = none)
    (∀ i, dropped i →
      exec (.tagWriteAttemptEnd p (some j.value)) s = .next (ended s).settle ∧
      (3 ≤ j.attempt → ∀ v, v ≠ some j.value → exec (.tagWriteAttemptEnd p v) s = .next (ended failed).settle)) ∧
    (∀ i r h, j.why = .holdMark i true → s.rec? i = some r → r.status.isLive = true → r.hold = some h →
      exec (.tagWriteAttemptEnd p (some j.value)) s =
        .next (((ended s).setRec i (some { r with hold := some { h with markWritten := true } })).queueReport
          (.holdChanged (holdReport i r { h with markWritten := true } .mark))).settle ∧
      (3 ≤ j.attempt → ∀ v, v ≠ some j.value →
        exec (.tagWriteAttemptEnd p v) s =
          .next ((ended failed).queueReport (.holdChanged (holdReport i r h .mark))).settle)) ∧
    (∀ id, j.why = .markClear id →
      (∀ e t, s.ltk.loadEntry = some e → e.tag = some t → e.result = .marked → t.id = id →
        ((∀ i r, s.rec? i = some r → r.tagId ≠ id) →
          exec (.tagWriteAttemptEnd p (some j.value)) s =
            .next (({ s with ltk := { s.ltk with
              writes := pre ++ post, loadEntry := some { tag := some { t with mark := 0 }, result := .new, takenBy := none }
              } } : State).queueReport (.loadArrival (some { t with mark := 0 }) .new)).settle) ∧
        (3 ≤ j.attempt → ∀ v, v ≠ some j.value →
          exec (.tagWriteAttemptEnd p v) s = .next ((ended failed).queueReport (.loadArrival (some t) .marked)).settle)) ∧
      ((∀ e t, s.ltk.loadEntry = some e → e.tag = some t → e.result = .marked → t.id ≠ id) →
        exec (.tagWriteAttemptEnd p (some j.value)) s = .next (ended s).settle ∧
        (3 ≤ j.attempt → ∀ v, v ≠ some j.value → exec (.tagWriteAttemptEnd p v) s = .next (ended failed).settle))) ∧
    (j.attempt < 3 → ∀ v, v ≠ some j.value →
      exec (.tagWriteAttemptEnd p v) s = .next { retried with ltk := { retried.ltk with
        writes := pre ++ { j with attempt := j.attempt + 1 } :: post } }.settle)

/-- MOVE_BEGIN and BENCH_MOVE_START (R1, R2, R17 to R19, R22, R61, R91, R147, R148). A record moves when it is ACTIVE, its
source has released it, its tag check has not failed, the line mode lets a move go to the first place of its plan (in PAUSE
to the wet queue alone, in STOP and IDLE none), that place's entry conditions hold (free; a cell READY and the mask verdict
OK; space in the wet queue), and no record that stands later in the order of R18 may move there; otherwise no move begins
(log 2). Moving, it is IN_TRANSIT with a 20 s move timer, its tag check as it was (log 44); the mark of the station that it leaves no longer names it. The head
of the Bench Queue moves to the lowest free bench position in RUN and PAUSE. -/
def Obligations.MovesBeginWhenAllowed : Prop :=
  ∀ (s : State) (i : RecIx) (r : CarrierRecord) (src : Place), s.rec? i = some r → r.position = .standing src →
    let moving (dst : Place) (u : State) : Prop :=
      u.ltk.moves =
        s.ltk.moves ++ [{ ix := i, src := src, dst := dst, drive := .driven { since := s.now, ms := 20000 } }] ∧
      u.ltk.table = s.ltk.table.set i (some { r with position := .inTransit src dst }) ∧
      u.ltk.sensors = s.ltk.sensors ∧ u.rsc = s.rsc ∧ u.ctc = s.ctc ∧ u.lmf = s.lmf ∧ u.liu = s.liu ∧
      (src = .mask → ∀ n, u.ine.mask.given ≠ some { ix := i, pass := n }) ∧
      (src = .inspect → ∀ n, u.ine.inspect.given ≠ some { ix := i, pass := n }) ∧
      (src = .sprayA → ∀ n, u.scc.a.runMark ≠ some { ix := i, pass := n }) ∧
      (src = .sprayB → ∀ n, u.scc.b.runMark ≠ some { ix := i, pass := n })
    (∀ dst, MayMove s i r src dst → ¬ GivesWay s i src dst →
      ∃ u : State, exec (.moveBegin i) s = .next u.settle ∧ moving dst u ∧ u.hmg = s.hmg) ∧
    ((∀ dst, MayMove s i r src dst → GivesWay s i src dst) → exec (.moveBegin i) s = .next s.settle) ∧
    (∀ rest n, s.hmg.queue = i :: rest → LowestBench s n → r.status.isLive = true → r.tagCheck ≠ .failed →
      (s.lmf.mode = .run ∨ s.lmf.mode = .pause) →
      ∃ u : State, exec .benchMoveStart s = .next u.settle ∧ moving (.bench n) u ∧
        u.hmg = { s.hmg with queue := rest }) ∧
    ((s.hmg.queue = [] ∨ (∀ n, ¬ FreeByRule s (.bench n)) ∨ s.lmf.mode = .stop ∨ s.lmf.mode = .idle ∨
        ∃ rest, s.hmg.queue = i :: rest ∧ r.tagCheck = .failed) →
      exec .benchMoveStart s = .next s.settle)

/-- MOVE_END and EXIT_TRANSFER_END (R3, R22, R110, R126, R146): the move is out of flight, the target's sensor reads
present and the record stands there, for a MOVE_END with the route entry off its plan. A target with a reader begins the tag
check, elsewhere the tag check field stays (log 44, DESIGN CHOICE), a bench position holds the record, the wet queue takes
it at its end, and the end of an exit transfer frees the exit resource. -/
def Obligations.MovesEndAtTheirTarget : Prop :=
  ∀ (s : State) (i : RecIx) (r : CarrierRecord) (m : Move), s.rec? i = some r → s.moveOf i = some m →
    let landed (plan : List RouteEntry) (u : State) : Prop :=
      u.ltk.moves = s.ltk.moves.filter (fun k => decide (k.ix ≠ i)) ∧
      u.ltk.sensors = s.ltk.sensors.write m.dst true ∧
      u.ltk.table = s.ltk.table.set i (some { r with
        position := .standing m.dst, plan := plan
        tagCheck := if m.dst.hasReader ∧ m.dst ≠ .load then .none else r.tagCheck }) ∧
      u.ltk.reads = (if m.dst.hasReader ∧ m.dst ≠ .load then
          s.ltk.reads.filter (fun k => decide (k.place ≠ m.dst)) ++ [{ place := m.dst, why := .check i, attempt := 1 }]
        else s.ltk.reads) ∧
      u.ltk.loadEntry = s.ltk.loadEntry ∧ u.ltk.writes = s.ltk.writes ∧ u.rsc = s.rsc ∧ u.ine = s.ine ∧ u.scc = s.scc ∧
      u.lmf = s.lmf ∧ u.liu = s.liu ∧
      u.hmg = (match m.dst with
        | .bench n => { s.hmg with bench := s.hmg.bench.set n (some i) }
        | _ => s.hmg)
    (onLane m.src = false → onLane m.dst = false →
      ∃ u : State, exec (.moveEnd i) s = .next u.settle ∧ landed r.plan.tail u ∧
        u.ctc = if m.dst = .wetq then { s.ctc with wetQueue := s.ctc.wetQueue ++ [i] } else s.ctc) ∧
    (s.ctc.exitHolder = some i → m.dst ≠ .wetq →
      ∃ u : State, exec .exitTransferEnd s = .next u.settle ∧ landed r.plan u ∧ u.ctc = { s.ctc with exitHolder := none })

/-- TRANSPORT_TIMEOUT (R3, R165): the clock is at the timer's end or beyond (log 3), the drive is stopped with the move
still in flight, TRANSPORT_TIMEOUT (NONFATAL) of the LTK is noted with the record index (log 42, DESIGN CHOICE), and a
line in RUN goes to PAUSE. Without a driven move nothing happens (log 2). CARRIER_MISSING and CARRIER_LIFTED (R24, R57,
R91, R21, R146). A station's carrier gone: the level clear, the tag check FAILED, TAG_MISMATCH noted, RUN taken to
PAUSE, and the program of the record in the station's cell abandoned. At UNLOAD or a bench position: the level clear, a
tag check in progress there dropped (log 43, DESIGN CHOICE), the record OFFLINE with its tag check as it was (log 44,
DESIGN CHOICE), its bench position empty, and HOLD_CHANGED (OFFLINE) for its hold. -/
def Obligations.TransportAndCarrierFaults : Prop :=
  (∀ (s : State) (i : RecIx),
     (s.moveTimer i = none → exec (.transportTimeout i) s = .next s.settle) ∧
     ∀ (r : CarrierRecord) (t : Timer), s.rec? i = some r → s.moveTimer i = some t → ∃ u : State,
       exec (.transportTimeout i) s = .next u.settle ∧
       u.ltk = { s.ltk with moves := s.ltk.moves.map fun m => if m.ix = i then { m with drive := .timedOut } else m } ∧
       u.lmf.mode = (if s.lmf.mode = .run then .pause else s.lmf.mode) ∧ u.lmf.record.nonfatal = true ∧
       (∃ e, u.lmf.record.lastNonfatal = some e ∧
         (s.liu.reports.length < 28 → e.code = .transportTimeout ∧ e.origin = .ltk ∧ e.detail.ix = some i)) ∧
       u.lmf.clock = (if (s.now - t.since).toNat < t.ms then t.since + BitVec.ofNat 32 t.ms else s.now) ∧
       u.ine = s.ine ∧ u.scc = s.scc ∧ u.rsc = s.rsc ∧ u.hmg = s.hmg) ∧
  (∀ (s : State) (p : Place) (i : RecIx) (r : CarrierRecord), s.recordAt p = some i → s.rec? i = some r →
     s.present p = true →
     (p.isStation = true → ∃ u : State, exec (.carrierMissing p) s = .next u.settle ∧
       u.ltk.sensors = s.ltk.sensors.write p false ∧ (∃ r', u.rec? i = some r' ∧ r'.tagCheck = .failed ∧
         r'.position = r.position ∧ r'.status = r.status) ∧
       u.lmf.mode = (if s.lmf.mode = .run then .pause else s.lmf.mode) ∧ u.lmf.record.nonfatal = true ∧
       (s.liu.reports.length < 16 → ∃ e, u.lmf.record.lastNonfatal = some e ∧ e.code = .tagMismatch) ∧
       (∀ c, cellPlace c = p → ∀ v, (s.cell c).program = some v → v.ix = i →
         (u.cell c).program = none ∧ (u.cell c).state = .ready ∧ (u.cell c).valveOpen = false)) ∧
     (p.isLiftPlace = true →
       let r' : CarrierRecord := { r with position := .standing .offline }
       let u : State := { s with
         ltk := { s.ltk with
           sensors := s.ltk.sensors.write p false
           reads := s.ltk.reads.filter fun k => decide (k.place ≠ p)
           table := s.ltk.table.set i (some r') }
         hmg := { s.hmg with bench := s.hmg.bench.map fun v => if v = some i then none else v } }
       exec (.carrierLifted p) s = .next (match r.hold with
         | some h => u.queueReport (.holdChanged (holdReport i r' h .offline))
         | none => u).settle))

/-! ## The inspection heads -/

/-- WALK_START, POSITIONER_ARRIVAL and INSPECT_POSITION_TIMEOUT (R47 to R51, R58, R61). In RUN an IDLE head walks the
ACTIVE record of its station that has passed its tag check and is not marked: the walk table is filled and the
positioner commanded to the first point with its 1,000 ms timer; without a point the result is given at once, at MASK
with the verdict OK. Outside RUN, at a head that is not IDLE or without a record WALK_START changes nothing (log 2,
DESIGN CHOICE). An arrival that answers the command triggers the point's channel; the next point is commanded, or after
the last the head evaluates, in FULL with its 200 ms group wait; in FIRST_FAIL each trigger has its 200 ms result timer.
A positioner timer's end, at its own moment (log 3), takes the head to FAULTED with its walk emptied and the fault
noted. -/
def Obligations.WalksStartAndTrigger : Prop :=
  ∀ (s : State) (h : HeadId) (i : RecIx) (r : CarrierRecord) (p : Recipe),
    let v := s.head h
    (s.recordAt (headPlace h) = some i → s.rec? i = some r → s.recipeOf i = some p → v.state = .idle → s.lmf.mode = .run →
      r.status = .active → r.tagCheck = .passed → v.given ≠ some { ix := i, pass := r.pass } →
      let g := groupPoints (walkOf h p).2.length 0
      let w : WalkTable :=
        { ix := i, pass := r.pass, mode := (walkOf h p).1, points := (walkOf h p).2, group := g, todo := g, nextGroup := 1
          retries := 0, spurious := 0, started := s.now }
      ((walkOf h p).2 ≠ [] →
        exec (.walkStart h) s = .next (s.setHead h { v with
          state := .walking, walk := some w, groupTimer := none, posTimer := some { since := s.now, ms := 1000 } }).settle) ∧
      ((walkOf h p).2 = [] → ∃ u : State, exec (.walkStart h) s = .next u.settle ∧ (u.head h).state = .idle ∧
        (u.head h).walk = none ∧ (u.head h).given = some { ix := i, pass := r.pass } ∧
        (h = .mask → ∃ r', u.rec? i = some r' ∧ r'.maskVerdict = .ok))) ∧
    (s.lmf.mode ≠ .run ∨ v.state ≠ .idle ∨ s.recordAt (headPlace h) = none → exec (.walkStart h) s = .next s.settle) ∧
    (∀ w t k rest e, v.walk = some w → v.posTimer = some t → w.todo = k :: rest → w.points[k]? = some e →
      exec (.positionerArrival h false) s = .next s.settle ∧
      exec (.positionerArrival h true) s = .next (s.setHead h { v with
        state := if rest = [] then .evaluating else .walking
        posTimer := if rest = [] then none else some { since := s.now, ms := 1000 }
        pending := v.pending.set e.channel (some k)
        resultTimers :=
          if w.mode = .firstFail then v.resultTimers.set e.channel (some { since := s.now, ms := 200 }) else v.resultTimers
        groupTimer := if w.mode = .full ∧ rest = [] then some { since := s.now, ms := 200 } else v.groupTimer
        walk := some { w with
          points := w.points.modify k (fun e => { e with state := .triggered }), todo := rest } }).settle) ∧
    (∀ w t, v.walk = some w → v.posTimer = some t →
      exec (.inspectPositionTimeout h) s = .next (((s.expire t).setHead h
        { state := .faulted, given := v.given, walk := none, groupTimer := none, posTimer := none
          slots := Vector.replicate 4 none, pending := Vector.replicate 4 none
          resultTimers := Vector.replicate 4 none }).noteFault .inspectPositionTimeout (.ine h) { ix := some w.ix }).settle)

/-- CHANNEL_RESULT, GROUP_WAIT_EXPIRY and RESULT_TIMER_EXPIRY (R52 to R59). Without a walk a result does nothing. In FULL one
that lands fills its slot, the last of an evaluating group has the group judged and the next one begun; one without trigger
or slot is counted, with SPURIOUS_RESULT noted. In FIRST_FAIL one without a trigger is discarded; a failing reading, or a
third attempt without one, at MASK ends the walk with mask verdict FAIL; the last passing one ends it with OK: without a hold
part the plan stays, with one the record is diverted (R19). An INSPECT walk that ends on CONTAMINATED raises KEEPOUT and
diverts (R20); the Bench Queue keeps the order of R147 (log 37). Below the third attempt a point without a result is in
RETRY with PROBE_RETRY noted. A timer's end has its own moment (log 3); a group wait's end without a timer does nothing
(log 2). -/
def Obligations.ResultsAreTakenAndRetried : Prop :=
  ∀ (s : State) (h : HeadId) (c : Fin 4) (x : BitVec 10),
    let v := s.head h
    (v.walk = none → exec (.channelResult h c x) s = .next s.settle) ∧
    (v.groupTimer = none → exec (.groupWaitExpiry h) s = .next s.settle) ∧
    ∀ w, v.walk = some w →
      let live (r : CarrierRecord) : Prop :=
        s.rec? w.ix = some r ∧ r.status.isLive = true ∧ ∀ b, s.ctc.waiting = some b → b.ix ≠ w.ix
      let maskKind (p : Point) : Prop := p.kind = .cap ∨ p.kind = .tape ∨ p.kind = .boot ∨ p.kind = .plug
      (∀ k, w.mode = .full → v.pending[c] = some k → v.slots[c] = none → v.state ≠ .evaluating →
        exec (.channelResult h c x) s = .next (s.setHead h { v with
          slots := v.slots.set c (some x.toNat), pending := v.pending.set c none
          walk := some { w with points := w.points.modify k fun e => { e with state := .landed } } }).settle) ∧
      (∀ k, w.mode = .full → v.state = .evaluating → v.pending[c] = some k → v.slots[c] = none → k ∈ w.group →
        w.group.Nodup → w.points.length > 4 * w.nextGroup →
        (∀ j ∈ w.group, ∃ e, w.points[j]? = some e ∧ (e.channel = c ↔ j = k) ∧ (j ≠ k → e.state = .landed) ∧
          ∀ j' ∈ w.group, ∀ e', w.points[j']? = some e' → e'.channel = e.channel → j' = j) →
        ∃ u w', exec (.channelResult h c x) s = .next (u : State).settle ∧ (u.head h).state = .walking ∧
          (u.head h).walk = some w' ∧ w'.nextGroup = w.nextGroup + 1 ∧ w'.todo = w'.group ∧
          (∀ n, n ∈ w'.group ↔ n < w.points.length ∧ n / 4 = w.nextGroup) ∧
          ∀ j ∈ w.group, ∃ e e', w.points[j]? = some e ∧ w'.points[j]? = some e' ∧ e'.state = .judged ∧
            e'.verdict = some (readingVerdict e.point (if j = k then x.toNat else (v.slots[e.channel]).getD 0))) ∧
      (w.mode = .full → (v.pending[c] = none ∨ v.slots[c] ≠ none) →
        exec (.channelResult h c x) s = .next ((s.setHead h { v with
          walk := some { w with spurious := min (w.spurious + 1) 255 } }).noteFault .spuriousResult (.ine h)
            { ix := some w.ix }).settle) ∧
      (w.mode = .firstFail → v.pending[c] = none → exec (.channelResult h c x) s = .next s.settle) ∧
      (∀ k e r, h = .mask → v.pending[c] = some k → w.points[k]? = some e → e.list = .mask → live r →
        (w.mode = .firstFail → maskKind e.point → (x.toNat < e.point.low ∨ e.point.high < x.toNat) →
          ∃ u : State, exec (.channelResult h c x) s = .next u.settle ∧ ResultGiven u .mask w.ix w.pass ∧
            DivertedByRule s u w.ix .mask ∧ ∃ r', u.rec? w.ix = some r' ∧ r'.maskVerdict = .fail) ∧
        (∀ t, v.resultTimers[c] = some t → 3 ≤ e.attempt →
          ∃ u : State, exec (.resultTimerExpiry h c) s = .next u.settle ∧ ResultGiven u .mask w.ix w.pass ∧
            ∃ r' q, u.rec? w.ix = some r' ∧ r'.maskVerdict = .fail ∧ r'.plan = [] ∧ r'.hold = some q ∧
              ((∀ y, r.hold = some y → y.reasons.length ≤ 5) → ∃ z ∈ q.reasons, z.code = .maskNoResult)) ∧
        (w.mode = .firstFail → maskKind e.point → e.point.low ≤ x.toNat → x.toNat ≤ e.point.high → w.todo = [] →
          w.points.length ≤ 4 * w.nextGroup → (∀ j ∈ w.group, j < w.points.length) →
          (∀ j y, j ≠ k → w.points[j]? = some y → y.state = .judged ∧ y.verdict = some .present) →
          ∃ u r', exec (.channelResult h c x) s = .next (u : State).settle ∧ ResultGiven u .mask w.ix w.pass ∧
            u.rec? w.ix = some r' ∧ r'.maskVerdict = .ok ∧ (∀ y ∈ r'.maskPoints, y = .present) ∧
            (r.hold = none → r'.hold = none ∧ r'.plan = r.plan ∧ r'.lane = r.lane ∧ u.hmg = s.hmg ∧ u.ctc = s.ctc) ∧
            (r.hold.isSome = true → DivertedByRule s u w.ix .mask))) ∧
      (∀ k e r, h = .inspect → w.mode = .firstFail → v.pending[c] = some k → w.points[k]? = some e → e.list = .keepout →
        e.point.kind = .keepout → e.point.high < x.toNat → live r → (∀ q, r.hold = some q → q.reasons.length < 8) →
        ∃ u : State, exec (.channelResult h c x) s = .next u.settle ∧ ResultGiven u .inspect w.ix w.pass ∧
          DivertedByRule s u w.ix .inspect ∧
          ∃ r' q, u.rec? w.ix = some r' ∧ r'.hold = some q ∧ ∃ z ∈ q.reasons, z.code = .keepout) ∧
      (∀ k e t, w.mode = .full → w.group = [k] → w.points[k]? = some e → e.state = .triggered → e.attempt < 3 →
        v.groupTimer = some t →
        exec (.groupWaitExpiry h) s =
          let u := (s.expire t).noteFault .probeRetry (.ine h) { ix := some w.ix }
          .next (u.setHead h { v with
            state := .walking, groupTimer := none, pending := v.pending.set e.channel none
            posTimer := some { since := u.now, ms := 1000 }
            walk := some { w with
              points := w.points.modify k (fun e => { e with attempt := e.attempt + 1, state := .retry })
              retries := min (w.retries + 1) 255, todo := [k] } }).settle) ∧
      (∀ k e t, v.resultTimers[c] = some t → v.pending[c] = some k → w.points[k]? = some e → e.attempt < 3 → w.todo ≠ [] →
        exec (.resultTimerExpiry h c) s = .next (((s.expire t).setHead h { v with
          resultTimers := v.resultTimers.set c none
          walk := some { w with
            points := w.points.modify k (fun e => { e with attempt := e.attempt + 1, state := .retry })
            retries := min (w.retries + 1) 255 } }).noteFault .probeRetry (.ine h) { ix := some w.ix }).settle)

/-! ## The spray cells -/

/-- HOME_REACHED, HOME_TIMEOUT and GANTRY_HALT_REPORT (R71, R79, R86). A HOMING cell at its home sensor is READY at (0, 0,
30.0 mm); at its timer's end, at that moment (log 3), it is FAULTED with HOME_TIMEOUT noted and its gantry halted; CELL_STATE is
queued. The drive's halt report, while one is awaited (log 17), gives the gantry position. Elsewhere these change nothing, so
a HOME_TIMEOUT of a cell that is not HOMING (log 2). -/
def Obligations.CellsHomeAndHalt : Prop :=
  ∀ (s : State) (c : CellId) (x y z : Nat),
    let v := s.cell c
    (v.state = .homing →
      exec (.homeReached c) s =
        .next ((s.setCell c { v with state := .ready, homeTimer := none, gantry := some ⟨0, 0, 300⟩, haltDue := false
          }).queueReport (.cellState c .ready .homeReached none)).settle ∧
      ∀ t, v.homeTimer = some t →
        let u := (s.expire t).noteFault .homeTimeout (.scc c) {}
        exec (.homeTimeout c) s =
          .next ((u.setCell c { v with state := .faulted, homeTimer := none, gantry := none, haltDue := true, valveOpen := false
            }).queueReport (.cellState c .faulted .homeTimeout none)).settle) ∧
    (v.state ≠ .homing →
      exec (.homeReached c) s = .next s.settle ∧ exec (.homeTimeout c) s = .next s.settle) ∧
    exec (.gantryHaltReport c x y z) s =
      .next (if v.haltDue then s.setCell c { v with gantry := some ⟨x, y, z⟩, haltDue := false } else s).settle

/-- PROGRAM_START, SEEK_END, LEAD_TIMER_EXPIRY and VALVE_CLOSE_TIMER (R72, R76, R77). In RUN a READY cell starts its
program for the ACTIVE record at it that has passed its tag check and is not marked: PRIMING with an empty buffer,
counters at 0 and CELL_STATE queued. Outside RUN, at a cell that is not READY or without a record PROGRAM_START changes
nothing (log 2, DESIGN CHOICE). The end of a seek sets the gantry at the start and height; a segment that sprays opens
the valve, for its lead first when it has one; MOTION has T + 2,000 ms, and the valve closes T - trail after it began.
The timers' ends have their own moments (log 3), and the end of a seek gives a position in place of an awaited halt
report (log 17). -/
def Obligations.SegmentsGoThroughTheirPhases : Prop :=
  ∀ (s : State) (c : CellId),
    let v := s.cell c
    (∀ i r p, s.recordAt (cellPlace c) = some i → s.rec? i = some r → s.recipeOf i = some p → v.state = .ready →
      s.lmf.mode = .run → r.status = .active → r.tagCheck = .passed → v.runMark ≠ some { ix := i, pass := r.pass } →
      exec (.programStart c) s =
        .next ((s.setCell c { v with
          state := .priming, buffer := Vector.replicate 4 none, fill := 0, exec := 0, fetchIndex := 0, runZone := none
          skip := false, executing := none, counts := ⟨0, 0, 0, 0⟩
          program := some
            { ix := i, pass := r.pass, offset := (progOf c p).offset, count := (progOf c p).count, next := 0 }
          }).queueReport (.cellState c .priming .programStart (some i))).settle) ∧
    (s.lmf.mode ≠ .run ∨ v.state ≠ .ready ∨ s.recordAt (cellPlace c) = none →
      exec (.programStart c) s = .next s.settle) ∧
    (∀ e, v.executing = some e → e.phase = .seek →
      let at_ : SprayCell := { v with gantry := some ⟨e.seg.x, e.seg.y, e.seg.z⟩, haltDue := false }
      let motion : SprayCell := { at_ with
        executing := some { e with phase := .motion }
        gantryTimer := some { since := s.now, ms := e.time + 2000 } }
      (e.feff = 0 → v.valveOpen = false →
        exec (.seekEnd c) s = .next (s.setCell c { motion with valveTimer := none }).settle) ∧
      (0 < e.feff → e.lead = 0 →
        exec (.seekEnd c) s = .next (s.setCell c { motion with
          valveOpen := true, valveTimer := some { since := s.now, ms := e.time - e.trail } }).settle) ∧
      (0 < e.feff → e.lead ≠ 0 →
        exec (.seekEnd c) s = .next (s.setCell c { at_ with
          executing := some { e with phase := .lead }, gantryTimer := none, valveOpen := true
          leadTimer := some { since := s.now, ms := e.lead } }).settle)) ∧
    (∀ e t, v.executing = some e → e.phase = .lead → v.leadTimer = some t → v.valveOpen = true →
      let u := s.expire t
      exec (.leadTimerExpiry c) s = .next (u.setCell c { v with
        leadTimer := none, executing := some { e with phase := .motion }
        gantryTimer := some { since := u.now, ms := e.time + 2000 }
        valveTimer := some { since := u.now, ms := e.time - e.trail } }).settle) ∧
    (∀ t, v.valveTimer = some t →
      exec (.valveCloseTimer c) s =
        .next ((s.expire t).setCell c { v with valveTimer := none, valveOpen := false }).settle)

/-- MOTION_END (R77, R85, R86, R97, R100 to R103). The deposit of a SPRAY segment is added to the accumulator of its zone,
saturating, a MOVE segment adds nothing, and one segment more is executed. When the last segment of the program ends, the cell
is READY, the mark names the record and pass, and SPRAY_DONE is queued with outcome COMPLETED; where the plan holds no further
cell the spray-end time is set and the film evaluated, its reasons raised. The record's zones are those of its recipe. What
follows in a RUNNING cell (R68, R69, R75 to R77, R80 to R84, R92 to R96): the slot is freed, valve and timers are stopped, the
gantry stands at the segment's end, and of the next segment, as `NextByRule` spells out, the values are formed and SEEK, LEAD
or MOTION begins with its timers, or it is refused with SEGMENT_BAD or RUN_ZONE and the cell goes to FAULTED, or with an empty
slot the cell is STARVED with its 250 ms timer; in a skip segments are discarded up to the next run, and an empty slot is
awaited. -/
def Obligations.MotionEndsCreditTheZone : Prop :=
  ∀ (s : State) (c : CellId) (e : Executing) (p : Program) (r : CarrierRecord) (rc : Recipe),
    (s.cell c).executing = some e → e.phase = .motion → (s.cell c).program = some p → s.rec? p.ix = some r →
    r.status = .active → s.recipeOf p.ix = some rc → rc.zones.length = r.zones.length →
    let v := s.cell c
    let acc (z : Nat) (q : ZoneEntry) : Nat :=
      if e.seg.kind = some .spray ∧ z = e.seg.zone then min (q.acc + e.deposit) 4294967295 else q.acc
    let credited : State := s.setRec p.ix (some { r with zones := r.zones.mapIdx fun z q => { q with acc := acc z q } })
    let ended : State := credited.setCell c { v with
      buffer := v.buffer.set v.exec none, exec := v.exec + 1, program := some { p with next := p.next + 1 }, executing := none
      gantryTimer := none, valveTimer := none, valveOpen := false, gantry := some e.finish, haltDue := false
      counts := { v.counts with executed := min (v.counts.executed + 1) 65535 } }
    ∃ u : State, exec (.motionEnd c) s = .next u.settle ∧
      (u.cell c).counts.executed = min (v.counts.executed + 1) 65535 ∧
      (∃ r', u.rec? p.ix = some r' ∧ r'.zones.length = r.zones.length ∧
        ∀ z : Nat, (r'.zones[z]?).map ZoneEntry.acc = (r.zones[z]?).map (acc z)) ∧
      (v.buffer[v.exec + 1] = none → p.count ≤ p.next + 1 →
        (u.cell c).state = .ready ∧ (u.cell c).program = none ∧ (u.cell c).executing = none ∧
        (u.cell c).valveOpen = false ∧ (u.cell c).gantry = some e.finish ∧
        (u.cell c).runMark = some { ix := p.ix, pass := p.pass } ∧
        FilmByRule s u p.ix r rc (r.zones.mapIdx fun z q => { q with acc := acc z q }) ∧
        SprayDoneTold s u c p .completed r) ∧
      (v.state = .running → NextByRule c rc ended u)

/-- GANTRY_TIMEOUT, VALVE_FAULT and STARVE_LIMIT (R76, R77, R79, R81, R83). A gantry timer's end and a valve fault abandon
the program, raise GANTRY_TIMEOUT or VALVE_FAULT (NONFATAL) with the cell as its origin and the record named, and take the
cell to FAULTED with its valve shut and its gantry halted, its position unknown until the halt report; a valve fault without
a program does the same without an abandonment, and at a FAULTED cell nothing. A gantry timer's end without a timer or a
program does nothing (log 2). A starve that lasts 250 ms, with nothing fetched yet, raises STARVE_LIMIT and abandons the run:
the cell is RUNNING and skips, and FILM_UNKNOWN is raised. -/
def Obligations.CellFaultsAndStarves : Prop :=
  ∀ (s : State) (c : CellId),
    let v := s.cell c
    let noted (u : State) (code : FaultCode) (ix : Option RecIx) : Prop :=
      u.lmf.record.nonfatal = true ∧ u.lmf.mode = s.lmf.mode ∧
      (s.liu.reports.length < 16 → ∃ e, u.lmf.record.lastNonfatal = some e ∧ e.code = code ∧ e.origin = .scc c ∧
        e.detail.ix = ix)
    let faulted (u : State) : Prop :=
      (u.cell c).state = .faulted ∧ (u.cell c).program = none ∧ (u.cell c).valveOpen = false ∧
      (u.cell c).gantryTimer = none ∧ (u.cell c).gantry = none ∧ (u.cell c).haltDue = true
    (∀ t p, v.gantryTimer = some t → v.program = some p → ∃ u : State,
      exec (.gantryTimeout c) s = .next u.settle ∧ faulted u ∧ noted u .gantryTimeout (some p.ix) ∧
      (u.cell c).counts.abandoned = min (v.counts.abandoned + 1) 65535) ∧
    ((v.gantryTimer = none ∨ v.program = none) → exec (.gantryTimeout c) s = .next s.settle) ∧
    (v.state = .faulted → exec (.valveFault c) s = .next s.settle) ∧
    (v.state ≠ .faulted → ∃ u : State, exec (.valveFault c) s = .next u.settle ∧ faulted u ∧
      noted u .valveFault (v.program.map Program.ix)) ∧
    (∀ t p r, v.state = .starved → v.starveTimer = some t → v.program = some p → v.buffer[v.exec] = none →
      p.next < p.count → s.rec? p.ix = some r → r.status = .active → ∃ u : State,
      exec (.starveLimit c) s = .next u.settle ∧ noted u .starveLimit (some p.ix) ∧ (u.cell c).state = .running ∧
      (u.cell c).skip = true ∧ (u.cell c).starveTimer = none ∧ (u.cell c).program = some p ∧
      (u.cell c).counts.abandoned = min (v.counts.abandoned + 1) 65535 ∧
      (∃ r' h, u.rec? p.ix = some r' ∧ r'.hold = some h ∧
        ((∀ q, r.hold = some q → q.reasons.length < 8) → ∃ x ∈ h.reasons, x.code = .filmUnknown)))

/-! ## The cure tunnel -/

/-- ENTRY_TRANSFER_START and LANE_ENTRY_END (R111, R112). The head of the wet queue leaves it for its bound lane when
the lane runs, the lamp is READY, 350 mm are clear, no other entry is in flight, its tag check has not failed and the
line is in RUN or PAUSE, its tag check field kept (log 44). In STOP, with a lamp that is not READY or with an empty wet queue ENTRY_TRANSFER_START changes
nothing (log 2, DESIGN CHOICE). At the entry sensor it stands at 0 mm at the end of the lane's order, LANE off its plan,
the entry time is the present one, and OPEN_TIME is raised when the open time has been exceeded. ENCODER_PULSE (R114,
R113): every carrier of the lane's order and the last-entry position are 1 mm further, the latter up to 4,800 mm, and no
other record moves. A front that comes to 4,800 mm while the exit is held waits there with the present line time, and
the lane is BLOCKED in RUN and PAUSE. A front's arrival at a free exit, whose transfer starts in the same pulse (log
25), is not stated here. -/
def Obligations.CarriersEnterAndAdvance : Prop :=
  (∀ (s : State) (i : RecIx) (r : CarrierRecord) (l : LaneId), s.rec? i = some r → r.status.isLive = true →
     (∀ rest, s.ctc.wetQueue = i :: rest → r.lane = some l → (s.lane l).state = .running → s.ctc.lamp.state = .ready →
       (∀ mm, (s.lane l).lastEntry = some mm → 350 ≤ mm) → (∀ m ∈ s.ltk.moves, onLane m.dst = false) →
       (s.lmf.mode = .run ∨ s.lmf.mode = .pause) → r.tagCheck ≠ .failed →
       let move : Move := { ix := i, src := .wetq, dst := lanePlace l, drive := .driven { since := s.now, ms := 20000 } }
       let table := s.ltk.table.set i (some { r with position := .inTransit .wetq (lanePlace l) })
       let queue := (i :: rest).filter fun j => decide (j ≠ i)
       exec .entryTransferStart s = .next { s with
         ltk := { s.ltk with table := table, moves := s.ltk.moves ++ [move] }
         ctc := { s.ctc with wetQueue := queue } }.settle) ∧
     (s.lmf.mode = .stop ∨ s.ctc.lamp.state ≠ .ready ∨ s.ctc.wetQueue = [] →
       exec .entryTransferStart s = .next s.settle) ∧
     (∀ pre m post, s.ltk.moves = pre ++ m :: post → m.dst = lanePlace l → m.ix = i → (∀ k ∈ pre, k.dst ≠ lanePlace l) →
       let late := ∃ t p, r.sprayEnd = some t ∧ s.recipeOf i = some p ∧ p.material.openTime * 1000 < (s.now - t).toNat
       ∃ u : State, exec (.laneEntryEnd l) s = .next u.settle ∧
         u.lane l = { s.lane l with order := (s.lane l).order ++ [i], lastEntry := some 0 } ∧
         u.ltk.moves = s.ltk.moves.filter (fun k => decide (k.ix ≠ i)) ∧
         (∃ r', u.rec? i = some r' ∧ r'.position = .standing (lanePlace l) ∧ r'.posInLane = some 0 ∧
           r'.plan = r.plan.tail ∧ r'.entryTime = some s.now ∧ (¬ late → r'.hold = r.hold) ∧
           (late → ∃ h, r'.hold = some h ∧
             ((∀ q, r.hold = some q → q.reasons.length < 8) → ∃ x ∈ h.reasons, x.code = .openTime))) ∧
         u.rsc = s.rsc ∧ u.ine = s.ine ∧ u.scc = s.scc ∧ u.hmg = s.hmg ∧ u.lmf.mode = s.lmf.mode)) ∧
  (∀ (s : State) (l : LaneId), (s.lane l).order.Nodup →
     let mm (i : RecIx) : Nat := s.mmOf i + (if ((s.rec? i).bind CarrierRecord.posInLane).isSome then 1 else 0)
     let moved (u : State) : Prop :=
       (∀ i, u.rec? i = if i ∈ (s.lane l).order then (s.rec? i).map fun r => { r with posInLane := r.posInLane.map (· + 1) }
         else s.rec? i) ∧
       (u.lane l).lastEntry = (s.lane l).lastEntry.map (fun v => min (v + 1) 4800) ∧
       (u.lane l).order = (s.lane l).order ∧ u.rsc = s.rsc ∧ u.ine = s.ine ∧ u.scc = s.scc ∧ u.hmg = s.hmg
     ((∀ i rest, (s.lane l).order = i :: rest → mm i ≠ 4800) → ∃ u : State,
       exec (.encoderPulse l) s = .next u.settle ∧ moved u ∧ (u.lane l).arrival = (s.lane l).arrival ∧ u.liu = s.liu) ∧
     (∀ i rest, (s.lane l).order = i :: rest → mm i = 4800 → s.ctc.exitHolder.isSome = true → ∃ u : State,
       exec (.encoderPulse l) s = .next u.settle ∧ moved u ∧ (u.lane l).arrival = some s.now ∧
       (u.lane l).state = if s.lmf.mode = .run ∨ s.lmf.mode = .pause then .blocked else .stopped))

/-- UV_SAMPLE (R117 to R119, R130): the measured irradiance is the raw count times the gain, divided by 1,000, at most
2,000, and 0 without a count; a READY lamp is LOW at its fifth sample in a row below the lamp minimum, a LOW one READY at
its fifth in a row not below it, and either starts over at the other kind. Then every record on the belts in the UV zone
gains the irradiance used for dose, and no other record changes. THERMAL_SAMPLE (R120 to R122, R129 to R135, R165): a zone
is NORMAL with the mean of two valid channels, DEGRADED with one, and without one HOLDING with its last temperature from the
first such sample on, LOST from 10,000 ms. SENSOR_DEGRADED, ZONE_SENSOR_LOST and ZONE_OVERTEMP are raised at the change to
DEGRADED, to LOST, and to above 230.0 °C; the last two take the line to STOP, nothing else changes the mode. Every record
on the belts beyond the UV zone gains its rate at its zone's temperature, its peak is the highest met, and a LOST zone sets
its cure-unknown flag. The clock is the sample's (log 3). -/
def Obligations.SamplesAddDose : Prop :=
  (∀ (s : State) (raw : Option (BitVec 12)), (s.ctc.lane1.order ++ s.ctc.lane2.order).Nodup → ∃ u : State,
     exec (.uvSample raw) s = .next u.settle ∧
     u.ctc.measured = (match raw with
       | some v => min (v.toNat * s.rsc.live.gain / 1000) 2000
       | none => 0) ∧
     u.lmf.clock = s.sampleTime 100 s.ctc.uvAt ∧ u.ctc.zones = s.ctc.zones ∧ u.ctc.lane1 = s.ctc.lane1 ∧
     u.ctc.lane2 = s.ctc.lane2 ∧
     (s.ctc.lamp.state = .ready →
       (u.ctc.measured < s.rsc.live.lampMin → 4 ≤ s.ctc.lamp.count → u.ctc.lamp.state = .low ∧ u.ctc.lamp.count = 0) ∧
       (u.ctc.measured < s.rsc.live.lampMin → s.ctc.lamp.count < 4 →
         u.ctc.lamp.state = .ready ∧ u.ctc.lamp.count = s.ctc.lamp.count + 1) ∧
       (s.rsc.live.lampMin ≤ u.ctc.measured → u.ctc.lamp.state = .ready ∧ u.ctc.lamp.count = 0)) ∧
     (s.ctc.lamp.state = .low →
       (s.rsc.live.lampMin ≤ u.ctc.measured → 4 ≤ s.ctc.lamp.count → u.ctc.lamp.state = .ready ∧ u.ctc.lamp.count = 0) ∧
       (s.rsc.live.lampMin ≤ u.ctc.measured → s.ctc.lamp.count < 4 →
         u.ctc.lamp.state = .low ∧ u.ctc.lamp.count = s.ctc.lamp.count + 1) ∧
       (u.ctc.measured < s.rsc.live.lampMin → u.ctc.lamp.state = .low ∧ u.ctc.lamp.count = 0)) ∧
     ∀ i, u.rec? i = (s.rec? i).map fun r =>
       if i ∈ s.ctc.lane1.order ++ s.ctc.lane2.order ∧ r.status.isLive = true ∧ (∃ mm, r.posInLane = some mm ∧ mm < 200)
       then { r with uvDose := min (r.uvDose + u.doseIrradiance) 2147483647 } else r) ∧
  (∀ (s : State) (adc : Vector (Option Int) 8), (s.ctc.lane1.order ++ s.ctc.lane2.order).Nodup → ∃ u : State,
     exec (.thermalSample adc) s = .next u.settle ∧ u.lmf.clock = s.sampleTime 1000 s.ctc.thermalAt ∧
     (∀ z : ZoneIx, u.ctc.zones[z] =
       match s.zoneReadings adc z, s.ctc.zones[z] with
       | (some a, some b), _ => { cond := .normal, temp := some ((a + b).tdiv 2), holdStart := none }
       | (some a, none), _ | (none, some a), _ => { cond := .degraded, temp := some a, holdStart := none }
       | (none, none), ⟨.normal, t, _⟩ | (none, none), ⟨.degraded, t, _⟩ =>
         { cond := .holding, temp := t, holdStart := some u.lmf.clock }
       | (none, none), ⟨.holding, t, some x⟩ =>
         { cond := if (u.lmf.clock - x).toNat < 10000 then .holding else .lost, temp := t, holdStart := some x }
       | (none, none), ⟨.holding, t, none⟩ => { cond := .holding, temp := t, holdStart := some u.lmf.clock }
       | (none, none), ⟨.lost, t, x⟩ => { cond := .lost, temp := t, holdStart := x }) ∧
     (let becomes (z : ZoneIx) (x : ZoneCond) : Prop := u.ctc.zones[z].cond = x ∧ s.ctc.zones[z].cond ≠ x
      let overtemp (z : ZoneIx) : Prop := (∃ t, u.ctc.zones[z].temp = some t ∧ 2300 < t) ∧
        ∀ t, s.ctc.zones[z].temp = some t → t ≤ 2300
      let raised (z : ZoneIx) (code : FaultCode) (cls : FaultClass) : Prop :=
        u.lmf.record.flag cls = true ∧
        (s.liu.reports.length < 8 → ∃ x ∈ u.liu.reports.drop s.liu.reports.length, ∃ e, x.body = .fault cls e ∧
          e.code = code ∧ e.origin = .ctc ∧ e.time = u.lmf.clock ∧ e.detail.zone = some z)
      (∀ z, (becomes z .degraded → raised z .sensorDegraded .correctable) ∧
        (becomes z .lost → raised z .zoneSensorLost .fatal) ∧ (overtemp z → raised z .zoneOvertemp .fatal)) ∧
      ((∃ z, becomes z .lost ∨ overtemp z) → u.lmf.mode = .stop) ∧
      ((∀ z, ¬ becomes z .lost ∧ ¬ overtemp z) → u.lmf.mode = s.lmf.mode)) ∧
     ∀ i r p mm z, i ∈ s.ctc.lane1.order ++ s.ctc.lane2.order → s.rec? i = some r → r.status.isLive = true →
       s.recipeOf i = some p → r.posInLane = some mm → 200 ≤ mm →
       (z : ZoneIx).val = (if mm < 1350 then 0 else if mm < 2500 then 1 else if mm < 3650 then 2 else 3) →
       ∃ r', u.rec? i = some r' ∧ r'.cureUnknown = (r.cureUnknown || decide (u.ctc.zones[z].cond = .lost)) ∧
         r'.uvDose = r.uvDose ∧
         match u.ctc.zones[z].temp with
         | none => r'.thermalDose = r.thermalDose ∧ r'.peak = r.peak
         | some t => r'.thermalDose = min (r.thermalDose + cureRate p.cure.rates t) 2147483647 ∧
             r'.peak = some (match r.peak with
               | some x => max x t
               | none => t))

/-- WARM_UP_END and BALLAST_FAULT (R115, R116, R118). A WARMING lamp at its timer's end, at that moment (log 3), is LOW, with LAMP_LOW noted, when the
measured irradiance lies below the lamp minimum and READY otherwise; the shutter opens but in STOP. The ballast fault input's
becoming active takes any lamp but a FAULT one to FAULT with the ballast off, the shutter shut and LAMP_FAULT noted; an input
that was active already changes nothing (log 5). -/
def Obligations.LampWarmsUpAndFaults : Prop :=
  ∀ s : State,
    let lamp (u : State) (v : Lamp) (open_ : Bool) : State := { u with ctc := { u.ctc with lamp := v, shutterOpen := open_ } }
    (∀ t, s.ctc.lamp.state = .warming → s.ctc.lamp.warmUp = some t →
      let v : Lamp := { s.ctc.lamp with warmUp := none, count := 0 }
      let told (st : LampState) : State :=
        (lamp (s.expire t) { v with state := st } (decide (s.lmf.mode ≠ .stop))).queueReport
          (.lampState st .warmUpEnd s.ctc.measured)
      (s.ctc.measured < s.rsc.live.lampMin →
        exec .warmUpEnd s = .next ((told .low).noteFault .lampLow .ctc {}).settle) ∧
      (s.rsc.live.lampMin ≤ s.ctc.measured → exec .warmUpEnd s = .next (told .ready).settle)) ∧
    (s.ctc.lamp.ballastFault = true → exec .ballastFault s = .next s.settle) ∧
    (s.ctc.lamp.ballastFault = false →
      let active : Lamp := { s.ctc.lamp with ballastFault := true }
      (s.ctc.lamp.state = .fault →
        exec .ballastFault s = .next (lamp s active s.ctc.shutterOpen).settle) ∧
      (s.ctc.lamp.state ≠ .fault →
        exec .ballastFault s = .next (((lamp s { active with
          state := .fault, count := 0, ballastOn := false, warmUp := none } false).queueReport
            (.lampState .fault .ballastFault s.ctc.measured)).noteFault .lampFault .ctc {}).settle))

/-- EXIT_TRANSFER_START (R123 to R126, R109, R136): of the fronts that wait, the arbiter grants the one with the earlier
exit arrival, LANE1's when equal, if its target is free, outside STOP and with the exit resource free. The front leaves its
lane for UNLOAD when it has no hold part and every cure check passes, otherwise for the lowest free bench position while the
Bench Queue is empty, or UNLOAD. The exit resource is its own, EXIT is off its plan, the failing checks are raised, a hold
part takes stage EXIT, the cure verdict and the exit time are written, and the record is unbound. Without a grant nothing
happens (log 2). Every front has a record and a recipe. -/
def Obligations.ExitTransfersGiveTheVerdict : Prop :=
  ∀ s : State, (∀ l i rest, (s.lane l).order = i :: rest → (s.rec? i).isSome = true ∧ (s.recipeOf i).isSome = true) →
    ((∀ l t, ¬ GrantedByRule s l t) → exec .exitTransferStart s = .next s.settle) ∧
    ∀ l i rest t r rc target, GrantedByRule s l t → (s.lane l).order = i :: rest → i ∉ rest → ExitTarget s i target →
      s.rec? i = some r → s.recipeOf i = some rc → r.status = .active → r.lane = some l →
      (∀ b, s.ctc.waiting = some b → b.ix ≠ i) →
      let fails := cureFailures rc.cure r
      ∃ u : State, exec .exitTransferStart s = .next u.settle ∧
        u.ctc.exitHolder = some i ∧ (u.lane l).order = rest ∧ (u.lane l).arrival = none ∧ BeltByRule (u.lane l) ∧
        u.ltk.moves = s.ltk.moves ++
          [{ ix := i, src := lanePlace l, dst := target, drive := .driven { since := s.now, ms := 20000 } }] ∧
        (∃ r', u.rec? i = some r' ∧ r'.position = .inTransit (lanePlace l) target ∧ r'.plan = r.plan.tail ∧
          r'.lane = none ∧ r'.posInLane = none ∧ r'.exitTime = some s.now ∧
          r'.cureVerdict = (if fails = [] then .cured else .notCured) ∧ r'.thermalDose = r.thermalDose ∧
          r'.uvDose = r.uvDose ∧ (fails = [] → r.hold = none → r'.hold = none) ∧
          (fails ≠ [] → ∃ h, r'.hold = some h ∧ (r.hold = none → ∀ x ∈ fails, ∃ q ∈ h.reasons, q.code = x)) ∧
          ∀ h, r'.hold = some h → h.stage = .exit) ∧
        u.lmf.mode = s.lmf.mode ∧ u.rsc = s.rsc ∧ u.hmg = s.hmg

/-! ## Arithmetic -/

/-- The rate for a zone temperature (R132): 0 below 400, r15 from 1,900 on, otherwise by interpolation truncated toward
zero, between its two table entries, the upper of which it does not reach. -/
def Obligations.RatesInterpolateTheTable : Prop :=
  ∀ (rates : List Nat) (t : Int), rates.length = 16 → (∀ r ∈ rates, r ≤ 1000) →
    let r (k : Nat) : Nat := rates.getD k 0
    (t < 400 → cureRate rates t = 0) ∧ (1900 ≤ t → cureRate rates t = r 15) ∧
    (∀ k f : Nat, k ≤ 14 → f < 100 → t = 400 + 100 * k + f →
      (cureRate rates t : Int) = r k + Int.tdiv (((r (k + 1) : Int) - r k) * f) 100 ∧
      min (r k) (r (k + 1)) ≤ cureRate rates t ∧ cureRate rates t ≤ max (r k) (r (k + 1)) ∧
      (f = 0 → cureRate rates t = r k) ∧ (r k ≠ r (k + 1) → cureRate rates t ≠ r (k + 1))) ∧
    cureRate rates t ≤ 1000

/-- The cure checks (R136): each fails by its own condition, with its own severity, and the provisional outcome of a
front is GOOD when it has no hold part and every check passes. The values of a segment (R93 to R96) and of a zone
(R101, R102), and the verdict of a reading (R54). T is (L x 100) div v and at least 2 ms, where lead and trail are 0;
the trail lies below T; a spraying segment below the low height has its flow derated, and the flow is clamped; the
deposit is formed in three stages, each truncated, and is never larger than the product Feff x T when solids and
efficiency lie in their ranges. -/
def Obligations.CureChecksFilmAndVerdicts : Prop :=
  ((∀ (c : CureSpec) (r : CarrierRecord) (x : ReasonCode), x ∈ cureFailures c r ↔
     (x = .cureUnknown ∧ r.cureUnknown = true) ∨ (x = .undercureThermal ∧ r.thermalDose < c.thermalTarget) ∨
     (x = .undercureUv ∧ r.uvDose < c.uvTarget) ∨ (x = .overcure ∧ c.thermalMax < r.thermalDose) ∨
     (x = .overtemp ∧ ∃ p, r.peak = some p ∧ (c.peakMax : Int) < p)) ∧
   (∀ c r, (cureFailures c r).Nodup) ∧
   ReasonCode.cureUnknown.severity = .major ∧ ReasonCode.undercureThermal.severity = .minor ∧
   ReasonCode.undercureUv.severity = .minor ∧ ReasonCode.overcure.severity = .major ∧
   ReasonCode.overtemp.severity = .critical ∧
   ∀ (s : State) (i : RecIx) (p : Recipe) (r : CarrierRecord), s.recipeOf i = some p → s.rec? i = some r →
     (s.goodFront i = true ↔ r.hold = none ∧ cureFailures p.cure r = [])) ∧
  ((∀ (m : Material) (fmax : Nat) (e : GantryPos) (g : Segment),
     let v := formValues m fmax .spray e g
     let t := g.len * 100 / g.speed
     let flow := if g.z < m.zLow then g.flow * m.derate / 100 else g.flow
     v.time = max t 2 ∧ v.trail < v.time ∧ v.lead = (if t < 2 then 0 else g.lead) ∧
     v.trail = (if t < 2 then 0 else min g.trail (t - 1)) ∧ v.feff = min flow fmax ∧
     v.deposit = (v.feff * v.time * m.solids) / 1000 * m.efficiency / 100 ∧
     (m.solids ≤ 1000 → m.efficiency ≤ 100 → v.deposit ≤ v.feff * v.time) ∧
     (formValues m fmax .move e g).feff = 0 ∧ (formValues m fmax .move e g).deposit = 0) ∧
   (∀ acc area : Nat, thicknessOf acc area = min (acc * 10 / area) 65535) ∧
   (∀ (b : Bool) (t : Nat) (z : ZoneSpec), z.low ≤ z.high →
     (zoneVerdict b t z = .unknown ↔ b = true) ∧ (zoneVerdict b t z = .low ↔ b = false ∧ t < z.low) ∧
     (zoneVerdict b t z = .high ↔ b = false ∧ z.high < t) ∧
     (zoneVerdict b t z = .ok ↔ b = false ∧ z.low ≤ t ∧ t ≤ z.high)) ∧
   ∀ (p : Point) (x : Nat),
     readingVerdict p x =
       match p.kind with
       | .cap | .tape | .boot | .plug => if x < p.low then .absent else if x ≤ p.high then .present else .misplaced
       | .keepout => if x ≤ p.high then .clean else .contaminated
       | .cover => if p.low ≤ x then .covered else .void)
end

