-- ==== Sys2Proof/Laws/State.lean ====
section
/-! SUPPORT. The small lemmas of the state's updates: for each update, what every block and every field reads
afterwards. All are true by computation and tagged for simp. -/

namespace Sys2Proof.Machine

/-! `State.atTime` -/

@[simp] theorem State.atTime_pending (s : State) (t : LineTime) : (s.atTime t).pending = s.pending := rfl
@[simp] theorem State.atTime_ltk (s : State) (t : LineTime) : (s.atTime t).ltk = s.ltk := rfl
@[simp] theorem State.atTime_rsc (s : State) (t : LineTime) : (s.atTime t).rsc = s.rsc := rfl
@[simp] theorem State.atTime_ine (s : State) (t : LineTime) : (s.atTime t).ine = s.ine := rfl
@[simp] theorem State.atTime_scc (s : State) (t : LineTime) : (s.atTime t).scc = s.scc := rfl
@[simp] theorem State.atTime_ctc (s : State) (t : LineTime) : (s.atTime t).ctc = s.ctc := rfl
@[simp] theorem State.atTime_hmg (s : State) (t : LineTime) : (s.atTime t).hmg = s.hmg := rfl
@[simp] theorem State.atTime_liu (s : State) (t : LineTime) : (s.atTime t).liu = s.liu := rfl
@[simp] theorem State.atTime_store (s : State) (t : LineTime) : (s.atTime t).store = s.store := rfl
@[simp] theorem State.atTime_freeCount (s : State) (t : LineTime) : (s.atTime t).freeCount = s.freeCount := rfl
@[simp] theorem State.atTime_mode (s : State) (t : LineTime) : (s.atTime t).lmf.mode = s.lmf.mode := rfl
@[simp] theorem State.atTime_estop (s : State) (t : LineTime) : (s.atTime t).lmf.estop = s.lmf.estop := rfl
@[simp] theorem State.atTime_clock (s : State) (t : LineTime) : (s.atTime t).lmf.clock = t := rfl
@[simp] theorem State.atTime_record (s : State) (t : LineTime) : (s.atTime t).lmf.record = s.lmf.record := rfl

/-! `State.setRec` -/

@[simp] theorem State.setRec_pending (s : State) (i : RecIx) (r : Option CarrierRecord) :
    (s.setRec i r).pending = s.pending := rfl
@[simp] theorem State.setRec_rsc (s : State) (i : RecIx) (r : Option CarrierRecord) : (s.setRec i r).rsc = s.rsc := rfl
@[simp] theorem State.setRec_ine (s : State) (i : RecIx) (r : Option CarrierRecord) : (s.setRec i r).ine = s.ine := rfl
@[simp] theorem State.setRec_scc (s : State) (i : RecIx) (r : Option CarrierRecord) : (s.setRec i r).scc = s.scc := rfl
@[simp] theorem State.setRec_ctc (s : State) (i : RecIx) (r : Option CarrierRecord) : (s.setRec i r).ctc = s.ctc := rfl
@[simp] theorem State.setRec_hmg (s : State) (i : RecIx) (r : Option CarrierRecord) : (s.setRec i r).hmg = s.hmg := rfl
@[simp] theorem State.setRec_lmf (s : State) (i : RecIx) (r : Option CarrierRecord) : (s.setRec i r).lmf = s.lmf := rfl
@[simp] theorem State.setRec_liu (s : State) (i : RecIx) (r : Option CarrierRecord) : (s.setRec i r).liu = s.liu := rfl
@[simp] theorem State.setRec_store (s : State) (i : RecIx) (r : Option CarrierRecord) :
    (s.setRec i r).store = s.store := rfl
@[simp] theorem State.setRec_freeCount (s : State) (i : RecIx) (r : Option CarrierRecord) :
    (s.setRec i r).freeCount = s.freeCount := rfl
@[simp] theorem State.setRec_table (s : State) (i : RecIx) (r : Option CarrierRecord) :
    (s.setRec i r).ltk.table = s.ltk.table.set i r := rfl
@[simp] theorem State.setRec_sensors (s : State) (i : RecIx) (r : Option CarrierRecord) :
    (s.setRec i r).ltk.sensors = s.ltk.sensors := rfl
@[simp] theorem State.setRec_moves (s : State) (i : RecIx) (r : Option CarrierRecord) :
    (s.setRec i r).ltk.moves = s.ltk.moves := rfl
@[simp] theorem State.setRec_loadEntry (s : State) (i : RecIx) (r : Option CarrierRecord) :
    (s.setRec i r).ltk.loadEntry = s.ltk.loadEntry := rfl
@[simp] theorem State.setRec_reads (s : State) (i : RecIx) (r : Option CarrierRecord) :
    (s.setRec i r).ltk.reads = s.ltk.reads := rfl
@[simp] theorem State.setRec_writes (s : State) (i : RecIx) (r : Option CarrierRecord) :
    (s.setRec i r).ltk.writes = s.ltk.writes := rfl

/-! `State.setMoves` -/

@[simp] theorem State.setMoves_pending (s : State) (v : List Move) : (s.setMoves v).pending = s.pending := rfl
@[simp] theorem State.setMoves_rsc (s : State) (v : List Move) : (s.setMoves v).rsc = s.rsc := rfl
@[simp] theorem State.setMoves_ine (s : State) (v : List Move) : (s.setMoves v).ine = s.ine := rfl
@[simp] theorem State.setMoves_scc (s : State) (v : List Move) : (s.setMoves v).scc = s.scc := rfl
@[simp] theorem State.setMoves_ctc (s : State) (v : List Move) : (s.setMoves v).ctc = s.ctc := rfl
@[simp] theorem State.setMoves_hmg (s : State) (v : List Move) : (s.setMoves v).hmg = s.hmg := rfl
@[simp] theorem State.setMoves_lmf (s : State) (v : List Move) : (s.setMoves v).lmf = s.lmf := rfl
@[simp] theorem State.setMoves_liu (s : State) (v : List Move) : (s.setMoves v).liu = s.liu := rfl
@[simp] theorem State.setMoves_store (s : State) (v : List Move) : (s.setMoves v).store = s.store := rfl
@[simp] theorem State.setMoves_freeCount (s : State) (v : List Move) : (s.setMoves v).freeCount = s.freeCount := rfl
@[simp] theorem State.setMoves_table (s : State) (v : List Move) : (s.setMoves v).ltk.table = s.ltk.table := rfl
@[simp] theorem State.setMoves_sensors (s : State) (v : List Move) : (s.setMoves v).ltk.sensors = s.ltk.sensors := rfl
@[simp] theorem State.setMoves_moves (s : State) (v : List Move) : (s.setMoves v).ltk.moves = v := rfl
@[simp] theorem State.setMoves_loadEntry (s : State) (v : List Move) :
    (s.setMoves v).ltk.loadEntry = s.ltk.loadEntry := rfl
@[simp] theorem State.setMoves_reads (s : State) (v : List Move) : (s.setMoves v).ltk.reads = s.ltk.reads := rfl
@[simp] theorem State.setMoves_writes (s : State) (v : List Move) : (s.setMoves v).ltk.writes = s.ltk.writes := rfl

/-! `State.setSensor` -/

@[simp] theorem State.setSensor_pending (s : State) (p : Place) (b : Bool) :
    (s.setSensor p b).pending = s.pending := rfl
@[simp] theorem State.setSensor_rsc (s : State) (p : Place) (b : Bool) : (s.setSensor p b).rsc = s.rsc := rfl
@[simp] theorem State.setSensor_ine (s : State) (p : Place) (b : Bool) : (s.setSensor p b).ine = s.ine := rfl
@[simp] theorem State.setSensor_scc (s : State) (p : Place) (b : Bool) : (s.setSensor p b).scc = s.scc := rfl
@[simp] theorem State.setSensor_ctc (s : State) (p : Place) (b : Bool) : (s.setSensor p b).ctc = s.ctc := rfl
@[simp] theorem State.setSensor_hmg (s : State) (p : Place) (b : Bool) : (s.setSensor p b).hmg = s.hmg := rfl
@[simp] theorem State.setSensor_lmf (s : State) (p : Place) (b : Bool) : (s.setSensor p b).lmf = s.lmf := rfl
@[simp] theorem State.setSensor_liu (s : State) (p : Place) (b : Bool) : (s.setSensor p b).liu = s.liu := rfl
@[simp] theorem State.setSensor_store (s : State) (p : Place) (b : Bool) : (s.setSensor p b).store = s.store := rfl
@[simp] theorem State.setSensor_freeCount (s : State) (p : Place) (b : Bool) :
    (s.setSensor p b).freeCount = s.freeCount := rfl
@[simp] theorem State.setSensor_table (s : State) (p : Place) (b : Bool) :
    (s.setSensor p b).ltk.table = s.ltk.table := rfl
@[simp] theorem State.setSensor_sensors (s : State) (p : Place) (b : Bool) :
    (s.setSensor p b).ltk.sensors = s.ltk.sensors.write p b := rfl
@[simp] theorem State.setSensor_moves (s : State) (p : Place) (b : Bool) :
    (s.setSensor p b).ltk.moves = s.ltk.moves := rfl
@[simp] theorem State.setSensor_loadEntry (s : State) (p : Place) (b : Bool) :
    (s.setSensor p b).ltk.loadEntry = s.ltk.loadEntry := rfl
@[simp] theorem State.setSensor_reads (s : State) (p : Place) (b : Bool) :
    (s.setSensor p b).ltk.reads = s.ltk.reads := rfl
@[simp] theorem State.setSensor_writes (s : State) (p : Place) (b : Bool) :
    (s.setSensor p b).ltk.writes = s.ltk.writes := rfl

/-! `State.setEntry` -/

@[simp] theorem State.setEntry_pending (s : State) (v : Option LoadEntry) : (s.setEntry v).pending = s.pending := rfl
@[simp] theorem State.setEntry_rsc (s : State) (v : Option LoadEntry) : (s.setEntry v).rsc = s.rsc := rfl
@[simp] theorem State.setEntry_ine (s : State) (v : Option LoadEntry) : (s.setEntry v).ine = s.ine := rfl
@[simp] theorem State.setEntry_scc (s : State) (v : Option LoadEntry) : (s.setEntry v).scc = s.scc := rfl
@[simp] theorem State.setEntry_ctc (s : State) (v : Option LoadEntry) : (s.setEntry v).ctc = s.ctc := rfl
@[simp] theorem State.setEntry_hmg (s : State) (v : Option LoadEntry) : (s.setEntry v).hmg = s.hmg := rfl
@[simp] theorem State.setEntry_lmf (s : State) (v : Option LoadEntry) : (s.setEntry v).lmf = s.lmf := rfl
@[simp] theorem State.setEntry_liu (s : State) (v : Option LoadEntry) : (s.setEntry v).liu = s.liu := rfl
@[simp] theorem State.setEntry_store (s : State) (v : Option LoadEntry) : (s.setEntry v).store = s.store := rfl
@[simp] theorem State.setEntry_freeCount (s : State) (v : Option LoadEntry) :
    (s.setEntry v).freeCount = s.freeCount := rfl
@[simp] theorem State.setEntry_table (s : State) (v : Option LoadEntry) : (s.setEntry v).ltk.table = s.ltk.table := rfl
@[simp] theorem State.setEntry_sensors (s : State) (v : Option LoadEntry) :
    (s.setEntry v).ltk.sensors = s.ltk.sensors := rfl
@[simp] theorem State.setEntry_moves (s : State) (v : Option LoadEntry) : (s.setEntry v).ltk.moves = s.ltk.moves := rfl
@[simp] theorem State.setEntry_loadEntry (s : State) (v : Option LoadEntry) : (s.setEntry v).ltk.loadEntry = v := rfl
@[simp] theorem State.setEntry_reads (s : State) (v : Option LoadEntry) : (s.setEntry v).ltk.reads = s.ltk.reads := rfl
@[simp] theorem State.setEntry_writes (s : State) (v : Option LoadEntry) :
    (s.setEntry v).ltk.writes = s.ltk.writes := rfl

/-! `State.setReads` -/

@[simp] theorem State.setReads_pending (s : State) (v : List TagReadJob) : (s.setReads v).pending = s.pending := rfl
@[simp] theorem State.setReads_rsc (s : State) (v : List TagReadJob) : (s.setReads v).rsc = s.rsc := rfl
@[simp] theorem State.setReads_ine (s : State) (v : List TagReadJob) : (s.setReads v).ine = s.ine := rfl
@[simp] theorem State.setReads_scc (s : State) (v : List TagReadJob) : (s.setReads v).scc = s.scc := rfl
@[simp] theorem State.setReads_ctc (s : State) (v : List TagReadJob) : (s.setReads v).ctc = s.ctc := rfl
@[simp] theorem State.setReads_hmg (s : State) (v : List TagReadJob) : (s.setReads v).hmg = s.hmg := rfl
@[simp] theorem State.setReads_lmf (s : State) (v : List TagReadJob) : (s.setReads v).lmf = s.lmf := rfl
@[simp] theorem State.setReads_liu (s : State) (v : List TagReadJob) : (s.setReads v).liu = s.liu := rfl
@[simp] theorem State.setReads_store (s : State) (v : List TagReadJob) : (s.setReads v).store = s.store := rfl
@[simp] theorem State.setReads_freeCount (s : State) (v : List TagReadJob) :
    (s.setReads v).freeCount = s.freeCount := rfl
@[simp] theorem State.setReads_table (s : State) (v : List TagReadJob) : (s.setReads v).ltk.table = s.ltk.table := rfl
@[simp] theorem State.setReads_sensors (s : State) (v : List TagReadJob) :
    (s.setReads v).ltk.sensors = s.ltk.sensors := rfl
@[simp] theorem State.setReads_moves (s : State) (v : List TagReadJob) : (s.setReads v).ltk.moves = s.ltk.moves := rfl
@[simp] theorem State.setReads_loadEntry (s : State) (v : List TagReadJob) :
    (s.setReads v).ltk.loadEntry = s.ltk.loadEntry := rfl
@[simp] theorem State.setReads_reads (s : State) (v : List TagReadJob) : (s.setReads v).ltk.reads = v := rfl
@[simp] theorem State.setReads_writes (s : State) (v : List TagReadJob) :
    (s.setReads v).ltk.writes = s.ltk.writes := rfl

/-! `State.setWrites` -/

@[simp] theorem State.setWrites_pending (s : State) (v : List TagWriteJob) : (s.setWrites v).pending = s.pending := rfl
@[simp] theorem State.setWrites_rsc (s : State) (v : List TagWriteJob) : (s.setWrites v).rsc = s.rsc := rfl
@[simp] theorem State.setWrites_ine (s : State) (v : List TagWriteJob) : (s.setWrites v).ine = s.ine := rfl
@[simp] theorem State.setWrites_scc (s : State) (v : List TagWriteJob) : (s.setWrites v).scc = s.scc := rfl
@[simp] theorem State.setWrites_ctc (s : State) (v : List TagWriteJob) : (s.setWrites v).ctc = s.ctc := rfl
@[simp] theorem State.setWrites_hmg (s : State) (v : List TagWriteJob) : (s.setWrites v).hmg = s.hmg := rfl
@[simp] theorem State.setWrites_lmf (s : State) (v : List TagWriteJob) : (s.setWrites v).lmf = s.lmf := rfl
@[simp] theorem State.setWrites_liu (s : State) (v : List TagWriteJob) : (s.setWrites v).liu = s.liu := rfl
@[simp] theorem State.setWrites_store (s : State) (v : List TagWriteJob) : (s.setWrites v).store = s.store := rfl
@[simp] theorem State.setWrites_freeCount (s : State) (v : List TagWriteJob) :
    (s.setWrites v).freeCount = s.freeCount := rfl
@[simp] theorem State.setWrites_table (s : State) (v : List TagWriteJob) :
    (s.setWrites v).ltk.table = s.ltk.table := rfl
@[simp] theorem State.setWrites_sensors (s : State) (v : List TagWriteJob) :
    (s.setWrites v).ltk.sensors = s.ltk.sensors := rfl
@[simp] theorem State.setWrites_moves (s : State) (v : List TagWriteJob) :
    (s.setWrites v).ltk.moves = s.ltk.moves := rfl
@[simp] theorem State.setWrites_loadEntry (s : State) (v : List TagWriteJob) :
    (s.setWrites v).ltk.loadEntry = s.ltk.loadEntry := rfl
@[simp] theorem State.setWrites_reads (s : State) (v : List TagWriteJob) :
    (s.setWrites v).ltk.reads = s.ltk.reads := rfl
@[simp] theorem State.setWrites_writes (s : State) (v : List TagWriteJob) : (s.setWrites v).ltk.writes = v := rfl

/-! `State.askWrite` -/

@[simp] theorem State.askWrite_pending (s : State) (p : Place) (v : Byte) (w : WriteFor) :
    (s.askWrite p v w).pending = s.pending := rfl
@[simp] theorem State.askWrite_rsc (s : State) (p : Place) (v : Byte) (w : WriteFor) :
    (s.askWrite p v w).rsc = s.rsc := rfl
@[simp] theorem State.askWrite_ine (s : State) (p : Place) (v : Byte) (w : WriteFor) :
    (s.askWrite p v w).ine = s.ine := rfl
@[simp] theorem State.askWrite_scc (s : State) (p : Place) (v : Byte) (w : WriteFor) :
    (s.askWrite p v w).scc = s.scc := rfl
@[simp] theorem State.askWrite_ctc (s : State) (p : Place) (v : Byte) (w : WriteFor) :
    (s.askWrite p v w).ctc = s.ctc := rfl
@[simp] theorem State.askWrite_hmg (s : State) (p : Place) (v : Byte) (w : WriteFor) :
    (s.askWrite p v w).hmg = s.hmg := rfl
@[simp] theorem State.askWrite_lmf (s : State) (p : Place) (v : Byte) (w : WriteFor) :
    (s.askWrite p v w).lmf = s.lmf := rfl
@[simp] theorem State.askWrite_liu (s : State) (p : Place) (v : Byte) (w : WriteFor) :
    (s.askWrite p v w).liu = s.liu := rfl
@[simp] theorem State.askWrite_store (s : State) (p : Place) (v : Byte) (w : WriteFor) :
    (s.askWrite p v w).store = s.store := rfl
@[simp] theorem State.askWrite_freeCount (s : State) (p : Place) (v : Byte) (w : WriteFor) :
    (s.askWrite p v w).freeCount = s.freeCount := rfl
@[simp] theorem State.askWrite_table (s : State) (p : Place) (v : Byte) (w : WriteFor) :
    (s.askWrite p v w).ltk.table = s.ltk.table := rfl
@[simp] theorem State.askWrite_sensors (s : State) (p : Place) (v : Byte) (w : WriteFor) :
    (s.askWrite p v w).ltk.sensors = s.ltk.sensors := rfl
@[simp] theorem State.askWrite_moves (s : State) (p : Place) (v : Byte) (w : WriteFor) :
    (s.askWrite p v w).ltk.moves = s.ltk.moves := rfl
@[simp] theorem State.askWrite_loadEntry (s : State) (p : Place) (v : Byte) (w : WriteFor) :
    (s.askWrite p v w).ltk.loadEntry = s.ltk.loadEntry := rfl
@[simp] theorem State.askWrite_reads (s : State) (p : Place) (v : Byte) (w : WriteFor) :
    (s.askWrite p v w).ltk.reads = s.ltk.reads := rfl
@[simp] theorem State.askWrite_writes (s : State) (p : Place) (v : Byte) (w : WriteFor) :
    (s.askWrite p v w).ltk.writes = s.ltk.writes ++ [{ place := p, value := v, why := w, attempt := 1 }] := rfl

/-! `State.setRecord` -/

@[simp] theorem State.setRecord_pending (s : State) (v : FaultRecord) : (s.setRecord v).pending = s.pending := rfl
@[simp] theorem State.setRecord_ltk (s : State) (v : FaultRecord) : (s.setRecord v).ltk = s.ltk := rfl
@[simp] theorem State.setRecord_rsc (s : State) (v : FaultRecord) : (s.setRecord v).rsc = s.rsc := rfl
@[simp] theorem State.setRecord_ine (s : State) (v : FaultRecord) : (s.setRecord v).ine = s.ine := rfl
@[simp] theorem State.setRecord_scc (s : State) (v : FaultRecord) : (s.setRecord v).scc = s.scc := rfl
@[simp] theorem State.setRecord_ctc (s : State) (v : FaultRecord) : (s.setRecord v).ctc = s.ctc := rfl
@[simp] theorem State.setRecord_hmg (s : State) (v : FaultRecord) : (s.setRecord v).hmg = s.hmg := rfl
@[simp] theorem State.setRecord_liu (s : State) (v : FaultRecord) : (s.setRecord v).liu = s.liu := rfl
@[simp] theorem State.setRecord_store (s : State) (v : FaultRecord) : (s.setRecord v).store = s.store := rfl
@[simp] theorem State.setRecord_freeCount (s : State) (v : FaultRecord) : (s.setRecord v).freeCount = s.freeCount := rfl
@[simp] theorem State.setRecord_mode (s : State) (v : FaultRecord) : (s.setRecord v).lmf.mode = s.lmf.mode := rfl
@[simp] theorem State.setRecord_estop (s : State) (v : FaultRecord) : (s.setRecord v).lmf.estop = s.lmf.estop := rfl
@[simp] theorem State.setRecord_clock (s : State) (v : FaultRecord) : (s.setRecord v).lmf.clock = s.lmf.clock := rfl
@[simp] theorem State.setRecord_record (s : State) (v : FaultRecord) : (s.setRecord v).lmf.record = v := rfl

/-! `State.setEstop` -/

@[simp] theorem State.setEstop_pending (s : State) (b : Bool) : (s.setEstop b).pending = s.pending := rfl
@[simp] theorem State.setEstop_ltk (s : State) (b : Bool) : (s.setEstop b).ltk = s.ltk := rfl
@[simp] theorem State.setEstop_rsc (s : State) (b : Bool) : (s.setEstop b).rsc = s.rsc := rfl
@[simp] theorem State.setEstop_ine (s : State) (b : Bool) : (s.setEstop b).ine = s.ine := rfl
@[simp] theorem State.setEstop_scc (s : State) (b : Bool) : (s.setEstop b).scc = s.scc := rfl
@[simp] theorem State.setEstop_ctc (s : State) (b : Bool) : (s.setEstop b).ctc = s.ctc := rfl
@[simp] theorem State.setEstop_hmg (s : State) (b : Bool) : (s.setEstop b).hmg = s.hmg := rfl
@[simp] theorem State.setEstop_liu (s : State) (b : Bool) : (s.setEstop b).liu = s.liu := rfl
@[simp] theorem State.setEstop_store (s : State) (b : Bool) : (s.setEstop b).store = s.store := rfl
@[simp] theorem State.setEstop_freeCount (s : State) (b : Bool) : (s.setEstop b).freeCount = s.freeCount := rfl
@[simp] theorem State.setEstop_mode (s : State) (b : Bool) : (s.setEstop b).lmf.mode = s.lmf.mode := rfl
@[simp] theorem State.setEstop_estop (s : State) (b : Bool) : (s.setEstop b).lmf.estop = b := rfl
@[simp] theorem State.setEstop_clock (s : State) (b : Bool) : (s.setEstop b).lmf.clock = s.lmf.clock := rfl
@[simp] theorem State.setEstop_record (s : State) (b : Bool) : (s.setEstop b).lmf.record = s.lmf.record := rfl

/-! `State.countLost` -/

@[simp] theorem State.countLost_pending (s : State) : (s.countLost).pending = s.pending := rfl
@[simp] theorem State.countLost_ltk (s : State) : (s.countLost).ltk = s.ltk := rfl
@[simp] theorem State.countLost_rsc (s : State) : (s.countLost).rsc = s.rsc := rfl
@[simp] theorem State.countLost_ine (s : State) : (s.countLost).ine = s.ine := rfl
@[simp] theorem State.countLost_scc (s : State) : (s.countLost).scc = s.scc := rfl
@[simp] theorem State.countLost_ctc (s : State) : (s.countLost).ctc = s.ctc := rfl
@[simp] theorem State.countLost_hmg (s : State) : (s.countLost).hmg = s.hmg := rfl
@[simp] theorem State.countLost_lmf (s : State) : (s.countLost).lmf = s.lmf := rfl
@[simp] theorem State.countLost_store (s : State) : (s.countLost).store = s.store := rfl
@[simp] theorem State.countLost_freeCount (s : State) : (s.countLost).freeCount = s.freeCount := rfl
@[simp] theorem State.countLost_hostRx (s : State) : (s.countLost).liu.hostRx = s.liu.hostRx := rfl
@[simp] theorem State.countLost_benchRx (s : State) : (s.countLost).liu.benchRx = s.liu.benchRx := rfl
@[simp] theorem State.countLost_hostFast (s : State) : (s.countLost).liu.hostFast = s.liu.hostFast := rfl
@[simp] theorem State.countLost_replies (s : State) : (s.countLost).liu.replies = s.liu.replies := rfl
@[simp] theorem State.countLost_held (s : State) : (s.countLost).liu.held = s.liu.held := rfl
@[simp] theorem State.countLost_hostTx (s : State) : (s.countLost).liu.hostTx = s.liu.hostTx := rfl
@[simp] theorem State.countLost_benchTx (s : State) : (s.countLost).liu.benchTx = s.liu.benchTx := rfl
@[simp] theorem State.countLost_reports (s : State) : (s.countLost).liu.reports = s.liu.reports := rfl
@[simp] theorem State.countLost_lost (s : State) : (s.countLost).liu.lost = satInc Config.lostMax s.liu.lost := rfl
@[simp] theorem State.countLost_full (s : State) : (s.countLost).liu.full = s.liu.full := rfl
@[simp] theorem State.countLost_online (s : State) : (s.countLost).liu.online = s.liu.online := rfl
@[simp] theorem State.countLost_silence (s : State) : (s.countLost).liu.silence = s.liu.silence := rfl

/-! `State.setHeld` -/

@[simp] theorem State.setHeld_pending (s : State) (v : Option Frame) : (s.setHeld v).pending = s.pending := rfl
@[simp] theorem State.setHeld_ltk (s : State) (v : Option Frame) : (s.setHeld v).ltk = s.ltk := rfl
@[simp] theorem State.setHeld_rsc (s : State) (v : Option Frame) : (s.setHeld v).rsc = s.rsc := rfl
@[simp] theorem State.setHeld_ine (s : State) (v : Option Frame) : (s.setHeld v).ine = s.ine := rfl
@[simp] theorem State.setHeld_scc (s : State) (v : Option Frame) : (s.setHeld v).scc = s.scc := rfl
@[simp] theorem State.setHeld_ctc (s : State) (v : Option Frame) : (s.setHeld v).ctc = s.ctc := rfl
@[simp] theorem State.setHeld_hmg (s : State) (v : Option Frame) : (s.setHeld v).hmg = s.hmg := rfl
@[simp] theorem State.setHeld_lmf (s : State) (v : Option Frame) : (s.setHeld v).lmf = s.lmf := rfl
@[simp] theorem State.setHeld_store (s : State) (v : Option Frame) : (s.setHeld v).store = s.store := rfl
@[simp] theorem State.setHeld_freeCount (s : State) (v : Option Frame) : (s.setHeld v).freeCount = s.freeCount := rfl
@[simp] theorem State.setHeld_hostRx (s : State) (v : Option Frame) : (s.setHeld v).liu.hostRx = s.liu.hostRx := rfl
@[simp] theorem State.setHeld_benchRx (s : State) (v : Option Frame) : (s.setHeld v).liu.benchRx = s.liu.benchRx := rfl
@[simp] theorem State.setHeld_hostFast (s : State) (v : Option Frame) :
    (s.setHeld v).liu.hostFast = s.liu.hostFast := rfl
@[simp] theorem State.setHeld_replies (s : State) (v : Option Frame) : (s.setHeld v).liu.replies = s.liu.replies := rfl
@[simp] theorem State.setHeld_held (s : State) (v : Option Frame) : (s.setHeld v).liu.held = v := rfl
@[simp] theorem State.setHeld_hostTx (s : State) (v : Option Frame) : (s.setHeld v).liu.hostTx = s.liu.hostTx := rfl
@[simp] theorem State.setHeld_benchTx (s : State) (v : Option Frame) : (s.setHeld v).liu.benchTx = s.liu.benchTx := rfl
@[simp] theorem State.setHeld_reports (s : State) (v : Option Frame) : (s.setHeld v).liu.reports = s.liu.reports := rfl
@[simp] theorem State.setHeld_lost (s : State) (v : Option Frame) : (s.setHeld v).liu.lost = s.liu.lost := rfl
@[simp] theorem State.setHeld_full (s : State) (v : Option Frame) : (s.setHeld v).liu.full = s.liu.full := rfl
@[simp] theorem State.setHeld_online (s : State) (v : Option Frame) : (s.setHeld v).liu.online = s.liu.online := rfl
@[simp] theorem State.setHeld_silence (s : State) (v : Option Frame) : (s.setHeld v).liu.silence = s.liu.silence := rfl

/-! `State.setBench` -/

@[simp] theorem State.setBench_pending (s : State) (v : Vector (Option RecIx) 4) :
    (s.setBench v).pending = s.pending := rfl
@[simp] theorem State.setBench_ltk (s : State) (v : Vector (Option RecIx) 4) : (s.setBench v).ltk = s.ltk := rfl
@[simp] theorem State.setBench_rsc (s : State) (v : Vector (Option RecIx) 4) : (s.setBench v).rsc = s.rsc := rfl
@[simp] theorem State.setBench_ine (s : State) (v : Vector (Option RecIx) 4) : (s.setBench v).ine = s.ine := rfl
@[simp] theorem State.setBench_scc (s : State) (v : Vector (Option RecIx) 4) : (s.setBench v).scc = s.scc := rfl
@[simp] theorem State.setBench_ctc (s : State) (v : Vector (Option RecIx) 4) : (s.setBench v).ctc = s.ctc := rfl
@[simp] theorem State.setBench_lmf (s : State) (v : Vector (Option RecIx) 4) : (s.setBench v).lmf = s.lmf := rfl
@[simp] theorem State.setBench_liu (s : State) (v : Vector (Option RecIx) 4) : (s.setBench v).liu = s.liu := rfl
@[simp] theorem State.setBench_store (s : State) (v : Vector (Option RecIx) 4) : (s.setBench v).store = s.store := rfl
@[simp] theorem State.setBench_freeCount (s : State) (v : Vector (Option RecIx) 4) :
    (s.setBench v).freeCount = s.freeCount := rfl
@[simp] theorem State.setBench_bench (s : State) (v : Vector (Option RecIx) 4) : (s.setBench v).hmg.bench = v := rfl
@[simp] theorem State.setBench_queue (s : State) (v : Vector (Option RecIx) 4) :
    (s.setBench v).hmg.queue = s.hmg.queue := rfl

/-! `State.setQueue` -/

@[simp] theorem State.setQueue_pending (s : State) (v : List RecIx) : (s.setQueue v).pending = s.pending := rfl
@[simp] theorem State.setQueue_ltk (s : State) (v : List RecIx) : (s.setQueue v).ltk = s.ltk := rfl
@[simp] theorem State.setQueue_rsc (s : State) (v : List RecIx) : (s.setQueue v).rsc = s.rsc := rfl
@[simp] theorem State.setQueue_ine (s : State) (v : List RecIx) : (s.setQueue v).ine = s.ine := rfl
@[simp] theorem State.setQueue_scc (s : State) (v : List RecIx) : (s.setQueue v).scc = s.scc := rfl
@[simp] theorem State.setQueue_ctc (s : State) (v : List RecIx) : (s.setQueue v).ctc = s.ctc := rfl
@[simp] theorem State.setQueue_lmf (s : State) (v : List RecIx) : (s.setQueue v).lmf = s.lmf := rfl
@[simp] theorem State.setQueue_liu (s : State) (v : List RecIx) : (s.setQueue v).liu = s.liu := rfl
@[simp] theorem State.setQueue_store (s : State) (v : List RecIx) : (s.setQueue v).store = s.store := rfl
@[simp] theorem State.setQueue_freeCount (s : State) (v : List RecIx) : (s.setQueue v).freeCount = s.freeCount := rfl
@[simp] theorem State.setQueue_bench (s : State) (v : List RecIx) : (s.setQueue v).hmg.bench = s.hmg.bench := rfl
@[simp] theorem State.setQueue_queue (s : State) (v : List RecIx) : (s.setQueue v).hmg.queue = v := rfl

/-! `State.setWaiting` -/

@[simp] theorem State.setWaiting_pending (s : State) (v : Option WaitingBinding) :
    (s.setWaiting v).pending = s.pending := rfl
@[simp] theorem State.setWaiting_ltk (s : State) (v : Option WaitingBinding) : (s.setWaiting v).ltk = s.ltk := rfl
@[simp] theorem State.setWaiting_rsc (s : State) (v : Option WaitingBinding) : (s.setWaiting v).rsc = s.rsc := rfl
@[simp] theorem State.setWaiting_ine (s : State) (v : Option WaitingBinding) : (s.setWaiting v).ine = s.ine := rfl
@[simp] theorem State.setWaiting_scc (s : State) (v : Option WaitingBinding) : (s.setWaiting v).scc = s.scc := rfl
@[simp] theorem State.setWaiting_hmg (s : State) (v : Option WaitingBinding) : (s.setWaiting v).hmg = s.hmg := rfl
@[simp] theorem State.setWaiting_lmf (s : State) (v : Option WaitingBinding) : (s.setWaiting v).lmf = s.lmf := rfl
@[simp] theorem State.setWaiting_liu (s : State) (v : Option WaitingBinding) : (s.setWaiting v).liu = s.liu := rfl
@[simp] theorem State.setWaiting_store (s : State) (v : Option WaitingBinding) : (s.setWaiting v).store = s.store := rfl
@[simp] theorem State.setWaiting_freeCount (s : State) (v : Option WaitingBinding) :
    (s.setWaiting v).freeCount = s.freeCount := rfl
@[simp] theorem State.setWaiting_lane1 (s : State) (v : Option WaitingBinding) :
    (s.setWaiting v).ctc.lane1 = s.ctc.lane1 := rfl
@[simp] theorem State.setWaiting_lane2 (s : State) (v : Option WaitingBinding) :
    (s.setWaiting v).ctc.lane2 = s.ctc.lane2 := rfl
@[simp] theorem State.setWaiting_waiting (s : State) (v : Option WaitingBinding) :
    (s.setWaiting v).ctc.waiting = v := rfl
@[simp] theorem State.setWaiting_wetQueue (s : State) (v : Option WaitingBinding) :
    (s.setWaiting v).ctc.wetQueue = s.ctc.wetQueue := rfl
@[simp] theorem State.setWaiting_exitHolder (s : State) (v : Option WaitingBinding) :
    (s.setWaiting v).ctc.exitHolder = s.ctc.exitHolder := rfl
@[simp] theorem State.setWaiting_lamp (s : State) (v : Option WaitingBinding) :
    (s.setWaiting v).ctc.lamp = s.ctc.lamp := rfl
@[simp] theorem State.setWaiting_shutterOpen (s : State) (v : Option WaitingBinding) :
    (s.setWaiting v).ctc.shutterOpen = s.ctc.shutterOpen := rfl
@[simp] theorem State.setWaiting_measured (s : State) (v : Option WaitingBinding) :
    (s.setWaiting v).ctc.measured = s.ctc.measured := rfl
@[simp] theorem State.setWaiting_zones (s : State) (v : Option WaitingBinding) :
    (s.setWaiting v).ctc.zones = s.ctc.zones := rfl
@[simp] theorem State.setWaiting_uvAt (s : State) (v : Option WaitingBinding) :
    (s.setWaiting v).ctc.uvAt = s.ctc.uvAt := rfl
@[simp] theorem State.setWaiting_thermalAt (s : State) (v : Option WaitingBinding) :
    (s.setWaiting v).ctc.thermalAt = s.ctc.thermalAt := rfl

/-! `State.setLamp` -/

@[simp] theorem State.setLamp_pending (s : State) (v : Lamp) : (s.setLamp v).pending = s.pending := rfl
@[simp] theorem State.setLamp_ltk (s : State) (v : Lamp) : (s.setLamp v).ltk = s.ltk := rfl
@[simp] theorem State.setLamp_rsc (s : State) (v : Lamp) : (s.setLamp v).rsc = s.rsc := rfl
@[simp] theorem State.setLamp_ine (s : State) (v : Lamp) : (s.setLamp v).ine = s.ine := rfl
@[simp] theorem State.setLamp_scc (s : State) (v : Lamp) : (s.setLamp v).scc = s.scc := rfl
@[simp] theorem State.setLamp_hmg (s : State) (v : Lamp) : (s.setLamp v).hmg = s.hmg := rfl
@[simp] theorem State.setLamp_lmf (s : State) (v : Lamp) : (s.setLamp v).lmf = s.lmf := rfl
@[simp] theorem State.setLamp_liu (s : State) (v : Lamp) : (s.setLamp v).liu = s.liu := rfl
@[simp] theorem State.setLamp_store (s : State) (v : Lamp) : (s.setLamp v).store = s.store := rfl
@[simp] theorem State.setLamp_freeCount (s : State) (v : Lamp) : (s.setLamp v).freeCount = s.freeCount := rfl
@[simp] theorem State.setLamp_lane1 (s : State) (v : Lamp) : (s.setLamp v).ctc.lane1 = s.ctc.lane1 := rfl
@[simp] theorem State.setLamp_lane2 (s : State) (v : Lamp) : (s.setLamp v).ctc.lane2 = s.ctc.lane2 := rfl
@[simp] theorem State.setLamp_waiting (s : State) (v : Lamp) : (s.setLamp v).ctc.waiting = s.ctc.waiting := rfl
@[simp] theorem State.setLamp_wetQueue (s : State) (v : Lamp) : (s.setLamp v).ctc.wetQueue = s.ctc.wetQueue := rfl
@[simp] theorem State.setLamp_exitHolder (s : State) (v : Lamp) : (s.setLamp v).ctc.exitHolder = s.ctc.exitHolder := rfl
@[simp] theorem State.setLamp_lamp (s : State) (v : Lamp) : (s.setLamp v).ctc.lamp = v := rfl
@[simp] theorem State.setLamp_shutterOpen (s : State) (v : Lamp) :
    (s.setLamp v).ctc.shutterOpen = s.ctc.shutterOpen := rfl
@[simp] theorem State.setLamp_measured (s : State) (v : Lamp) : (s.setLamp v).ctc.measured = s.ctc.measured := rfl
@[simp] theorem State.setLamp_zones (s : State) (v : Lamp) : (s.setLamp v).ctc.zones = s.ctc.zones := rfl
@[simp] theorem State.setLamp_uvAt (s : State) (v : Lamp) : (s.setLamp v).ctc.uvAt = s.ctc.uvAt := rfl
@[simp] theorem State.setLamp_thermalAt (s : State) (v : Lamp) : (s.setLamp v).ctc.thermalAt = s.ctc.thermalAt := rfl

/-! `State.setZone` -/

@[simp] theorem State.setZone_pending (s : State) (z : ZoneIx) (v : ZoneSense) :
    (s.setZone z v).pending = s.pending := rfl
@[simp] theorem State.setZone_ltk (s : State) (z : ZoneIx) (v : ZoneSense) : (s.setZone z v).ltk = s.ltk := rfl
@[simp] theorem State.setZone_rsc (s : State) (z : ZoneIx) (v : ZoneSense) : (s.setZone z v).rsc = s.rsc := rfl
@[simp] theorem State.setZone_ine (s : State) (z : ZoneIx) (v : ZoneSense) : (s.setZone z v).ine = s.ine := rfl
@[simp] theorem State.setZone_scc (s : State) (z : ZoneIx) (v : ZoneSense) : (s.setZone z v).scc = s.scc := rfl
@[simp] theorem State.setZone_hmg (s : State) (z : ZoneIx) (v : ZoneSense) : (s.setZone z v).hmg = s.hmg := rfl
@[simp] theorem State.setZone_lmf (s : State) (z : ZoneIx) (v : ZoneSense) : (s.setZone z v).lmf = s.lmf := rfl
@[simp] theorem State.setZone_liu (s : State) (z : ZoneIx) (v : ZoneSense) : (s.setZone z v).liu = s.liu := rfl
@[simp] theorem State.setZone_store (s : State) (z : ZoneIx) (v : ZoneSense) : (s.setZone z v).store = s.store := rfl
@[simp] theorem State.setZone_freeCount (s : State) (z : ZoneIx) (v : ZoneSense) :
    (s.setZone z v).freeCount = s.freeCount := rfl
@[simp] theorem State.setZone_lane1 (s : State) (z : ZoneIx) (v : ZoneSense) :
    (s.setZone z v).ctc.lane1 = s.ctc.lane1 := rfl
@[simp] theorem State.setZone_lane2 (s : State) (z : ZoneIx) (v : ZoneSense) :
    (s.setZone z v).ctc.lane2 = s.ctc.lane2 := rfl
@[simp] theorem State.setZone_waiting (s : State) (z : ZoneIx) (v : ZoneSense) :
    (s.setZone z v).ctc.waiting = s.ctc.waiting := rfl
@[simp] theorem State.setZone_wetQueue (s : State) (z : ZoneIx) (v : ZoneSense) :
    (s.setZone z v).ctc.wetQueue = s.ctc.wetQueue := rfl
@[simp] theorem State.setZone_exitHolder (s : State) (z : ZoneIx) (v : ZoneSense) :
    (s.setZone z v).ctc.exitHolder = s.ctc.exitHolder := rfl
@[simp] theorem State.setZone_lamp (s : State) (z : ZoneIx) (v : ZoneSense) :
    (s.setZone z v).ctc.lamp = s.ctc.lamp := rfl
@[simp] theorem State.setZone_shutterOpen (s : State) (z : ZoneIx) (v : ZoneSense) :
    (s.setZone z v).ctc.shutterOpen = s.ctc.shutterOpen := rfl
@[simp] theorem State.setZone_measured (s : State) (z : ZoneIx) (v : ZoneSense) :
    (s.setZone z v).ctc.measured = s.ctc.measured := rfl
@[simp] theorem State.setZone_zones (s : State) (z : ZoneIx) (v : ZoneSense) :
    (s.setZone z v).ctc.zones = s.ctc.zones.set z v := rfl
@[simp] theorem State.setZone_uvAt (s : State) (z : ZoneIx) (v : ZoneSense) :
    (s.setZone z v).ctc.uvAt = s.ctc.uvAt := rfl
@[simp] theorem State.setZone_thermalAt (s : State) (z : ZoneIx) (v : ZoneSense) :
    (s.setZone z v).ctc.thermalAt = s.ctc.thermalAt := rfl

/-! `State.setCell` -/

@[simp] theorem State.setCell_pending (s : State) (c : CellId) (v : SprayCell) :
    (s.setCell c v).pending = s.pending := by cases c <;> rfl
@[simp] theorem State.setCell_ltk (s : State) (c : CellId) (v : SprayCell) :
    (s.setCell c v).ltk = s.ltk := by cases c <;> rfl
@[simp] theorem State.setCell_rsc (s : State) (c : CellId) (v : SprayCell) :
    (s.setCell c v).rsc = s.rsc := by cases c <;> rfl
@[simp] theorem State.setCell_ine (s : State) (c : CellId) (v : SprayCell) :
    (s.setCell c v).ine = s.ine := by cases c <;> rfl
@[simp] theorem State.setCell_ctc (s : State) (c : CellId) (v : SprayCell) :
    (s.setCell c v).ctc = s.ctc := by cases c <;> rfl
@[simp] theorem State.setCell_hmg (s : State) (c : CellId) (v : SprayCell) :
    (s.setCell c v).hmg = s.hmg := by cases c <;> rfl
@[simp] theorem State.setCell_lmf (s : State) (c : CellId) (v : SprayCell) :
    (s.setCell c v).lmf = s.lmf := by cases c <;> rfl
@[simp] theorem State.setCell_liu (s : State) (c : CellId) (v : SprayCell) :
    (s.setCell c v).liu = s.liu := by cases c <;> rfl
@[simp] theorem State.setCell_store (s : State) (c : CellId) (v : SprayCell) :
    (s.setCell c v).store = s.store := by cases c <;> rfl
@[simp] theorem State.setCell_freeCount (s : State) (c : CellId) (v : SprayCell) :
    (s.setCell c v).freeCount = s.freeCount := by cases c <;> rfl

/-! `State.setHead` -/

@[simp] theorem State.setHead_pending (s : State) (h : HeadId) (v : Head) :
    (s.setHead h v).pending = s.pending := by cases h <;> rfl
@[simp] theorem State.setHead_ltk (s : State) (h : HeadId) (v : Head) :
    (s.setHead h v).ltk = s.ltk := by cases h <;> rfl
@[simp] theorem State.setHead_rsc (s : State) (h : HeadId) (v : Head) :
    (s.setHead h v).rsc = s.rsc := by cases h <;> rfl
@[simp] theorem State.setHead_scc (s : State) (h : HeadId) (v : Head) :
    (s.setHead h v).scc = s.scc := by cases h <;> rfl
@[simp] theorem State.setHead_ctc (s : State) (h : HeadId) (v : Head) :
    (s.setHead h v).ctc = s.ctc := by cases h <;> rfl
@[simp] theorem State.setHead_hmg (s : State) (h : HeadId) (v : Head) :
    (s.setHead h v).hmg = s.hmg := by cases h <;> rfl
@[simp] theorem State.setHead_lmf (s : State) (h : HeadId) (v : Head) :
    (s.setHead h v).lmf = s.lmf := by cases h <;> rfl
@[simp] theorem State.setHead_liu (s : State) (h : HeadId) (v : Head) :
    (s.setHead h v).liu = s.liu := by cases h <;> rfl
@[simp] theorem State.setHead_store (s : State) (h : HeadId) (v : Head) :
    (s.setHead h v).store = s.store := by cases h <;> rfl
@[simp] theorem State.setHead_freeCount (s : State) (h : HeadId) (v : Head) :
    (s.setHead h v).freeCount = s.freeCount := by cases h <;> rfl

/-! `State.setLane` -/

@[simp] theorem State.setLane_pending (s : State) (l : LaneId) (v : Lane) :
    (s.setLane l v).pending = s.pending := by cases l <;> rfl
@[simp] theorem State.setLane_ltk (s : State) (l : LaneId) (v : Lane) :
    (s.setLane l v).ltk = s.ltk := by cases l <;> rfl
@[simp] theorem State.setLane_rsc (s : State) (l : LaneId) (v : Lane) :
    (s.setLane l v).rsc = s.rsc := by cases l <;> rfl
@[simp] theorem State.setLane_ine (s : State) (l : LaneId) (v : Lane) :
    (s.setLane l v).ine = s.ine := by cases l <;> rfl
@[simp] theorem State.setLane_scc (s : State) (l : LaneId) (v : Lane) :
    (s.setLane l v).scc = s.scc := by cases l <;> rfl
@[simp] theorem State.setLane_hmg (s : State) (l : LaneId) (v : Lane) :
    (s.setLane l v).hmg = s.hmg := by cases l <;> rfl
@[simp] theorem State.setLane_lmf (s : State) (l : LaneId) (v : Lane) :
    (s.setLane l v).lmf = s.lmf := by cases l <;> rfl
@[simp] theorem State.setLane_liu (s : State) (l : LaneId) (v : Lane) :
    (s.setLane l v).liu = s.liu := by cases l <;> rfl
@[simp] theorem State.setLane_store (s : State) (l : LaneId) (v : Lane) :
    (s.setLane l v).store = s.store := by cases l <;> rfl
@[simp] theorem State.setLane_freeCount (s : State) (l : LaneId) (v : Lane) :
    (s.setLane l v).freeCount = s.freeCount := by cases l <;> rfl
@[simp] theorem State.setLane_waiting (s : State) (l : LaneId) (v : Lane) :
    (s.setLane l v).ctc.waiting = s.ctc.waiting := by cases l <;> rfl
@[simp] theorem State.setLane_wetQueue (s : State) (l : LaneId) (v : Lane) :
    (s.setLane l v).ctc.wetQueue = s.ctc.wetQueue := by cases l <;> rfl
@[simp] theorem State.setLane_exitHolder (s : State) (l : LaneId) (v : Lane) :
    (s.setLane l v).ctc.exitHolder = s.ctc.exitHolder := by cases l <;> rfl
@[simp] theorem State.setLane_lamp (s : State) (l : LaneId) (v : Lane) :
    (s.setLane l v).ctc.lamp = s.ctc.lamp := by cases l <;> rfl
@[simp] theorem State.setLane_shutterOpen (s : State) (l : LaneId) (v : Lane) :
    (s.setLane l v).ctc.shutterOpen = s.ctc.shutterOpen := by cases l <;> rfl
@[simp] theorem State.setLane_measured (s : State) (l : LaneId) (v : Lane) :
    (s.setLane l v).ctc.measured = s.ctc.measured := by cases l <;> rfl
@[simp] theorem State.setLane_zones (s : State) (l : LaneId) (v : Lane) :
    (s.setLane l v).ctc.zones = s.ctc.zones := by cases l <;> rfl
@[simp] theorem State.setLane_uvAt (s : State) (l : LaneId) (v : Lane) :
    (s.setLane l v).ctc.uvAt = s.ctc.uvAt := by cases l <;> rfl
@[simp] theorem State.setLane_thermalAt (s : State) (l : LaneId) (v : Lane) :
    (s.setLane l v).ctc.thermalAt = s.ctc.thermalAt := by cases l <;> rfl

/-! `State.modRsc` -/

@[simp] theorem State.modRsc_pending (s : State) (f : Rsc → Rsc) : (s.modRsc f).pending = s.pending := rfl
@[simp] theorem State.modRsc_ltk (s : State) (f : Rsc → Rsc) : (s.modRsc f).ltk = s.ltk := rfl
@[simp] theorem State.modRsc_ine (s : State) (f : Rsc → Rsc) : (s.modRsc f).ine = s.ine := rfl
@[simp] theorem State.modRsc_scc (s : State) (f : Rsc → Rsc) : (s.modRsc f).scc = s.scc := rfl
@[simp] theorem State.modRsc_ctc (s : State) (f : Rsc → Rsc) : (s.modRsc f).ctc = s.ctc := rfl
@[simp] theorem State.modRsc_hmg (s : State) (f : Rsc → Rsc) : (s.modRsc f).hmg = s.hmg := rfl
@[simp] theorem State.modRsc_lmf (s : State) (f : Rsc → Rsc) : (s.modRsc f).lmf = s.lmf := rfl
@[simp] theorem State.modRsc_liu (s : State) (f : Rsc → Rsc) : (s.modRsc f).liu = s.liu := rfl
@[simp] theorem State.modRsc_store (s : State) (f : Rsc → Rsc) : (s.modRsc f).store = s.store := rfl
@[simp] theorem State.modRsc_freeCount (s : State) (f : Rsc → Rsc) : (s.modRsc f).freeCount = s.freeCount := rfl
@[simp] theorem State.modRsc_rsc (s : State) (f : Rsc → Rsc) : (s.modRsc f).rsc = f s.rsc := rfl

/-! `State.putStore` -/

@[simp] theorem State.putStore_pending (s : State) (o : Nat) (d : List Byte) :
    (s.putStore o d).pending = s.pending := rfl
@[simp] theorem State.putStore_ltk (s : State) (o : Nat) (d : List Byte) : (s.putStore o d).ltk = s.ltk := rfl
@[simp] theorem State.putStore_rsc (s : State) (o : Nat) (d : List Byte) : (s.putStore o d).rsc = s.rsc := rfl
@[simp] theorem State.putStore_ine (s : State) (o : Nat) (d : List Byte) : (s.putStore o d).ine = s.ine := rfl
@[simp] theorem State.putStore_scc (s : State) (o : Nat) (d : List Byte) : (s.putStore o d).scc = s.scc := rfl
@[simp] theorem State.putStore_ctc (s : State) (o : Nat) (d : List Byte) : (s.putStore o d).ctc = s.ctc := rfl
@[simp] theorem State.putStore_hmg (s : State) (o : Nat) (d : List Byte) : (s.putStore o d).hmg = s.hmg := rfl
@[simp] theorem State.putStore_lmf (s : State) (o : Nat) (d : List Byte) : (s.putStore o d).lmf = s.lmf := rfl
@[simp] theorem State.putStore_liu (s : State) (o : Nat) (d : List Byte) : (s.putStore o d).liu = s.liu := rfl
@[simp] theorem State.putStore_freeCount (s : State) (o : Nat) (d : List Byte) :
    (s.putStore o d).freeCount = s.freeCount := rfl
@[simp] theorem State.putStore_store (s : State) (o : Nat) (d : List Byte) :
    (s.putStore o d).store = storeWrite s.store o d := rfl

/-! `State.reply` -/

@[simp] theorem State.reply_pending (s : State) (k t : Byte) (st : ReplyStatus) (d : List Byte) :
    (s.reply k t st d).pending = s.pending := rfl
@[simp] theorem State.reply_ltk (s : State) (k t : Byte) (st : ReplyStatus) (d : List Byte) :
    (s.reply k t st d).ltk = s.ltk := rfl
@[simp] theorem State.reply_rsc (s : State) (k t : Byte) (st : ReplyStatus) (d : List Byte) :
    (s.reply k t st d).rsc = s.rsc := rfl
@[simp] theorem State.reply_ine (s : State) (k t : Byte) (st : ReplyStatus) (d : List Byte) :
    (s.reply k t st d).ine = s.ine := rfl
@[simp] theorem State.reply_scc (s : State) (k t : Byte) (st : ReplyStatus) (d : List Byte) :
    (s.reply k t st d).scc = s.scc := rfl
@[simp] theorem State.reply_ctc (s : State) (k t : Byte) (st : ReplyStatus) (d : List Byte) :
    (s.reply k t st d).ctc = s.ctc := rfl
@[simp] theorem State.reply_hmg (s : State) (k t : Byte) (st : ReplyStatus) (d : List Byte) :
    (s.reply k t st d).hmg = s.hmg := rfl
@[simp] theorem State.reply_lmf (s : State) (k t : Byte) (st : ReplyStatus) (d : List Byte) :
    (s.reply k t st d).lmf = s.lmf := rfl
@[simp] theorem State.reply_store (s : State) (k t : Byte) (st : ReplyStatus) (d : List Byte) :
    (s.reply k t st d).store = s.store := rfl
@[simp] theorem State.reply_freeCount (s : State) (k t : Byte) (st : ReplyStatus) (d : List Byte) :
    (s.reply k t st d).freeCount = s.freeCount := rfl
@[simp] theorem State.reply_hostRx (s : State) (k t : Byte) (st : ReplyStatus) (d : List Byte) :
    (s.reply k t st d).liu.hostRx = s.liu.hostRx := rfl
@[simp] theorem State.reply_benchRx (s : State) (k t : Byte) (st : ReplyStatus) (d : List Byte) :
    (s.reply k t st d).liu.benchRx = s.liu.benchRx := rfl
@[simp] theorem State.reply_hostFast (s : State) (k t : Byte) (st : ReplyStatus) (d : List Byte) :
    (s.reply k t st d).liu.hostFast = s.liu.hostFast := rfl
@[simp] theorem State.reply_replies (s : State) (k t : Byte) (st : ReplyStatus) (d : List Byte) :
    (s.reply k t st d).liu.replies = s.liu.replies ++ [{ kind := k, tag := t, status := st, data := d }] := rfl
@[simp] theorem State.reply_held (s : State) (k t : Byte) (st : ReplyStatus) (d : List Byte) :
    (s.reply k t st d).liu.held = s.liu.held := rfl
@[simp] theorem State.reply_hostTx (s : State) (k t : Byte) (st : ReplyStatus) (d : List Byte) :
    (s.reply k t st d).liu.hostTx = s.liu.hostTx := rfl
@[simp] theorem State.reply_benchTx (s : State) (k t : Byte) (st : ReplyStatus) (d : List Byte) :
    (s.reply k t st d).liu.benchTx = s.liu.benchTx := rfl
@[simp] theorem State.reply_reports (s : State) (k t : Byte) (st : ReplyStatus) (d : List Byte) :
    (s.reply k t st d).liu.reports = s.liu.reports := rfl
@[simp] theorem State.reply_lost (s : State) (k t : Byte) (st : ReplyStatus) (d : List Byte) :
    (s.reply k t st d).liu.lost = s.liu.lost := rfl
@[simp] theorem State.reply_full (s : State) (k t : Byte) (st : ReplyStatus) (d : List Byte) :
    (s.reply k t st d).liu.full = s.liu.full := rfl
@[simp] theorem State.reply_online (s : State) (k t : Byte) (st : ReplyStatus) (d : List Byte) :
    (s.reply k t st d).liu.online = s.liu.online := rfl
@[simp] theorem State.reply_silence (s : State) (k t : Byte) (st : ReplyStatus) (d : List Byte) :
    (s.reply k t st d).liu.silence = s.liu.silence := rfl

/-! ## What an update leaves of what the blocks read by name -/

@[simp] theorem State.atTime_cell (s : State) (t : LineTime) (c' : CellId) :
    (s.atTime t).cell c' = s.cell c' := by cases c' <;> rfl

@[simp] theorem State.atTime_head (s : State) (t : LineTime) (h' : HeadId) :
    (s.atTime t).head h' = s.head h' := by cases h' <;> rfl

@[simp] theorem State.atTime_lane (s : State) (t : LineTime) (l' : LaneId) :
    (s.atTime t).lane l' = s.lane l' := by cases l' <;> rfl

@[simp] theorem State.atTime_rec (s : State) (t : LineTime) (i' : RecIx) :
    (s.atTime t).rec? i' = s.rec? i' := rfl

@[simp] theorem State.atTime_live (s : State) (t : LineTime) (i' : RecIx) :
    (s.atTime t).live? i' = s.live? i' := rfl

@[simp] theorem State.atTime_present (s : State) (t : LineTime) (p' : Place) :
    (s.atTime t).present p' = s.present p' := rfl

@[simp] theorem State.atTime_starting (s : State) (t : LineTime) :
    (s.atTime t).starting = s.starting := rfl

@[simp] theorem State.setRec_cell (s : State) (i : RecIx) (r : Option CarrierRecord) (c' : CellId) :
    (s.setRec i r).cell c' = s.cell c' := by cases c' <;> rfl

@[simp] theorem State.setRec_head (s : State) (i : RecIx) (r : Option CarrierRecord) (h' : HeadId) :
    (s.setRec i r).head h' = s.head h' := by cases h' <;> rfl

@[simp] theorem State.setRec_lane (s : State) (i : RecIx) (r : Option CarrierRecord) (l' : LaneId) :
    (s.setRec i r).lane l' = s.lane l' := by cases l' <;> rfl

@[simp] theorem State.setRec_now (s : State) (i : RecIx) (r : Option CarrierRecord) :
    (s.setRec i r).now = s.now := rfl

@[simp] theorem State.setRec_present (s : State) (i : RecIx) (r : Option CarrierRecord) (p' : Place) :
    (s.setRec i r).present p' = s.present p' := rfl

@[simp] theorem State.setRec_starting (s : State) (i : RecIx) (r : Option CarrierRecord) :
    (s.setRec i r).starting = s.starting := rfl

@[simp] theorem State.setMoves_cell (s : State) (v : List Move) (c' : CellId) :
    (s.setMoves v).cell c' = s.cell c' := by cases c' <;> rfl

@[simp] theorem State.setMoves_head (s : State) (v : List Move) (h' : HeadId) :
    (s.setMoves v).head h' = s.head h' := by cases h' <;> rfl

@[simp] theorem State.setMoves_lane (s : State) (v : List Move) (l' : LaneId) :
    (s.setMoves v).lane l' = s.lane l' := by cases l' <;> rfl

@[simp] theorem State.setMoves_rec (s : State) (v : List Move) (i' : RecIx) :
    (s.setMoves v).rec? i' = s.rec? i' := rfl

@[simp] theorem State.setMoves_live (s : State) (v : List Move) (i' : RecIx) :
    (s.setMoves v).live? i' = s.live? i' := rfl

@[simp] theorem State.setMoves_now (s : State) (v : List Move) :
    (s.setMoves v).now = s.now := rfl

@[simp] theorem State.setMoves_present (s : State) (v : List Move) (p' : Place) :
    (s.setMoves v).present p' = s.present p' := rfl

@[simp] theorem State.setMoves_starting (s : State) (v : List Move) :
    (s.setMoves v).starting = s.starting := rfl

@[simp] theorem State.setSensor_cell (s : State) (p : Place) (b : Bool) (c' : CellId) :
    (s.setSensor p b).cell c' = s.cell c' := by cases c' <;> rfl

@[simp] theorem State.setSensor_head (s : State) (p : Place) (b : Bool) (h' : HeadId) :
    (s.setSensor p b).head h' = s.head h' := by cases h' <;> rfl

@[simp] theorem State.setSensor_lane (s : State) (p : Place) (b : Bool) (l' : LaneId) :
    (s.setSensor p b).lane l' = s.lane l' := by cases l' <;> rfl

@[simp] theorem State.setSensor_rec (s : State) (p : Place) (b : Bool) (i' : RecIx) :
    (s.setSensor p b).rec? i' = s.rec? i' := rfl

@[simp] theorem State.setSensor_live (s : State) (p : Place) (b : Bool) (i' : RecIx) :
    (s.setSensor p b).live? i' = s.live? i' := rfl

@[simp] theorem State.setSensor_now (s : State) (p : Place) (b : Bool) :
    (s.setSensor p b).now = s.now := rfl

@[simp] theorem State.setSensor_starting (s : State) (p : Place) (b : Bool) :
    (s.setSensor p b).starting = s.starting := rfl

@[simp] theorem State.setEntry_cell (s : State) (v : Option LoadEntry) (c' : CellId) :
    (s.setEntry v).cell c' = s.cell c' := by cases c' <;> rfl

@[simp] theorem State.setEntry_head (s : State) (v : Option LoadEntry) (h' : HeadId) :
    (s.setEntry v).head h' = s.head h' := by cases h' <;> rfl

@[simp] theorem State.setEntry_lane (s : State) (v : Option LoadEntry) (l' : LaneId) :
    (s.setEntry v).lane l' = s.lane l' := by cases l' <;> rfl

@[simp] theorem State.setEntry_rec (s : State) (v : Option LoadEntry) (i' : RecIx) :
    (s.setEntry v).rec? i' = s.rec? i' := rfl

@[simp] theorem State.setEntry_live (s : State) (v : Option LoadEntry) (i' : RecIx) :
    (s.setEntry v).live? i' = s.live? i' := rfl

@[simp] theorem State.setEntry_now (s : State) (v : Option LoadEntry) :
    (s.setEntry v).now = s.now := rfl

@[simp] theorem State.setEntry_present (s : State) (v : Option LoadEntry) (p' : Place) :
    (s.setEntry v).present p' = s.present p' := rfl

@[simp] theorem State.setEntry_starting (s : State) (v : Option LoadEntry) :
    (s.setEntry v).starting = s.starting := rfl

@[simp] theorem State.setReads_cell (s : State) (v : List TagReadJob) (c' : CellId) :
    (s.setReads v).cell c' = s.cell c' := by cases c' <;> rfl

@[simp] theorem State.setReads_head (s : State) (v : List TagReadJob) (h' : HeadId) :
    (s.setReads v).head h' = s.head h' := by cases h' <;> rfl

@[simp] theorem State.setReads_lane (s : State) (v : List TagReadJob) (l' : LaneId) :
    (s.setReads v).lane l' = s.lane l' := by cases l' <;> rfl

@[simp] theorem State.setReads_rec (s : State) (v : List TagReadJob) (i' : RecIx) :
    (s.setReads v).rec? i' = s.rec? i' := rfl

@[simp] theorem State.setReads_live (s : State) (v : List TagReadJob) (i' : RecIx) :
    (s.setReads v).live? i' = s.live? i' := rfl

@[simp] theorem State.setReads_now (s : State) (v : List TagReadJob) :
    (s.setReads v).now = s.now := rfl

@[simp] theorem State.setReads_present (s : State) (v : List TagReadJob) (p' : Place) :
    (s.setReads v).present p' = s.present p' := rfl

@[simp] theorem State.setReads_starting (s : State) (v : List TagReadJob) :
    (s.setReads v).starting = s.starting := rfl

@[simp] theorem State.setWrites_cell (s : State) (v : List TagWriteJob) (c' : CellId) :
    (s.setWrites v).cell c' = s.cell c' := by cases c' <;> rfl

@[simp] theorem State.setWrites_head (s : State) (v : List TagWriteJob) (h' : HeadId) :
    (s.setWrites v).head h' = s.head h' := by cases h' <;> rfl

@[simp] theorem State.setWrites_lane (s : State) (v : List TagWriteJob) (l' : LaneId) :
    (s.setWrites v).lane l' = s.lane l' := by cases l' <;> rfl

@[simp] theorem State.setWrites_rec (s : State) (v : List TagWriteJob) (i' : RecIx) :
    (s.setWrites v).rec? i' = s.rec? i' := rfl

@[simp] theorem State.setWrites_live (s : State) (v : List TagWriteJob) (i' : RecIx) :
    (s.setWrites v).live? i' = s.live? i' := rfl

@[simp] theorem State.setWrites_now (s : State) (v : List TagWriteJob) :
    (s.setWrites v).now = s.now := rfl

@[simp] theorem State.setWrites_present (s : State) (v : List TagWriteJob) (p' : Place) :
    (s.setWrites v).present p' = s.present p' := rfl

@[simp] theorem State.setWrites_starting (s : State) (v : List TagWriteJob) :
    (s.setWrites v).starting = s.starting := rfl

@[simp] theorem State.askWrite_cell (s : State) (p : Place) (v : Byte) (w : WriteFor) (c' : CellId) :
    (s.askWrite p v w).cell c' = s.cell c' := by cases c' <;> rfl

@[simp] theorem State.askWrite_head (s : State) (p : Place) (v : Byte) (w : WriteFor) (h' : HeadId) :
    (s.askWrite p v w).head h' = s.head h' := by cases h' <;> rfl

@[simp] theorem State.askWrite_lane (s : State) (p : Place) (v : Byte) (w : WriteFor) (l' : LaneId) :
    (s.askWrite p v w).lane l' = s.lane l' := by cases l' <;> rfl

@[simp] theorem State.askWrite_rec (s : State) (p : Place) (v : Byte) (w : WriteFor) (i' : RecIx) :
    (s.askWrite p v w).rec? i' = s.rec? i' := rfl

@[simp] theorem State.askWrite_live (s : State) (p : Place) (v : Byte) (w : WriteFor) (i' : RecIx) :
    (s.askWrite p v w).live? i' = s.live? i' := rfl

@[simp] theorem State.askWrite_now (s : State) (p : Place) (v : Byte) (w : WriteFor) :
    (s.askWrite p v w).now = s.now := rfl

@[simp] theorem State.askWrite_present (s : State) (p : Place) (v : Byte) (w : WriteFor) (p' : Place) :
    (s.askWrite p v w).present p' = s.present p' := rfl

@[simp] theorem State.askWrite_starting (s : State) (p : Place) (v : Byte) (w : WriteFor) :
    (s.askWrite p v w).starting = s.starting := rfl

@[simp] theorem State.setRecord_cell (s : State) (v : FaultRecord) (c' : CellId) :
    (s.setRecord v).cell c' = s.cell c' := by cases c' <;> rfl

@[simp] theorem State.setRecord_head (s : State) (v : FaultRecord) (h' : HeadId) :
    (s.setRecord v).head h' = s.head h' := by cases h' <;> rfl

@[simp] theorem State.setRecord_lane (s : State) (v : FaultRecord) (l' : LaneId) :
    (s.setRecord v).lane l' = s.lane l' := by cases l' <;> rfl

@[simp] theorem State.setRecord_rec (s : State) (v : FaultRecord) (i' : RecIx) :
    (s.setRecord v).rec? i' = s.rec? i' := rfl

@[simp] theorem State.setRecord_live (s : State) (v : FaultRecord) (i' : RecIx) :
    (s.setRecord v).live? i' = s.live? i' := rfl

@[simp] theorem State.setRecord_now (s : State) (v : FaultRecord) :
    (s.setRecord v).now = s.now := rfl

@[simp] theorem State.setRecord_present (s : State) (v : FaultRecord) (p' : Place) :
    (s.setRecord v).present p' = s.present p' := rfl

@[simp] theorem State.setRecord_starting (s : State) (v : FaultRecord) :
    (s.setRecord v).starting = s.starting := rfl

@[simp] theorem State.setEstop_cell (s : State) (b : Bool) (c' : CellId) :
    (s.setEstop b).cell c' = s.cell c' := by cases c' <;> rfl

@[simp] theorem State.setEstop_head (s : State) (b : Bool) (h' : HeadId) :
    (s.setEstop b).head h' = s.head h' := by cases h' <;> rfl

@[simp] theorem State.setEstop_lane (s : State) (b : Bool) (l' : LaneId) :
    (s.setEstop b).lane l' = s.lane l' := by cases l' <;> rfl

@[simp] theorem State.setEstop_rec (s : State) (b : Bool) (i' : RecIx) :
    (s.setEstop b).rec? i' = s.rec? i' := rfl

@[simp] theorem State.setEstop_live (s : State) (b : Bool) (i' : RecIx) :
    (s.setEstop b).live? i' = s.live? i' := rfl

@[simp] theorem State.setEstop_now (s : State) (b : Bool) :
    (s.setEstop b).now = s.now := rfl

@[simp] theorem State.setEstop_present (s : State) (b : Bool) (p' : Place) :
    (s.setEstop b).present p' = s.present p' := rfl

@[simp] theorem State.setEstop_starting (s : State) (b : Bool) :
    (s.setEstop b).starting = s.starting := rfl

@[simp] theorem State.countLost_cell (s : State) (c' : CellId) :
    (s.countLost).cell c' = s.cell c' := by cases c' <;> rfl

@[simp] theorem State.countLost_head (s : State) (h' : HeadId) :
    (s.countLost).head h' = s.head h' := by cases h' <;> rfl

@[simp] theorem State.countLost_lane (s : State) (l' : LaneId) :
    (s.countLost).lane l' = s.lane l' := by cases l' <;> rfl

@[simp] theorem State.countLost_rec (s : State) (i' : RecIx) :
    (s.countLost).rec? i' = s.rec? i' := rfl

@[simp] theorem State.countLost_live (s : State) (i' : RecIx) :
    (s.countLost).live? i' = s.live? i' := rfl

@[simp] theorem State.countLost_now (s : State)  :
    (s.countLost).now = s.now := rfl

@[simp] theorem State.countLost_present (s : State) (p' : Place) :
    (s.countLost).present p' = s.present p' := rfl

@[simp] theorem State.countLost_starting (s : State)  :
    (s.countLost).starting = s.starting := rfl

@[simp] theorem State.setHeld_cell (s : State) (v : Option Frame) (c' : CellId) :
    (s.setHeld v).cell c' = s.cell c' := by cases c' <;> rfl

@[simp] theorem State.setHeld_head (s : State) (v : Option Frame) (h' : HeadId) :
    (s.setHeld v).head h' = s.head h' := by cases h' <;> rfl

@[simp] theorem State.setHeld_lane (s : State) (v : Option Frame) (l' : LaneId) :
    (s.setHeld v).lane l' = s.lane l' := by cases l' <;> rfl

@[simp] theorem State.setHeld_rec (s : State) (v : Option Frame) (i' : RecIx) :
    (s.setHeld v).rec? i' = s.rec? i' := rfl

@[simp] theorem State.setHeld_live (s : State) (v : Option Frame) (i' : RecIx) :
    (s.setHeld v).live? i' = s.live? i' := rfl

@[simp] theorem State.setHeld_now (s : State) (v : Option Frame) :
    (s.setHeld v).now = s.now := rfl

@[simp] theorem State.setHeld_present (s : State) (v : Option Frame) (p' : Place) :
    (s.setHeld v).present p' = s.present p' := rfl

@[simp] theorem State.setHeld_starting (s : State) (v : Option Frame) :
    (s.setHeld v).starting = s.starting := rfl

@[simp] theorem State.setBench_cell (s : State) (v : Vector (Option RecIx) 4) (c' : CellId) :
    (s.setBench v).cell c' = s.cell c' := by cases c' <;> rfl

@[simp] theorem State.setBench_head (s : State) (v : Vector (Option RecIx) 4) (h' : HeadId) :
    (s.setBench v).head h' = s.head h' := by cases h' <;> rfl

@[simp] theorem State.setBench_lane (s : State) (v : Vector (Option RecIx) 4) (l' : LaneId) :
    (s.setBench v).lane l' = s.lane l' := by cases l' <;> rfl

@[simp] theorem State.setBench_rec (s : State) (v : Vector (Option RecIx) 4) (i' : RecIx) :
    (s.setBench v).rec? i' = s.rec? i' := rfl

@[simp] theorem State.setBench_live (s : State) (v : Vector (Option RecIx) 4) (i' : RecIx) :
    (s.setBench v).live? i' = s.live? i' := rfl

@[simp] theorem State.setBench_now (s : State) (v : Vector (Option RecIx) 4) :
    (s.setBench v).now = s.now := rfl

@[simp] theorem State.setBench_present (s : State) (v : Vector (Option RecIx) 4) (p' : Place) :
    (s.setBench v).present p' = s.present p' := rfl

@[simp] theorem State.setBench_starting (s : State) (v : Vector (Option RecIx) 4) :
    (s.setBench v).starting = s.starting := rfl

@[simp] theorem State.setQueue_cell (s : State) (v : List RecIx) (c' : CellId) :
    (s.setQueue v).cell c' = s.cell c' := by cases c' <;> rfl

@[simp] theorem State.setQueue_head (s : State) (v : List RecIx) (h' : HeadId) :
    (s.setQueue v).head h' = s.head h' := by cases h' <;> rfl

@[simp] theorem State.setQueue_lane (s : State) (v : List RecIx) (l' : LaneId) :
    (s.setQueue v).lane l' = s.lane l' := by cases l' <;> rfl

@[simp] theorem State.setQueue_rec (s : State) (v : List RecIx) (i' : RecIx) :
    (s.setQueue v).rec? i' = s.rec? i' := rfl

@[simp] theorem State.setQueue_live (s : State) (v : List RecIx) (i' : RecIx) :
    (s.setQueue v).live? i' = s.live? i' := rfl

@[simp] theorem State.setQueue_now (s : State) (v : List RecIx) :
    (s.setQueue v).now = s.now := rfl

@[simp] theorem State.setQueue_present (s : State) (v : List RecIx) (p' : Place) :
    (s.setQueue v).present p' = s.present p' := rfl

@[simp] theorem State.setQueue_starting (s : State) (v : List RecIx) :
    (s.setQueue v).starting = s.starting := rfl

@[simp] theorem State.setWaiting_cell (s : State) (v : Option WaitingBinding) (c' : CellId) :
    (s.setWaiting v).cell c' = s.cell c' := by cases c' <;> rfl

@[simp] theorem State.setWaiting_head (s : State) (v : Option WaitingBinding) (h' : HeadId) :
    (s.setWaiting v).head h' = s.head h' := by cases h' <;> rfl

@[simp] theorem State.setWaiting_lane (s : State) (v : Option WaitingBinding) (l' : LaneId) :
    (s.setWaiting v).lane l' = s.lane l' := by cases l' <;> rfl

@[simp] theorem State.setWaiting_rec (s : State) (v : Option WaitingBinding) (i' : RecIx) :
    (s.setWaiting v).rec? i' = s.rec? i' := rfl

@[simp] theorem State.setWaiting_live (s : State) (v : Option WaitingBinding) (i' : RecIx) :
    (s.setWaiting v).live? i' = s.live? i' := rfl

@[simp] theorem State.setWaiting_now (s : State) (v : Option WaitingBinding) :
    (s.setWaiting v).now = s.now := rfl

@[simp] theorem State.setWaiting_present (s : State) (v : Option WaitingBinding) (p' : Place) :
    (s.setWaiting v).present p' = s.present p' := rfl

@[simp] theorem State.setWaiting_starting (s : State) (v : Option WaitingBinding) :
    (s.setWaiting v).starting = s.starting := rfl

@[simp] theorem State.setLamp_cell (s : State) (v : Lamp) (c' : CellId) :
    (s.setLamp v).cell c' = s.cell c' := by cases c' <;> rfl

@[simp] theorem State.setLamp_head (s : State) (v : Lamp) (h' : HeadId) :
    (s.setLamp v).head h' = s.head h' := by cases h' <;> rfl

@[simp] theorem State.setLamp_lane (s : State) (v : Lamp) (l' : LaneId) :
    (s.setLamp v).lane l' = s.lane l' := by cases l' <;> rfl

@[simp] theorem State.setLamp_rec (s : State) (v : Lamp) (i' : RecIx) :
    (s.setLamp v).rec? i' = s.rec? i' := rfl

@[simp] theorem State.setLamp_live (s : State) (v : Lamp) (i' : RecIx) :
    (s.setLamp v).live? i' = s.live? i' := rfl

@[simp] theorem State.setLamp_now (s : State) (v : Lamp) :
    (s.setLamp v).now = s.now := rfl

@[simp] theorem State.setLamp_present (s : State) (v : Lamp) (p' : Place) :
    (s.setLamp v).present p' = s.present p' := rfl

@[simp] theorem State.setLamp_starting (s : State) (v : Lamp) :
    (s.setLamp v).starting = s.starting := rfl

@[simp] theorem State.setZone_cell (s : State) (z : ZoneIx) (v : ZoneSense) (c' : CellId) :
    (s.setZone z v).cell c' = s.cell c' := by cases c' <;> rfl

@[simp] theorem State.setZone_head (s : State) (z : ZoneIx) (v : ZoneSense) (h' : HeadId) :
    (s.setZone z v).head h' = s.head h' := by cases h' <;> rfl

@[simp] theorem State.setZone_lane (s : State) (z : ZoneIx) (v : ZoneSense) (l' : LaneId) :
    (s.setZone z v).lane l' = s.lane l' := by cases l' <;> rfl

@[simp] theorem State.setZone_rec (s : State) (z : ZoneIx) (v : ZoneSense) (i' : RecIx) :
    (s.setZone z v).rec? i' = s.rec? i' := rfl

@[simp] theorem State.setZone_live (s : State) (z : ZoneIx) (v : ZoneSense) (i' : RecIx) :
    (s.setZone z v).live? i' = s.live? i' := rfl

@[simp] theorem State.setZone_now (s : State) (z : ZoneIx) (v : ZoneSense) :
    (s.setZone z v).now = s.now := rfl

@[simp] theorem State.setZone_present (s : State) (z : ZoneIx) (v : ZoneSense) (p' : Place) :
    (s.setZone z v).present p' = s.present p' := rfl

@[simp] theorem State.setZone_starting (s : State) (z : ZoneIx) (v : ZoneSense) :
    (s.setZone z v).starting = s.starting := rfl

@[simp] theorem State.setCell_head (s : State) (c : CellId) (v : SprayCell) (h' : HeadId) :
    (s.setCell c v).head h' = s.head h' := by cases c <;> cases h' <;> rfl

@[simp] theorem State.setCell_lane (s : State) (c : CellId) (v : SprayCell) (l' : LaneId) :
    (s.setCell c v).lane l' = s.lane l' := by cases c <;> cases l' <;> rfl

@[simp] theorem State.setCell_rec (s : State) (c : CellId) (v : SprayCell) (i' : RecIx) :
    (s.setCell c v).rec? i' = s.rec? i' := by cases c <;> rfl

@[simp] theorem State.setCell_live (s : State) (c : CellId) (v : SprayCell) (i' : RecIx) :
    (s.setCell c v).live? i' = s.live? i' := by cases c <;> rfl

@[simp] theorem State.setCell_now (s : State) (c : CellId) (v : SprayCell) :
    (s.setCell c v).now = s.now := by cases c <;> rfl

@[simp] theorem State.setCell_present (s : State) (c : CellId) (v : SprayCell) (p' : Place) :
    (s.setCell c v).present p' = s.present p' := by cases c <;> rfl

@[simp] theorem State.setCell_starting (s : State) (c : CellId) (v : SprayCell) :
    (s.setCell c v).starting = s.starting := by cases c <;> rfl

@[simp] theorem State.setHead_cell (s : State) (h : HeadId) (v : Head) (c' : CellId) :
    (s.setHead h v).cell c' = s.cell c' := by cases h <;> cases c' <;> rfl

@[simp] theorem State.setHead_lane (s : State) (h : HeadId) (v : Head) (l' : LaneId) :
    (s.setHead h v).lane l' = s.lane l' := by cases h <;> cases l' <;> rfl

@[simp] theorem State.setHead_rec (s : State) (h : HeadId) (v : Head) (i' : RecIx) :
    (s.setHead h v).rec? i' = s.rec? i' := by cases h <;> rfl

@[simp] theorem State.setHead_live (s : State) (h : HeadId) (v : Head) (i' : RecIx) :
    (s.setHead h v).live? i' = s.live? i' := by cases h <;> rfl

@[simp] theorem State.setHead_now (s : State) (h : HeadId) (v : Head) :
    (s.setHead h v).now = s.now := by cases h <;> rfl

@[simp] theorem State.setHead_present (s : State) (h : HeadId) (v : Head) (p' : Place) :
    (s.setHead h v).present p' = s.present p' := by cases h <;> rfl

@[simp] theorem State.setHead_starting (s : State) (h : HeadId) (v : Head) :
    (s.setHead h v).starting = s.starting := by cases h <;> rfl

@[simp] theorem State.setLane_cell (s : State) (l : LaneId) (v : Lane) (c' : CellId) :
    (s.setLane l v).cell c' = s.cell c' := by cases l <;> cases c' <;> rfl

@[simp] theorem State.setLane_head (s : State) (l : LaneId) (v : Lane) (h' : HeadId) :
    (s.setLane l v).head h' = s.head h' := by cases l <;> cases h' <;> rfl

@[simp] theorem State.setLane_rec (s : State) (l : LaneId) (v : Lane) (i' : RecIx) :
    (s.setLane l v).rec? i' = s.rec? i' := by cases l <;> rfl

@[simp] theorem State.setLane_live (s : State) (l : LaneId) (v : Lane) (i' : RecIx) :
    (s.setLane l v).live? i' = s.live? i' := by cases l <;> rfl

@[simp] theorem State.setLane_now (s : State) (l : LaneId) (v : Lane) :
    (s.setLane l v).now = s.now := by cases l <;> rfl

@[simp] theorem State.setLane_present (s : State) (l : LaneId) (v : Lane) (p' : Place) :
    (s.setLane l v).present p' = s.present p' := by cases l <;> rfl

@[simp] theorem State.setLane_starting (s : State) (l : LaneId) (v : Lane) :
    (s.setLane l v).starting = s.starting := by cases l <;> rfl

@[simp] theorem State.modRsc_cell (s : State) (f : Rsc → Rsc) (c' : CellId) :
    (s.modRsc f).cell c' = s.cell c' := by cases c' <;> rfl

@[simp] theorem State.modRsc_head (s : State) (f : Rsc → Rsc) (h' : HeadId) :
    (s.modRsc f).head h' = s.head h' := by cases h' <;> rfl

@[simp] theorem State.modRsc_lane (s : State) (f : Rsc → Rsc) (l' : LaneId) :
    (s.modRsc f).lane l' = s.lane l' := by cases l' <;> rfl

@[simp] theorem State.modRsc_rec (s : State) (f : Rsc → Rsc) (i' : RecIx) :
    (s.modRsc f).rec? i' = s.rec? i' := rfl

@[simp] theorem State.modRsc_live (s : State) (f : Rsc → Rsc) (i' : RecIx) :
    (s.modRsc f).live? i' = s.live? i' := rfl

@[simp] theorem State.modRsc_now (s : State) (f : Rsc → Rsc) :
    (s.modRsc f).now = s.now := rfl

@[simp] theorem State.modRsc_present (s : State) (f : Rsc → Rsc) (p' : Place) :
    (s.modRsc f).present p' = s.present p' := rfl

@[simp] theorem State.putStore_cell (s : State) (o : Nat) (d : List Byte) (c' : CellId) :
    (s.putStore o d).cell c' = s.cell c' := by cases c' <;> rfl

@[simp] theorem State.putStore_head (s : State) (o : Nat) (d : List Byte) (h' : HeadId) :
    (s.putStore o d).head h' = s.head h' := by cases h' <;> rfl

@[simp] theorem State.putStore_lane (s : State) (o : Nat) (d : List Byte) (l' : LaneId) :
    (s.putStore o d).lane l' = s.lane l' := by cases l' <;> rfl

@[simp] theorem State.putStore_rec (s : State) (o : Nat) (d : List Byte) (i' : RecIx) :
    (s.putStore o d).rec? i' = s.rec? i' := rfl

@[simp] theorem State.putStore_live (s : State) (o : Nat) (d : List Byte) (i' : RecIx) :
    (s.putStore o d).live? i' = s.live? i' := rfl

@[simp] theorem State.putStore_now (s : State) (o : Nat) (d : List Byte) :
    (s.putStore o d).now = s.now := rfl

@[simp] theorem State.putStore_present (s : State) (o : Nat) (d : List Byte) (p' : Place) :
    (s.putStore o d).present p' = s.present p' := rfl

@[simp] theorem State.putStore_starting (s : State) (o : Nat) (d : List Byte) :
    (s.putStore o d).starting = s.starting := rfl

@[simp] theorem State.reply_cell (s : State) (k t : Byte) (st : ReplyStatus) (d : List Byte) (c' : CellId) :
    (s.reply k t st d).cell c' = s.cell c' := by cases c' <;> rfl

@[simp] theorem State.reply_head (s : State) (k t : Byte) (st : ReplyStatus) (d : List Byte) (h' : HeadId) :
    (s.reply k t st d).head h' = s.head h' := by cases h' <;> rfl

@[simp] theorem State.reply_lane (s : State) (k t : Byte) (st : ReplyStatus) (d : List Byte) (l' : LaneId) :
    (s.reply k t st d).lane l' = s.lane l' := by cases l' <;> rfl

@[simp] theorem State.reply_rec (s : State) (k t : Byte) (st : ReplyStatus) (d : List Byte) (i' : RecIx) :
    (s.reply k t st d).rec? i' = s.rec? i' := rfl

@[simp] theorem State.reply_live (s : State) (k t : Byte) (st : ReplyStatus) (d : List Byte) (i' : RecIx) :
    (s.reply k t st d).live? i' = s.live? i' := rfl

@[simp] theorem State.reply_now (s : State) (k t : Byte) (st : ReplyStatus) (d : List Byte) :
    (s.reply k t st d).now = s.now := rfl

@[simp] theorem State.reply_present (s : State) (k t : Byte) (st : ReplyStatus) (d : List Byte) (p' : Place) :
    (s.reply k t st d).present p' = s.present p' := rfl

@[simp] theorem State.reply_starting (s : State) (k t : Byte) (st : ReplyStatus) (d : List Byte) :
    (s.reply k t st d).starting = s.starting := rfl

/-! ## What an update leaves at its own index -/

@[simp] theorem State.setCell_cell_self (s : State) (c : CellId) (v : SprayCell) : (s.setCell c v).cell c = v := by
  cases c <;> rfl

theorem State.setCell_cell (s : State) (c d : CellId) (v : SprayCell) :
    (s.setCell c v).cell d = if d = c then v else s.cell d := by
  cases c <;> cases d <;> rfl

@[simp] theorem State.setHead_head_self (s : State) (h : HeadId) (v : Head) : (s.setHead h v).head h = v := by
  cases h <;> rfl

theorem State.setHead_head (s : State) (h k : HeadId) (v : Head) :
    (s.setHead h v).head k = if k = h then v else s.head k := by
  cases h <;> cases k <;> rfl

@[simp] theorem State.setLane_lane_self (s : State) (l : LaneId) (v : Lane) : (s.setLane l v).lane l = v := by
  cases l <;> rfl

theorem State.setLane_lane (s : State) (l k : LaneId) (v : Lane) :
    (s.setLane l v).lane k = if k = l then v else s.lane k := by
  cases l <;> cases k <;> rfl

@[simp] theorem State.setRec_rec_self (s : State) (i : RecIx) (r : Option CarrierRecord) :
    (s.setRec i r).rec? i = r := by
  simp [State.setRec, State.rec?]

theorem State.setRec_rec (s : State) (i j : RecIx) (r : Option CarrierRecord) :
    (s.setRec i r).rec? j = if j = i then r else s.rec? j := by
  simp only [State.setRec, State.rec?]
  by_cases h : j = i
  · subst h; simp
  · have : (i : Nat) ≠ j := fun e => h (Fin.ext e.symm)
    simp [h, Vector.getElem_set_ne, this]

/-! `Lane.driven` -/

@[simp] theorem Lane.driven_state (v : Lane) : v.driven.state = v.state := rfl
@[simp] theorem Lane.driven_cls (v : Lane) : v.driven.cls = v.cls := rfl
@[simp] theorem Lane.driven_bound (v : Lane) : v.driven.bound = v.bound := rfl
@[simp] theorem Lane.driven_order (v : Lane) : v.driven.order = v.order := rfl
@[simp] theorem Lane.driven_arrival (v : Lane) : v.driven.arrival = v.arrival := rfl
@[simp] theorem Lane.driven_lastEntry (v : Lane) : v.driven.lastEntry = v.lastEntry := rfl
@[simp] theorem Lane.driven_belt (v : Lane) : v.driven.belt = beltCommand v.state v.cls := rfl

end Sys2Proof.Machine
end

