-- ==== Sys2Proof/Laws/Keeps.lean ====
section
/-! SUPPORT. What an operation can change at most: `Keeps b s t` says that only the parts named in `b` differ between `s`
and `t`, that the Report Queue has only grown at its end and within its limit, that the lanes keep their limit, and that
every record of `t` comes from the record of `s` at its index by a step that keeps its limits and lowers no dose. -/

namespace Sys2Proof.Machine

/-- Every part of `a` is a part of `b`. -/
def Blocks.le (a b : Blocks) : Bool :=
  (!a.ltk || b.ltk) && (!a.rsc || b.rsc) && (!a.req || b.req) && (!a.ine || b.ine) && (!a.scc || b.scc) && (!a.ctc || b.ctc)
    && (!a.hmg || b.hmg) && (!a.rep || b.rep) && (!a.link || b.link) && (!a.mode || b.mode) && (!a.estop || b.estop)
    && (!a.clock || b.clock) && (!a.pass || b.pass)

/-- A record after a step that keeps its limits and lowers no dose. -/
def RecStep (r r' : CarrierRecord) : Prop :=
  RecordOk r → RecordOk r' ∧ r.thermalDose ≤ r'.thermalDose ∧ r.uvDose ≤ r'.uvDose

/-- Every record of `t` comes from the one of `s` at its index. -/
def NoNew (s t : State) : Prop := ∀ i r', t.rec? i = some r' → ∃ r, s.rec? i = some r ∧ RecStep r r'

/-- What an operation that changes at most the parts of `b` does. -/
structure Keeps (b : Blocks) (s t : State) : Prop where
  pending : t.pending = s.pending
  store : t.store = s.store
  freeCount : t.freeCount = s.freeCount
  ltk : b.ltk = false → t.ltk = s.ltk
  rsc : b.rsc = false → t.rsc = s.rsc
  req : b.req = false → t.rsc.hostReq = s.rsc.hostReq
  ine : b.ine = false → t.ine = s.ine
  scc : b.scc = false → t.scc = s.scc
  ctc : b.ctc = false → t.ctc = s.ctc
  hmg : b.hmg = false → t.hmg = s.hmg
  record : b.rep = false → t.lmf.record = s.lmf.record
  mode : b.mode = false → t.lmf.mode = s.lmf.mode
  estop : b.estop = false → t.lmf.estop = s.lmf.estop
  clock : b.clock = false → t.lmf.clock = s.lmf.clock
  queue : b.rep = false → t.liu.reports = s.liu.reports ∧ t.liu.lost = s.liu.lost ∧ t.liu.full = s.liu.full
  link : b.link = false → t.liu.rest = s.liu.rest
  grows : s.liu.reports <+: t.liu.reports
  reports : s.liu.reports.length ≤ 32 → t.liu.reports.length ≤ 32
  lost : s.liu.lost ≤ 255 → t.liu.lost ≤ 255
  bound1 : s.ctc.lane1.bound ≤ 8 → t.ctc.lane1.bound ≤ 8
  bound2 : s.ctc.lane2.bound ≤ 8 → t.ctc.lane2.bound ≤ 8
  recs : NoNew s t
  pass : b.pass = false → ∀ i r, s.rec? i = some r → r.status.inPass = true →
    ∃ r', t.rec? i = some r' ∧ r'.status.inPass = true

theorem RecStep.refl (r : CarrierRecord) : RecStep r r := fun h => ⟨h, le_refl _, le_refl _⟩

theorem RecStep.trans {r r' r'' : CarrierRecord} (h : RecStep r r') (k : RecStep r' r'') : RecStep r r'' := fun ok =>
  let ⟨ok', a, b⟩ := h ok
  let ⟨ok'', c, d⟩ := k ok'
  ⟨ok'', a.trans c, b.trans d⟩

theorem NoNew.refl (s : State) : NoNew s s := fun _ r' h => ⟨r', h, RecStep.refl r'⟩

theorem NoNew.trans {s t u : State} (h : NoNew s t) (k : NoNew t u) : NoNew s u := fun i r'' hu =>
  let ⟨r', ht, st⟩ := k i r'' hu
  let ⟨r, hs, st'⟩ := h i r' ht
  ⟨r, hs, st'.trans st⟩

/-- A record kept within its limits stays so. -/
theorem NoNew.law {s t : State} (h : NoNew s t) (hs : RecordLaw s) : RecordLaw t := fun i r' ht =>
  let ⟨r, hr, st⟩ := h i r' ht
  (st (hs i r hr)).1

theorem Keeps.refl (b : Blocks) (s : State) : Keeps b s s := by
  constructor <;> first | exact NoNew.refl s | exact List.prefix_refl _ | (intros; first | assumption | exact ⟨rfl, rfl, rfl⟩ | rfl | exact ⟨_, ‹_›, ‹_›⟩)

theorem Keeps.trans {b : Blocks} {s t u : State} (h : Keeps b s t) (k : Keeps b t u) : Keeps b s u where
  pending := k.pending.trans h.pending
  store := k.store.trans h.store
  freeCount := k.freeCount.trans h.freeCount
  ltk e := (k.ltk e).trans (h.ltk e)
  rsc e := (k.rsc e).trans (h.rsc e)
  req e := (k.req e).trans (h.req e)
  ine e := (k.ine e).trans (h.ine e)
  scc e := (k.scc e).trans (h.scc e)
  ctc e := (k.ctc e).trans (h.ctc e)
  hmg e := (k.hmg e).trans (h.hmg e)
  record e := (k.record e).trans (h.record e)
  mode e := (k.mode e).trans (h.mode e)
  estop e := (k.estop e).trans (h.estop e)
  clock e := (k.clock e).trans (h.clock e)
  queue e :=
    let ⟨a, b, c⟩ := h.queue e
    let ⟨a', b', c'⟩ := k.queue e
    ⟨a'.trans a, b'.trans b, c'.trans c⟩
  link e := (k.link e).trans (h.link e)
  grows := h.grows.trans k.grows
  reports e := k.reports (h.reports e)
  lost e := k.lost (h.lost e)
  bound1 e := k.bound1 (h.bound1 e)
  bound2 e := k.bound2 (h.bound2 e)
  recs := h.recs.trans k.recs
  pass e i r hr hp :=
    let ⟨r', hr', hp'⟩ := h.pass e i r hr hp
    k.pass e i r' hr' hp'

theorem Keeps.mono {a b : Blocks} {s t : State} (h : Keeps a s t) (hb : a.le b = true) : Keeps b s t := by
  simp only [Blocks.le, Bool.and_eq_true, Bool.or_eq_true, Bool.not_eq_true'] at hb
  obtain ⟨⟨⟨⟨⟨⟨⟨⟨⟨⟨⟨⟨h1, h2⟩, h3⟩, h4⟩, h5⟩, h6⟩, h7⟩, h8⟩, h9⟩, h10⟩, h11⟩, h12⟩, h13⟩ := hb
  have key : ∀ {x y : Bool}, x = false ∨ y = true → y = false → x = false := by
    intro x y hx hy; rcases hx with hx | hx
    · exact hx
    · rw [hx] at hy; exact absurd hy (by decide)
  exact { h with
    ltk := fun e => h.ltk (key h1 e)
    rsc := fun e => h.rsc (key h2 e)
    req := fun e => h.req (key h3 e)
    ine := fun e => h.ine (key h4 e)
    scc := fun e => h.scc (key h5 e)
    ctc := fun e => h.ctc (key h6 e)
    hmg := fun e => h.hmg (key h7 e)
    record := fun e => h.record (key h8 e)
    queue := fun e => h.queue (key h8 e)
    link := fun e => h.link (key h9 e)
    mode := fun e => h.mode (key h10 e)
    estop := fun e => h.estop (key h11 e)
    clock := fun e => h.clock (key h12 e)
    pass := fun e => h.pass (key h13 e) }

/-- What an operation keeps, in the terms of the statements. -/
theorem Keeps.onlyIn {b : Blocks} {s t : State} (h : Keeps b s t) : OnlyIn b s t :=
  ⟨h.pending, h.store, h.freeCount, h.ltk, h.rsc, h.req, h.ine, h.scc, h.ctc, h.hmg, h.record, h.mode, h.estop, h.clock,
    h.queue, h.link, h.pass⟩

/-- One operation more. -/
theorem Keeps.step {a b : Blocks} {s t u : State} (h : Keeps b s t) (k : Keeps a t u) (hb : a.le b = true) :
    Keeps b s u :=
  h.trans (k.mono hb)

/-- A fold of operations. -/
theorem Keeps.foldl {α : Type} {b : Blocks} {s : State} (f : State → α → State) (hf : ∀ t a, Keeps b t (f t a))
    (xs : List α) {t : State} (h : Keeps b s t) : Keeps b s (xs.foldl f t) := by
  induction xs generalizing t with
  | nil => exact h
  | cons x xs ih => exact ih (h.trans (hf t x))

/-! ## The primitive updates -/

/-- An operation that leaves the table, the links' unit, the lanes' counts and the line mode's unit as they are. -/
theorem Keeps.of_eq {b : Blocks} {s t : State} (pending : t.pending = s.pending) (store : t.store = s.store)
    (freeCount : t.freeCount = s.freeCount) (table : t.ltk.table = s.ltk.table) (liu : t.liu = s.liu) (lmf : t.lmf = s.lmf)
    (bound1 : t.ctc.lane1.bound = s.ctc.lane1.bound) (bound2 : t.ctc.lane2.bound = s.ctc.lane2.bound)
    (ltk : b.ltk = false → t.ltk = s.ltk) (rsc : b.rsc = false → t.rsc = s.rsc)
    (req : b.req = false → t.rsc.hostReq = s.rsc.hostReq) (ine : b.ine = false → t.ine = s.ine)
    (scc : b.scc = false → t.scc = s.scc) (ctc : b.ctc = false → t.ctc = s.ctc) (hmg : b.hmg = false → t.hmg = s.hmg) :
    Keeps b s t where
  pending := pending
  store := store
  freeCount := freeCount
  ltk := ltk
  rsc := rsc
  req := req
  ine := ine
  scc := scc
  ctc := ctc
  hmg := hmg
  record _ := by rw [lmf]
  mode _ := by rw [lmf]
  estop _ := by rw [lmf]
  clock _ := by rw [lmf]
  queue _ := by rw [liu]; exact ⟨rfl, rfl, rfl⟩
  link _ := by rw [liu]
  grows := by rw [liu]
  reports h := by rw [liu]; exact h
  lost h := by rw [liu]; exact h
  bound1 h := by rw [bound1]; exact h
  bound2 h := by rw [bound2]; exact h
  recs := fun i r' h => ⟨r', by simpa [State.rec?, table] using h, RecStep.refl r'⟩
  pass := fun _ i r hr hp => ⟨r, by simpa [State.rec?, table] using hr, hp⟩

theorem State.setMoves_keeps (s : State) (v : List Move) : Keeps { ltk := true } s (s.setMoves v) := by
  apply Keeps.of_eq <;> first | rfl | (intro h; first | rfl | cases h)

theorem State.setSensor_keeps (s : State) (p : Place) (v : Bool) : Keeps { ltk := true } s (s.setSensor p v) := by
  apply Keeps.of_eq <;> first | rfl | (intro h; first | rfl | cases h)

theorem State.setEntry_keeps (s : State) (v : Option LoadEntry) : Keeps { ltk := true } s (s.setEntry v) := by
  apply Keeps.of_eq <;> first | rfl | (intro h; first | rfl | cases h)

theorem State.setReads_keeps (s : State) (v : List TagReadJob) : Keeps { ltk := true } s (s.setReads v) := by
  apply Keeps.of_eq <;> first | rfl | (intro h; first | rfl | cases h)

theorem State.setWrites_keeps (s : State) (v : List TagWriteJob) : Keeps { ltk := true } s (s.setWrites v) := by
  apply Keeps.of_eq <;> first | rfl | (intro h; first | rfl | cases h)

theorem State.askWrite_keeps (s : State) (p : Place) (v : Byte) (w : WriteFor) :
    Keeps { ltk := true } s (s.askWrite p v w) := by
  apply Keeps.of_eq <;> first | rfl | (intro h; first | rfl | cases h)

theorem State.dropMarkWrites_keeps (s : State) (i : RecIx) : Keeps { ltk := true } s (s.dropMarkWrites i) := by
  apply Keeps.of_eq <;> first | rfl | (intro h; first | rfl | cases h)

theorem State.setBench_keeps (s : State) (v : Vector (Option RecIx) 4) : Keeps { hmg := true } s (s.setBench v) := by
  apply Keeps.of_eq <;> first | rfl | (intro h; first | rfl | cases h)

theorem State.setQueue_keeps (s : State) (v : List RecIx) : Keeps { hmg := true } s (s.setQueue v) := by
  apply Keeps.of_eq <;> first | rfl | (intro h; first | rfl | cases h)

theorem State.setWaiting_keeps (s : State) (v : Option WaitingBinding) : Keeps { ctc := true } s (s.setWaiting v) := by
  apply Keeps.of_eq <;> first | rfl | (intro h; first | rfl | cases h)

theorem State.setLamp_keeps (s : State) (v : Lamp) : Keeps { ctc := true } s (s.setLamp v) := by
  apply Keeps.of_eq <;> first | rfl | (intro h; first | rfl | cases h)

theorem State.setZone_keeps (s : State) (z : ZoneIx) (v : ZoneSense) : Keeps { ctc := true } s (s.setZone z v) := by
  apply Keeps.of_eq <;> first | rfl | (intro h; first | rfl | cases h)

/-- An update of the tunnel's other state. -/
theorem Keeps.ctcSet (s : State) (v : Ctc) (h1 : v.lane1.bound = s.ctc.lane1.bound)
    (h2 : v.lane2.bound = s.ctc.lane2.bound) : Keeps { ctc := true } s { s with ctc := v } := by
  apply Keeps.of_eq <;> first | rfl | assumption | (intro h; first | rfl | cases h)

theorem State.setCell_keeps (s : State) (c : CellId) (v : SprayCell) : Keeps { scc := true } s (s.setCell c v) := by
  cases c <;> apply Keeps.of_eq <;> first | rfl | (intro h; first | rfl | cases h)

theorem State.setHead_keeps (s : State) (h : HeadId) (v : Head) : Keeps { ine := true } s (s.setHead h v) := by
  cases h <;> apply Keeps.of_eq <;> first | rfl | (intro h; first | rfl | cases h)

theorem State.modRsc_keeps (s : State) (f : Rsc → Rsc) (hf : (f s.rsc).hostReq = s.rsc.hostReq) :
    Keeps { rsc := true } s (s.modRsc f) := by
  apply Keeps.of_eq <;> first | rfl | (intro h; first | rfl | exact hf | cases h)

/-- An update of the controller that may set the host store request. -/
theorem State.modRsc_keepsReq (s : State) (f : Rsc → Rsc) : Keeps { rsc := true, req := true } s (s.modRsc f) := by
  apply Keeps.of_eq <;> first | rfl | (intro h; first | rfl | cases h)

theorem State.setSlot_keeps (s : State) (k : SlotIx) (v : Slot) : Keeps { rsc := true } s (s.setSlot k v) := by
  apply Keeps.of_eq <;> first | rfl | (intro h; first | rfl | cases h)

theorem State.setLane_keeps (s : State) (l : LaneId) (v : Lane) (hv : (s.lane l).bound ≤ 8 → v.bound ≤ 8) :
    Keeps { ctc := true } s (s.setLane l v) := by
  cases l
  · exact { Keeps.refl { ctc := true } s with ctc := fun h => (nomatch h), bound1 := hv }
  · exact { Keeps.refl { ctc := true } s with ctc := fun h => (nomatch h), bound2 := hv }

theorem State.atTime_keeps (s : State) (t : LineTime) : Keeps { clock := true } s (s.atTime t) :=
  { Keeps.refl { clock := true } s with clock := fun h => (nomatch h) }

theorem State.setEstop_keeps (s : State) (v : Bool) : Keeps { estop := true } s (s.setEstop v) :=
  { Keeps.refl { estop := true } s with estop := fun h => (nomatch h) }

theorem State.setRecord_keeps (s : State) (v : FaultRecord) : Keeps { rep := true } s (s.setRecord v) :=
  { Keeps.refl { rep := true } s with record := fun h => (nomatch h), queue := fun h => (nomatch h) }

/-- The line mode written. -/
theorem Keeps.modeSet (s : State) (m : LineMode) :
    Keeps { mode := true } s { s with lmf := { s.lmf with mode := m } } :=
  { Keeps.refl { mode := true } s with mode := fun h => (nomatch h) }

theorem State.countLost_keeps (s : State) : Keeps { rep := true } s s.countLost :=
  { Keeps.refl { rep := true } s with
    record := fun h => (nomatch h)
    queue := fun h => (nomatch h)
    lost := fun _ => by simp only [State.countLost, satInc, satAdd, Config.lostMax]; exact Nat.min_le_right _ _ }

theorem State.queueReport_keeps (s : State) (body : ReportBody) : Keeps { rep := true } s (s.queueReport body) := by
  unfold State.queueReport
  split
  · rename_i h
    exact { Keeps.refl { rep := true } s with
      record := fun h => (nomatch h)
      queue := fun h => (nomatch h)
      link := fun _ => rfl
      grows := List.prefix_append _ _
      reports := fun _ => by simp only [Config.reportQueueMax] at h; simp; omega }
  · split
    · exact s.countLost_keeps
    · refine Keeps.step (Keeps.step ?_ (State.setRecord_keeps _ _) rfl) (State.countLost_keeps _) rfl
      refine s.countLost_keeps.trans ?_
      exact { Keeps.refl { rep := true } s.countLost with queue := fun h => (nomatch h) }

/-! ## Writes to a record -/

/-- An entry set from the one that stands at its index. -/
theorem State.setRec_keeps (s : State) (i : RecIx) (v : Option CarrierRecord)
    (hv : ∀ r', v = some r' → ∃ r, s.rec? i = some r ∧ RecStep r r') :
    Keeps { ltk := true, pass := true } s (s.setRec i v) :=
  { Keeps.refl { ltk := true, pass := true } s with
    ltk := fun h => (nomatch h)
    recs := by
      intro j r' h
      rw [State.setRec_rec] at h
      split at h
      · rename_i e; subst e; exact hv r' h
      · exact ⟨r', h, RecStep.refl r'⟩
    pass := fun h => (nomatch h) }

/-- The same, for a record that stays in its pass. -/
theorem State.setRec_keepsPass (s : State) (i : RecIx) (r r' : CarrierRecord) (hr : s.rec? i = some r)
    (hs : RecStep r r') (hp : r.status.inPass = true → r'.status.inPass = true) :
    Keeps { ltk := true } s (s.setRec i (some r')) :=
  { Keeps.refl { ltk := true } s with
    ltk := fun h => (nomatch h)
    recs := (s.setRec_keeps i (some r') (fun _ e => ⟨r, hr, by cases e; exact hs⟩)).recs
    pass := by
      intro _ j q hq hpq
      by_cases e : j = i
      · subst e
        rw [hr] at hq
        cases hq
        exact ⟨r', by simp, hp hpq⟩
      · exact ⟨q, by rw [State.setRec_rec, if_neg e]; exact hq, hpq⟩ }

theorem State.modRec_keeps (s : State) (i : RecIx) (f : CarrierRecord → CarrierRecord) (hf : ∀ r, RecStep r (f r))
    (hp : ∀ r, r.status.inPass = true → (f r).status.inPass = true) : Keeps { ltk := true } s (s.modRec i f) := by
  unfold State.modRec
  split
  · rename_i r h
    exact s.setRec_keepsPass i r (f r) h (hf r) (hp r)
  · exact Keeps.refl _ _

theorem State.live?_some {s : State} {i : RecIx} {r : CarrierRecord} (h : s.live? i = some r) :
    s.rec? i = some r ∧ r.status.isLive = true := by
  unfold State.live? at h
  split at h
  · split at h
    · cases h; exact ⟨‹_›, ‹_›⟩
    · cases h
  · cases h

theorem State.modLive_keeps (s : State) (i : RecIx) (f : CarrierRecord → CarrierRecord) (hf : ∀ r, RecStep r (f r))
    (hp : ∀ r, r.status.inPass = true → (f r).status.inPass = true) : Keeps { ltk := true } s (s.modLive i f) := by
  unfold State.modLive
  split
  · rename_i r h
    exact s.setRec_keepsPass i r (f r) (State.live?_some h).1 (hf r) (hp r)
  · exact Keeps.refl _ _

/-- A hold part after a step that keeps its limits and makes no disposition. -/
def HoldStep (h h' : Hold) : Prop :=
  (h'.state = .disposed → h.state = .disposed)
    ∧ (1 ≤ h.reasons.length ∧ h.reasons.length ≤ 8 → 1 ≤ h'.reasons.length ∧ h'.reasons.length ≤ 8)

theorem HoldStep.of_eq {h h' : Hold} (a : h'.state = h.state) (b : h'.reasons = h.reasons) : HoldStep h h' := by
  unfold HoldStep; rw [a, b]; exact ⟨id, id⟩

/-- A record whose hold part makes a step. -/
theorem RecStep.hold {r : CarrierRecord} {h h' : Hold} (hr : r.hold = some h) (hs : HoldStep h h') :
    RecStep r { r with hold := some h' } := fun ok =>
  ⟨{ ok with
     disposed := fun k e d => by cases e; exact ok.disposed h hr (hs.1 d)
     reasons := fun k e => by cases e; exact hs.2 (ok.reasons h hr) }, le_refl _, le_refl _⟩

/-- A record without a hold part takes one that is not disposed. -/
theorem RecStep.newHold {r : CarrierRecord} {h : Hold} (hd : h.state ≠ .disposed)
    (hl : 1 ≤ h.reasons.length ∧ h.reasons.length ≤ 8) : RecStep r { r with hold := some h } := fun ok =>
  ⟨{ ok with
     disposed := fun k e d => by cases e; exact absurd d hd
     reasons := fun k e => by cases e; exact hl }, le_refl _, le_refl _⟩

theorem RecStep.mapHold (f : Hold → Hold) (hf : ∀ h, HoldStep h (f h)) (r : CarrierRecord) :
    RecStep r { r with hold := r.hold.map f } := by
  cases e : r.hold with
  | none => exact fun ok => ⟨{ ok with disposed := fun k e => (nomatch e), reasons := fun k e => (nomatch e) }, le_refl _, le_refl _⟩
  | some h => exact RecStep.hold e (hf h)

theorem State.modHold_keeps (s : State) (i : RecIx) (f : Hold → Hold) (hf : ∀ h, HoldStep h (f h)) :
    Keeps { ltk := true } s (s.modHold i f) :=
  s.modRec_keeps i _ (RecStep.mapHold f hf) fun _ h => h

end Sys2Proof.Machine
end

