-- ==== Sys2Proof/Laws/KeepsTables.lean ====
section
/-! SUPPORT. What each operation can change at most (Laws/Keeps.lean). Hold parts, film, dose and moves. -/

namespace Sys2Proof.Machine

theorem State.reach_keeps (s : State) (t : LineTime) (ms : Nat) :
    Keeps { clock := true } s (s.reach t ms) := by
  unfold State.reach
  repeat' first
    | with_reducible apply Keeps.refl
    | with_reducible apply Keeps.step ?_ (State.atTime_keeps _ _)
    | (show Blocks.le _ _ = true; rfl)
    | split

theorem State.expire_keeps (s : State) (t : Timer) :
    Keeps { clock := true } s (s.expire t) := by
  unfold State.expire
  repeat' first
    | with_reducible apply Keeps.refl
    | with_reducible apply Keeps.step ?_ (State.reach_keeps _ _ _)
    | (show Blocks.le _ _ = true; rfl)

theorem State.noteFault_keeps (s : State) (code : FaultCode) (origin : Origin) (detail : FaultDetail) :
    Keeps { rep := true } s (s.noteFault code origin detail) := by
  unfold State.noteFault
  dsimp only
  repeat' first
    | with_reducible apply Keeps.refl
    | with_reducible apply Keeps.step ?_ (State.setRecord_keeps _ _)
    | with_reducible apply Keeps.step ?_ (State.queueReport_keeps _ _)
    | (show Blocks.le _ _ = true; rfl)
    | split

theorem State.holdChanged_keeps (s : State) (i : RecIx) (cause : HoldCause) :
    Keeps { rep := true } s (s.holdChanged i cause) := by
  unfold State.holdChanged
  repeat' first
    | with_reducible apply Keeps.refl
    | with_reducible apply Keeps.step ?_ (State.queueReport_keeps _ _)
    | (show Blocks.le _ _ = true; rfl)
    | split

theorem placeReason_length (code : ReasonCode) (sev : Severity) (now : LineTime) (rs : List Reason)
    (h : 1 ≤ rs.length ∧ rs.length ≤ 8) :
    1 ≤ (placeReason code sev now rs).length ∧ (placeReason code sev now rs).length ≤ 8 := by
  have same : ∀ (top : Severity) (xs : List Reason), (overflowInto top sev xs).length = xs.length := by
    intro top xs
    induction xs with
    | nil => rfl
    | cons x xs ih => unfold overflowInto; split <;> simp [ih]
  unfold placeReason
  split
  · simpa [countListed] using h
  · split
    · simp; omega
    · rw [same]; exact h

theorem Hold.raise_step (h : Hold) (code : ReasonCode) (sev : Severity) (now : LineTime) :
    HoldStep h (h.raise code sev now) := by
  unfold Hold.raise
  dsimp only
  split
  · exact ⟨fun e => (nomatch e), placeReason_length code sev now h.reasons⟩
  · rename_i e; exact ⟨fun k => k, placeReason_length code sev now h.reasons⟩
  · rename_i e; exact ⟨fun k => k, placeReason_length code sev now h.reasons⟩

theorem newHold_length (code : ReasonCode) (sev : Severity) (pass : Nat) (now : LineTime) :
    1 ≤ (newHold code sev pass now).reasons.length ∧ (newHold code sev pass now).reasons.length ≤ 8 := by
  unfold newHold
  dsimp only
  split <;> simp

theorem State.raiseReason_keeps (s : State) (i : RecIx) (code : ReasonCode) (sev : Severity) :
    Keeps { ltk := true, rep := true } s (s.raiseReason i code sev) := by
  unfold State.raiseReason
  split
  · exact Keeps.refl _ _
  · rename_i r hr
    split
    · with_reducible apply Keeps.step ?_ (State.queueReport_keeps _ _)
      · rfl
      · exact (s.setRec_keepsPass i r _ (State.live?_some hr).1
          (RecStep.newHold (fun e => absurd (show HoldState.opened = .disposed from e) (by decide)) (newHold_length code sev r.pass s.now)) fun h => h).mono rfl
    · rename_i h hh
      with_reducible apply Keeps.step ?_ (State.queueReport_keeps _ _)
      · rfl
      · exact (s.setRec_keepsPass i r _ (State.live?_some hr).1 (RecStep.hold hh (Hold.raise_step h code sev s.now))
          fun h => h).mono rfl

theorem State.raiseCode_keeps (s : State) (i : RecIx) (code : ReasonCode) :
    Keeps { ltk := true, rep := true } s (s.raiseCode i code) := by
  unfold State.raiseCode
  repeat' first
    | with_reducible apply Keeps.refl
    | with_reducible apply Keeps.step ?_ (State.raiseReason_keeps _ _ _ _)
    | (show Blocks.le _ _ = true; rfl)

theorem State.raiseIf_keeps (s : State) (c : Bool) (i : RecIx) (code : ReasonCode) :
    Keeps { ltk := true, rep := true } s (s.raiseIf c i code) := by
  unfold State.raiseIf
  repeat' first
    | with_reducible apply Keeps.refl
    | with_reducible apply Keeps.step ?_ (State.raiseCode_keeps _ _ _)
    | (show Blocks.le _ _ = true; rfl)
    | split

theorem State.seat_keeps (s : State) (n : BenchIx) (i : RecIx) :
    Keeps { hmg := true } s (s.seat n i) := by
  unfold State.seat
  repeat' first
    | with_reducible apply Keeps.refl
    | with_reducible apply Keeps.step ?_ (State.setBench_keeps _ _)
    | (show Blocks.le _ _ = true; rfl)

theorem State.unseat_keeps (s : State) (i : RecIx) :
    Keeps { hmg := true } s (s.unseat i) := by
  unfold State.unseat
  repeat' first
    | with_reducible apply Keeps.refl
    | with_reducible apply Keeps.step ?_ (State.setBench_keeps _ _)
    | (show Blocks.le _ _ = true; rfl)
    | split

theorem State.enterQueue_keeps (s : State) (i : RecIx) (stage : Stage) :
    Keeps { ltk := true, hmg := true } s (s.enterQueue i stage) := by
  unfold State.enterQueue
  dsimp only
  repeat' first
    | with_reducible apply Keeps.refl
    | with_reducible apply Keeps.step ?_ (State.modHold_keeps _ _ _ ?_)
    | with_reducible apply Keeps.step ?_ (State.setQueue_keeps _ _)
    | (show Blocks.le _ _ = true; rfl)
    | exact fun h => HoldStep.of_eq rfl rfl
    | split

theorem State.addDeposit_keeps (s : State) (i : RecIx) (z d : Nat) :
    Keeps { ltk := true } s (s.addDeposit i z d) :=
  s.modLive_keeps i _ (fun _ ok => ⟨{ ok with }, le_refl _, le_refl _⟩) fun _ h => h

theorem State.flagZone_keeps (s : State) (i : RecIx) (z : Nat) : Keeps { ltk := true } s (s.flagZone i z) :=
  s.modLive_keeps i _ (fun _ ok => ⟨{ ok with }, le_refl _, le_refl _⟩) fun _ h => h

theorem State.raiseFilm_keeps (s : State) (i : RecIx) :
    Keeps { ltk := true, rep := true } s (s.raiseFilm i) := by
  unfold State.raiseFilm
  repeat' first
    | with_reducible apply Keeps.refl
    | with_reducible apply Keeps.step ?_ (State.raiseIf_keeps _ _ _ _)
    | (show Blocks.le _ _ = true; rfl)
    | split

theorem State.evaluateFilm_keeps (s : State) (i : RecIx) :
    Keeps { ltk := true, rep := true } s (s.evaluateFilm i) := by
  unfold State.evaluateFilm
  repeat' first
    | with_reducible apply Keeps.refl
    | with_reducible apply Keeps.step ?_ (State.modLive_keeps _ _ _ ?_ ?_)
    | with_reducible apply Keeps.step ?_ (State.raiseFilm_keeps _ _)
    | (show Blocks.le _ _ = true; rfl)
    | exact fun _ h => h
    | exact fun r ok => ⟨{ ok with }, le_refl _, le_refl _⟩
    | split

theorem State.raiseAll_keeps (s : State) (i : RecIx) (x : List ReasonCode) :
    Keeps { ltk := true, rep := true } s (s.raiseAll i x) := by
  induction x generalizing s with
  | nil => exact Keeps.refl _ _
  | cons c cs ih => exact Keeps.step ((State.raiseCode_keeps s i c).mono rfl) (ih _) rfl

theorem State.dropGiven_keeps (s : State) (h : HeadId) (i : RecIx) :
    Keeps { ine := true } s (s.dropGiven h i) := by
  unfold State.dropGiven
  repeat' first
    | with_reducible apply Keeps.refl
    | with_reducible apply Keeps.step ?_ (State.setHead_keeps _ _ _)
    | (show Blocks.le _ _ = true; rfl)

theorem State.dropRunMark_keeps (s : State) (c : CellId) (i : RecIx) :
    Keeps { scc := true } s (s.dropRunMark c i) := by
  unfold State.dropRunMark
  repeat' first
    | with_reducible apply Keeps.refl
    | with_reducible apply Keeps.step ?_ (State.setCell_keeps _ _ _)
    | (show Blocks.le _ _ = true; rfl)

theorem State.dropMarks_keeps (s : State) (i : RecIx) :
    Keeps { ine := true, scc := true } s (s.dropMarks i) := by
  unfold State.dropMarks
  repeat' first
    | with_reducible apply Keeps.refl
    | with_reducible apply Keeps.step ?_ (State.dropGiven_keeps _ _ _)
    | with_reducible apply Keeps.step ?_ (State.dropRunMark_keeps _ _ _)
    | (show Blocks.le _ _ = true; rfl)

theorem State.leaveStation_keeps (s : State) (src : Place) (i : RecIx) :
    Keeps { ine := true, scc := true } s (s.leaveStation src i) := by
  unfold State.leaveStation
  repeat' first
    | with_reducible apply Keeps.refl
    | with_reducible apply Keeps.step ?_ (State.dropGiven_keeps _ _ _)
    | with_reducible apply Keeps.step ?_ (State.dropRunMark_keeps _ _ _)
    | (show Blocks.le _ _ = true; rfl)
    | split

theorem State.leaveLoad_keeps (s : State) (src : Place) (i : RecIx) :
    Keeps { ltk := true } s (s.leaveLoad src i) := by
  unfold State.leaveLoad
  repeat' first
    | with_reducible apply Keeps.refl
    | with_reducible apply Keeps.step ?_ (State.setEntry_keeps _ _)
    | (show Blocks.le _ _ = true; rfl)
    | split

theorem State.beginMove_keeps (s : State) (i : RecIx) (src dst : Place) :
    Keeps { ltk := true, ine := true, scc := true } s (s.beginMove i src dst) := by
  unfold State.beginMove
  dsimp only
  repeat' first
    | with_reducible apply Keeps.refl
    | with_reducible apply Keeps.step ?_ (State.modRec_keeps _ _ _ ?_ ?_)
    | with_reducible apply Keeps.step ?_ (State.setMoves_keeps _ _)
    | with_reducible apply Keeps.step ?_ (State.leaveStation_keeps _ _ _)
    | with_reducible apply Keeps.step ?_ (State.leaveLoad_keeps _ _ _)
    | (show Blocks.le _ _ = true; rfl)
    | exact fun _ h => h
    | exact fun r ok => ⟨{ ok with }, le_refl _, le_refl _⟩
    | split

theorem State.dropMove_keeps (s : State) (i : RecIx) :
    Keeps { ltk := true } s (s.dropMove i) := by
  unfold State.dropMove
  repeat' first
    | with_reducible apply Keeps.refl
    | with_reducible apply Keeps.step ?_ (State.setMoves_keeps _ _)
    | (show Blocks.le _ _ = true; rfl)

theorem State.haltMoves_keeps (s : State) :
    Keeps { ltk := true } s (s.haltMoves) := by
  unfold State.haltMoves
  repeat' first
    | with_reducible apply Keeps.refl
    | with_reducible apply Keeps.step ?_ (State.setMoves_keeps _ _)
    | (show Blocks.le _ _ = true; rfl)

theorem State.redriveMoves_keeps (s : State) :
    Keeps { ltk := true } s (s.redriveMoves) := by
  unfold State.redriveMoves
  repeat' first
    | with_reducible apply Keeps.refl
    | with_reducible apply Keeps.step ?_ (State.setMoves_keeps _ _)
    | (show Blocks.le _ _ = true; rfl)

theorem State.timeOutMove_keeps (s : State) (i : RecIx) :
    Keeps { ltk := true } s (s.timeOutMove i) := by
  unfold State.timeOutMove
  repeat' first
    | with_reducible apply Keeps.refl
    | with_reducible apply Keeps.step ?_ (State.setMoves_keeps _ _)
    | (show Blocks.le _ _ = true; rfl)
    | split

theorem State.dropRead_keeps (s : State) (p : Place) :
    Keeps { ltk := true } s (s.dropRead p) := by
  unfold State.dropRead
  repeat' first
    | with_reducible apply Keeps.refl
    | with_reducible apply Keeps.step ?_ (State.setReads_keeps _ _)
    | (show Blocks.le _ _ = true; rfl)

theorem State.startRead_keeps (s : State) (p : Place) (why : ReadFor) :
    Keeps { ltk := true } s (s.startRead p why) := by
  unfold State.startRead
  dsimp only
  repeat' first
    | with_reducible apply Keeps.refl
    | with_reducible apply Keeps.step ?_ (State.dropRead_keeps _ _)
    | with_reducible apply Keeps.step ?_ (State.setReads_keeps _ _)
    | (show Blocks.le _ _ = true; rfl)
    | split

theorem State.startCheck_keeps (s : State) (i : RecIx) (p : Place) :
    Keeps { ltk := true } s (s.startCheck i p) := by
  unfold State.startCheck
  repeat' first
    | with_reducible apply Keeps.refl
    | with_reducible apply Keeps.step ?_ (State.modRec_keeps _ _ _ ?_ ?_)
    | with_reducible apply Keeps.step ?_ (State.startRead_keeps _ _ _)
    | (show Blocks.le _ _ = true; rfl)
    | exact fun _ h => h
    | exact fun r ok => ⟨{ ok with }, le_refl _, le_refl _⟩

theorem State.recheckFailed_keeps (s : State) :
    Keeps { ltk := true } s (s.recheckFailed) := by
  unfold State.recheckFailed
  repeat' first
    | with_reducible apply Keeps.refl
    | with_reducible apply Keeps.step ?_ (State.startRead_keeps _ _ _)
    | with_reducible apply Keeps.foldl
    | (show Blocks.le _ _ = true; rfl)
    | (intro t a; dsimp only)
    | intro t a
    | split

end Sys2Proof.Machine
end

