-- ==== Sys2Proof/Laws/KeepsLine.lean ====
section
/-! SUPPORT. What each operation can change at most (Laws/Keeps.lean). The tunnel, the heads, the cells, the line mode and the Line Tracker. -/

namespace Sys2Proof.Machine

theorem State.laneReport_keeps (s : State) (l : LaneId) (cause : LaneCause) :
    Keeps { rep := true } s (s.laneReport l cause) := by
  unfold State.laneReport
  dsimp only
  repeat' first
    | with_reducible apply Keeps.refl
    | with_reducible apply Keeps.step ?_ (State.queueReport_keeps _ _)
    | (show Blocks.le _ _ = true; rfl)
    | split

theorem State.deriveLane_keeps (s : State) (l : LaneId) (cause : LaneCause) :
    Keeps { ctc := true, rep := true } s (s.deriveLane l cause) := by
  unfold State.deriveLane
  dsimp only
  repeat' first
    | with_reducible apply Keeps.refl
    | with_reducible apply Keeps.step ?_ (State.setLane_keeps _ _ _ ?_)
    | with_reducible apply Keeps.step ?_ (State.laneReport_keeps _ _ _)
    | (show Blocks.le _ _ = true; rfl)
    | exact fun h => h
    | split

theorem State.setClass_keeps (s : State) (l : LaneId) (c : Option Nat) (cause : LaneCause) :
    Keeps { ctc := true, rep := true } s (s.setClass l c cause) := by
  unfold State.setClass
  repeat' first
    | with_reducible apply Keeps.refl
    | with_reducible apply Keeps.step ?_ (State.setLane_keeps _ _ _ ?_)
    | with_reducible apply Keeps.step ?_ (State.laneReport_keeps _ _ _)
    | (show Blocks.le _ _ = true; rfl)
    | exact fun h => h
    | split

/-- A binding to a lane that is not full. -/
theorem State.bindTo_keeps (s : State) (w : WaitingBinding) (l : LaneId) (hb : (s.lane l).bound < 8) :
    Keeps { ltk := true, ctc := true, rep := true } s (s.bindTo w l) := by
  unfold State.bindTo
  split
  · exact Keeps.refl _ _
  · rename_i r hr
    dsimp only
    have h1 := s.setLane_keeps l { s.lane l with bound := (s.lane l).bound + 1 } (fun _ => hb)
    have h2 := (h1.mono (b := { ctc := true, rep := true }) rfl).step
      (State.setClass_keeps (s.setLane l { s.lane l with bound := (s.lane l).bound + 1 }) l (some w.cls) .bound) rfl
    have hrec : ((s.setLane l { s.lane l with bound := (s.lane l).bound + 1 }).setClass l (some w.cls) .bound).rec? w.ix
        = some r := by
      unfold State.rec?; rw [h2.ltk rfl]; exact (State.live?_some hr).1
    refine ((h2.mono rfl).step (State.setRec_keepsPass _ w.ix r _ hrec ?_ fun _ => rfl) rfl).step
      (State.queueReport_keeps _ _) rfl
    exact fun ok => ⟨{ ok with historyLive := fun _ => ok.historyLive (State.live?_some hr).2 }, le_refl _, le_refl _⟩

theorem State.limit_le (s : State) (k : LimitKind) : s.limit k ≤ 8 := by
  cases k
  · exact Nat.sub_le _ _
  · exact le_refl _

/-- The lane chosen for a binding holds fewer than the limit (R107). -/
theorem State.chooseLane_bound {s : State} {c n : Nat} {l : LaneId} (h : s.chooseLane c n = some l) :
    (s.lane l).bound < n := by
  have key : ∀ k, s.eligible c n k = true → (s.lane k).bound < n := fun k hk => by
    unfold State.eligible at hk
    simp only [Bool.and_eq_true, decide_eq_true_eq] at hk
    exact hk.2
  have same : ∀ k, s.eligibleSame c n k = true → (s.lane k).bound < n := fun k hk => by
    unfold State.eligibleSame at hk
    simp only [Bool.and_eq_true] at hk
    exact key k hk.1
  unfold State.chooseLane at h
  split at h
  · rename_i hh
    simp only [Bool.and_eq_true] at hh
    split at h <;> cases h
    · exact same _ hh.2
    · exact same _ hh.1
  · split at h
    · cases h; exact same _ ‹_›
    · split at h
      · cases h; exact same _ ‹_›
      · split at h
        · cases h; exact key _ ‹_›
        · split at h
          · cases h; exact key _ ‹_›
          · cases h

theorem State.tryBind_keeps (s : State) (w : WaitingBinding) :
    Keeps { ltk := true, ctc := true, rep := true } s (s.tryBind w) := by
  unfold State.tryBind
  split
  · rename_i l h
    refine (((s.setWaiting_keeps none).mono rfl).trans (State.bindTo_keeps _ w l ?_))
    have h1 := State.chooseLane_bound h
    have h2 := s.limit_le w.kind
    cases l <;> exact lt_of_lt_of_le h1 h2
  · exact (s.setWaiting_keeps _).mono rfl

theorem State.requestBinding_keeps (s : State) (i : RecIx) (kind : LimitKind) :
    Keeps { ltk := true, ctc := true, rep := true } s (s.requestBinding i kind) := by
  unfold State.requestBinding
  repeat' first
    | with_reducible apply Keeps.refl
    | with_reducible apply Keeps.step ?_ (State.tryBind_keeps _ _)
    | (show Blocks.le _ _ = true; rfl)
    | split

theorem State.retryBinding_keeps (s : State) :
    Keeps { ltk := true, ctc := true, rep := true } s (s.retryBinding) := by
  unfold State.retryBinding
  repeat' first
    | with_reducible apply Keeps.refl
    | with_reducible apply Keeps.step ?_ (State.tryBind_keeps _ _)
    | (show Blocks.le _ _ = true; rfl)
    | split

theorem State.dropWaiting_keeps (s : State) (i : RecIx) :
    Keeps { ctc := true } s (s.dropWaiting i) := by
  unfold State.dropWaiting
  repeat' first
    | with_reducible apply Keeps.refl
    | with_reducible apply Keeps.step ?_ (State.setWaiting_keeps _ _)
    | (show Blocks.le _ _ = true; rfl)
    | split

theorem State.unbind_keeps (s : State) (i : RecIx) (cause : LaneCause) :
    Keeps { ltk := true, ctc := true, rep := true } s (s.unbind i cause) := by
  unfold State.unbind
  dsimp only
  repeat' first
    | with_reducible apply Keeps.refl
    | with_reducible apply Keeps.step ?_ (State.retryBinding_keeps _)
    | with_reducible apply Keeps.step ?_ (State.deriveLane_keeps _ _ _)
    | with_reducible apply Keeps.step ?_ (State.setClass_keeps _ _ _ _)
    | with_reducible apply Keeps.step ?_ (State.modRec_keeps _ _ _ ?_ ?_)
    | with_reducible apply Keeps.step ?_ (State.setLane_keeps _ _ _ ?_)
    | (show Blocks.le _ _ = true; rfl)
    | exact fun _ h => h
    | exact fun r ok => ⟨{ ok with }, le_refl _, le_refl _⟩
    | exact fun h => (Nat.sub_le _ _).trans h
    | split

theorem State.evalShutter_keeps (s : State) :
    Keeps { ctc := true } s (s.evalShutter) := by
  unfold State.evalShutter
  repeat' first
    | with_reducible apply Keeps.refl
    | (show Blocks.le _ _ = true; rfl)
    | (show (_ : Nat) = _; rfl)
    | with_reducible apply Keeps.step ?_ (Keeps.ctcSet _ _ ?_ ?_)

theorem State.lampTo_keeps (s : State) (st : LampState) (cause : LampCause) :
    Keeps { ctc := true, rep := true } s (s.lampTo st cause) := by
  unfold State.lampTo
  dsimp only
  repeat' first
    | with_reducible apply Keeps.refl
    | with_reducible apply Keeps.step ?_ (State.setLamp_keeps _ _)
    | with_reducible apply Keeps.step ?_ (State.evalShutter_keeps _)
    | with_reducible apply Keeps.step ?_ (State.queueReport_keeps _ _)
    | with_reducible apply Keeps.step ?_ (State.noteFault_keeps _ _ _ _)
    | (show Blocks.le _ _ = true; rfl)
    | split

theorem State.takeBallastFault_keeps (s : State) :
    Keeps { ctc := true, rep := true } s (s.takeBallastFault) := by
  unfold State.takeBallastFault
  dsimp only
  repeat' first
    | with_reducible apply Keeps.refl
    | with_reducible apply Keeps.step ?_ (State.setLamp_keeps _ _)
    | with_reducible apply Keeps.step ?_ (State.lampTo_keeps _ _ _)
    | with_reducible apply Keeps.step ?_ (State.noteFault_keeps _ _ _ _)
    | (show Blocks.le _ _ = true; rfl)
    | split

theorem State.startWarming_keeps (s : State) :
    Keeps { ctc := true, rep := true } s (s.startWarming) := by
  unfold State.startWarming
  dsimp only
  repeat' first
    | with_reducible apply Keeps.refl
    | with_reducible apply Keeps.step ?_ (State.setLamp_keeps _ _)
    | with_reducible apply Keeps.step ?_ (State.lampTo_keeps _ _ _)
    | with_reducible apply Keeps.step ?_ (State.takeBallastFault_keeps _)
    | (show Blocks.le _ _ = true; rfl)
    | split

theorem State.lampOff_keeps (s : State) :
    Keeps { ctc := true, rep := true } s (s.lampOff) := by
  unfold State.lampOff
  repeat' first
    | with_reducible apply Keeps.refl
    | with_reducible apply Keeps.step ?_ (State.setLamp_keeps _ _)
    | with_reducible apply Keeps.step ?_ (State.lampTo_keeps _ _ _)
    | (show Blocks.le _ _ = true; rfl)

theorem State.lampSet_keeps (s : State) (on : Bool) :
    Keeps { ctc := true, rep := true } s (s.lampSet on) := by
  unfold State.lampSet
  repeat' first
    | with_reducible apply Keeps.refl
    | with_reducible apply Keeps.step ?_ (State.startWarming_keeps _)
    | with_reducible apply Keeps.step ?_ (State.lampOff_keeps _)
    | (show Blocks.le _ _ = true; rfl)
    | split

theorem State.lampSample_keeps (s : State) :
    Keeps { ctc := true, rep := true } s (s.lampSample) := by
  unfold State.lampSample
  dsimp only
  repeat' first
    | with_reducible apply Keeps.refl
    | with_reducible apply Keeps.step ?_ (State.setLamp_keeps _ _)
    | with_reducible apply Keeps.step ?_ (State.lampTo_keeps _ _ _)
    | (show Blocks.le _ _ = true; rfl)
    | split

theorem State.exitStart_keeps (s : State) (l : LaneId) :
    Keeps { ltk := true, ine := true, scc := true, ctc := true, rep := true } s (s.exitStart l) := by
  unfold State.exitStart
  dsimp only
  repeat' first
    | with_reducible apply Keeps.refl
    | with_reducible apply Keeps.step ?_ (State.setLane_keeps _ _ _ ?_)
    | with_reducible apply Keeps.step ?_ (State.beginMove_keeps _ _ _ _)
    | with_reducible apply Keeps.step ?_ (State.modRec_keeps _ _ _ ?_ ?_)
    | with_reducible apply Keeps.step ?_ (State.raiseAll_keeps _ _ _)
    | with_reducible apply Keeps.step ?_ (State.modHold_keeps _ _ _ ?_)
    | with_reducible apply Keeps.step ?_ (State.queueReport_keeps _ _)
    | with_reducible apply Keeps.step ?_ (State.unbind_keeps _ _ _)
    | (show Blocks.le _ _ = true; rfl)
    | exact fun _ h => h
    | exact fun r ok => ⟨{ ok with }, le_refl _, le_refl _⟩
    | exact fun h => HoldStep.of_eq rfl rfl
    | exact fun h => h
    | split
    | (show (_ : Nat) = _; rfl)
    | with_reducible apply Keeps.step ?_ (Keeps.ctcSet _ _ ?_ ?_)

theorem State.freeExit_keeps (s : State) (i : RecIx) :
    Keeps { ctc := true } s (s.freeExit i) := by
  unfold State.freeExit
  repeat' first
    | with_reducible apply Keeps.refl
    | (show Blocks.le _ _ = true; rfl)
    | split
    | (show (_ : Nat) = _; rfl)
    | with_reducible apply Keeps.step ?_ (Keeps.ctcSet _ _ ?_ ?_)

theorem State.modHead_keeps (s : State) (h : HeadId) (f : Head → Head) :
    Keeps { ine := true } s (s.modHead h f) := by
  unfold State.modHead
  repeat' first
    | with_reducible apply Keeps.refl
    | with_reducible apply Keeps.step ?_ (State.setHead_keeps _ _ _)
    | (show Blocks.le _ _ = true; rfl)

theorem State.abandonWalk_keeps (s : State) (h : HeadId) :
    Keeps { ine := true } s (s.abandonWalk h) := by
  unfold State.abandonWalk
  repeat' first
    | with_reducible apply Keeps.refl
    | with_reducible apply Keeps.step ?_ (State.modHead_keeps _ _ _)
    | (show Blocks.le _ _ = true; rfl)
    | split

theorem State.abandonWalkOf_keeps (s : State) (h : HeadId) (i : RecIx) :
    Keeps { ine := true } s (s.abandonWalkOf h i) := by
  unfold State.abandonWalkOf
  repeat' first
    | with_reducible apply Keeps.refl
    | with_reducible apply Keeps.step ?_ (State.abandonWalk_keeps _ _)
    | (show Blocks.le _ _ = true; rfl)
    | split

theorem State.dropWalks_keeps (s : State) (i : RecIx) :
    Keeps { ine := true } s (s.dropWalks i) := by
  unfold State.dropWalks
  repeat' first
    | with_reducible apply Keeps.refl
    | with_reducible apply Keeps.step ?_ (State.abandonWalkOf_keeps _ _ _)
    | (show Blocks.le _ _ = true; rfl)

theorem State.divert_keeps (s : State) (i : RecIx) (stage : Stage) :
    Keeps { ltk := true, ctc := true, hmg := true, rep := true } s (s.divert i stage) := by
  unfold State.divert
  repeat' first
    | with_reducible apply Keeps.refl
    | with_reducible apply Keeps.step ?_ (State.modRec_keeps _ _ _ ?_ ?_)
    | with_reducible apply Keeps.step ?_ (State.unbind_keeps _ _ _)
    | with_reducible apply Keeps.step ?_ (State.enterQueue_keeps _ _ _)
    | (show Blocks.le _ _ = true; rfl)
    | exact fun _ h => h
    | exact fun r ok => ⟨{ ok with }, le_refl _, le_refl _⟩

theorem State.decideMask_keeps (s : State) (i : RecIx) :
    Keeps { ltk := true, ctc := true, hmg := true, rep := true } s (s.decideMask i) := by
  unfold State.decideMask
  repeat' first
    | with_reducible apply Keeps.refl
    | with_reducible apply Keeps.step ?_ (State.divert_keeps _ _ _)
    | (show Blocks.le _ _ = true; rfl)
    | split

theorem State.decideInspect_keeps (s : State) (i : RecIx) :
    Keeps { ltk := true, ctc := true, hmg := true, rep := true } s (s.decideInspect i) := by
  unfold State.decideInspect
  repeat' first
    | with_reducible apply Keeps.refl
    | with_reducible apply Keeps.step ?_ (State.divert_keeps _ _ _)
    | (show Blocks.le _ _ = true; rfl)
    | split

theorem State.raiseMask_keeps (s : State) (i : RecIx) (vs : List PointVerdict) :
    Keeps { ltk := true, rep := true } s (s.raiseMask i vs) := by
  unfold State.raiseMask
  repeat' first
    | with_reducible apply Keeps.refl
    | with_reducible apply Keeps.step ?_ (State.raiseIf_keeps _ _ _ _)
    | (show Blocks.le _ _ = true; rfl)

theorem State.raiseInspect_keeps (s : State) (i : RecIx) (ks cs : List PointVerdict) :
    Keeps { ltk := true, rep := true } s (s.raiseInspect i ks cs) := by
  unfold State.raiseInspect
  repeat' first
    | with_reducible apply Keeps.refl
    | with_reducible apply Keeps.step ?_ (State.raiseIf_keeps _ _ _ _)
    | (show Blocks.le _ _ = true; rfl)

theorem State.endMask_keeps (s : State) (w : WalkTable) :
    Keeps { ltk := true, ine := true, ctc := true, hmg := true, rep := true } s (s.endMask w) := by
  unfold State.endMask
  dsimp only
  repeat' first
    | with_reducible apply Keeps.refl
    | with_reducible apply Keeps.step ?_ (State.raiseMask_keeps _ _ _)
    | with_reducible apply Keeps.step ?_ (State.modLive_keeps _ _ _ ?_ ?_)
    | with_reducible apply Keeps.step ?_ (State.decideMask_keeps _ _)
    | with_reducible apply Keeps.step ?_ (State.queueReport_keeps _ _)
    | with_reducible apply Keeps.step ?_ (State.modHead_keeps _ _ _)
    | (show Blocks.le _ _ = true; rfl)
    | exact fun _ h => h
    | exact fun r ok => ⟨{ ok with }, le_refl _, le_refl _⟩
    | split

theorem State.endInspect_keeps (s : State) (w : WalkTable) :
    Keeps { ltk := true, ine := true, ctc := true, hmg := true, rep := true } s (s.endInspect w) := by
  unfold State.endInspect
  dsimp only
  repeat' first
    | with_reducible apply Keeps.refl
    | with_reducible apply Keeps.step ?_ (State.raiseInspect_keeps _ _ _ _)
    | with_reducible apply Keeps.step ?_ (State.modLive_keeps _ _ _ ?_ ?_)
    | with_reducible apply Keeps.step ?_ (State.queueReport_keeps _ _)
    | with_reducible apply Keeps.step ?_ (State.decideInspect_keeps _ _)
    | with_reducible apply Keeps.step ?_ (State.modHead_keeps _ _ _)
    | (show Blocks.le _ _ = true; rfl)
    | exact fun _ h => h
    | exact fun r ok => ⟨{ ok with }, le_refl _, le_refl _⟩
    | split

theorem State.endWalk_keeps (s : State) (h : HeadId) (w : WalkTable) :
    Keeps { ltk := true, ine := true, ctc := true, hmg := true, rep := true } s (s.endWalk h w) := by
  unfold State.endWalk
  repeat' first
    | with_reducible apply Keeps.refl
    | with_reducible apply Keeps.step ?_ (State.endMask_keeps _ _)
    | with_reducible apply Keeps.step ?_ (State.endInspect_keeps _ _)
    | (show Blocks.le _ _ = true; rfl)
    | split

theorem State.beginGroup_keeps (s : State) (h : HeadId) (g : List Nat) :
    Keeps { ine := true } s (s.beginGroup h g) := by
  unfold State.beginGroup
  repeat' first
    | with_reducible apply Keeps.refl
    | with_reducible apply Keeps.step ?_ (State.modHead_keeps _ _ _)
    | (show Blocks.le _ _ = true; rfl)

theorem State.afterGroup_keeps (s : State) (h : HeadId) :
    Keeps { ltk := true, ine := true, ctc := true, hmg := true, rep := true } s (s.afterGroup h) := by
  unfold State.afterGroup
  dsimp only
  repeat' first
    | with_reducible apply Keeps.refl
    | with_reducible apply Keeps.step ?_ (State.endWalk_keeps _ _ _)
    | with_reducible apply Keeps.step ?_ (State.modHead_keeps _ _ _)
    | with_reducible apply Keeps.step ?_ (State.beginGroup_keeps _ _ _)
    | (show Blocks.le _ _ = true; rfl)
    | split

theorem State.retryPoint_keeps (s : State) (h : HeadId) (ix : RecIx) (k : Nat) :
    Keeps { ine := true, rep := true } s (s.retryPoint h ix k) := by
  unfold State.retryPoint
  repeat' first
    | with_reducible apply Keeps.refl
    | with_reducible apply Keeps.step ?_ (State.modHead_keeps _ _ _)
    | with_reducible apply Keeps.step ?_ (State.noteFault_keeps _ _ _ _)
    | (show Blocks.le _ _ = true; rfl)

theorem State.judgePoint_keeps (s : State) (h : HeadId) (k : Nat) (verdict : PointVerdict) :
    Keeps { ine := true } s (s.judgePoint h k verdict) := by
  unfold State.judgePoint
  repeat' first
    | with_reducible apply Keeps.refl
    | with_reducible apply Keeps.step ?_ (State.modHead_keeps _ _ _)
    | (show Blocks.le _ _ = true; rfl)

theorem State.judgeFull_keeps (s : State) (h : HeadId) (ix : RecIx) (k : Nat) (e : WalkPoint) :
    Keeps { ine := true, rep := true } s (s.judgeFull h ix k e) := by
  unfold State.judgeFull
  dsimp only
  repeat' first
    | with_reducible apply Keeps.refl
    | with_reducible apply Keeps.step ?_ (State.judgePoint_keeps _ _ _ _)
    | with_reducible apply Keeps.step ?_ (State.modHead_keeps _ _ _)
    | with_reducible apply Keeps.step ?_ (State.retryPoint_keeps _ _ _ _)
    | (show Blocks.le _ _ = true; rfl)
    | split

theorem State.judgeGroup_keeps (s : State) (h : HeadId) (w : WalkTable) (x : List Nat) :
    Keeps { ine := true, rep := true } s (s.judgeGroup h w x) := by
  induction x generalizing s with
  | nil => exact Keeps.refl _ _
  | cons k ks ih =>
    unfold State.judgeGroup
    split
    · exact Keeps.step ((State.judgeFull_keeps s h w.ix k _).mono rfl) (ih _) rfl
    · exact ih s

theorem State.judge_keeps (s : State) (h : HeadId) :
    Keeps { ltk := true, ine := true, ctc := true, hmg := true, rep := true } s (s.judge h) := by
  unfold State.judge
  repeat' first
    | with_reducible apply Keeps.refl
    | with_reducible apply Keeps.step ?_ (State.judgeGroup_keeps _ _ _ _)
    | with_reducible apply Keeps.step ?_ (State.modHead_keeps _ _ _)
    | with_reducible apply Keeps.step ?_ (State.afterGroup_keeps _ _)
    | (show Blocks.le _ _ = true; rfl)
    | split

theorem State.completeGroup_keeps (s : State) (h : HeadId) :
    Keeps { ltk := true, ine := true, ctc := true, hmg := true, rep := true } s (s.completeGroup h) := by
  unfold State.completeGroup
  repeat' first
    | with_reducible apply Keeps.refl
    | with_reducible apply Keeps.step ?_ (State.afterGroup_keeps _ _)
    | (show Blocks.le _ _ = true; rfl)
    | split

theorem State.passOver_keeps (s : State) (h : HeadId) (k : Nat) :
    Keeps { ine := true } s (s.passOver h k) := by
  unfold State.passOver
  dsimp only
  repeat' first
    | with_reducible apply Keeps.refl
    | with_reducible apply Keeps.step ?_ (State.modHead_keeps _ _ _)
    | (show Blocks.le _ _ = true; rfl)
    | split

theorem State.settlePoint_keeps (s : State) (h : HeadId) (k : Nat) (verdict : PointVerdict) :
    Keeps { ltk := true, ine := true, ctc := true, hmg := true, rep := true } s (s.settlePoint h k verdict) := by
  unfold State.settlePoint
  dsimp only
  repeat' first
    | with_reducible apply Keeps.refl
    | with_reducible apply Keeps.step ?_ (State.judgePoint_keeps _ _ _ _)
    | with_reducible apply Keeps.step ?_ (State.passOver_keeps _ _ _)
    | with_reducible apply Keeps.step ?_ (State.completeGroup_keeps _ _)
    | with_reducible apply Keeps.step ?_ (State.endWalk_keeps _ _ _)
    | (show Blocks.le _ _ = true; rfl)
    | split

theorem State.startWalk_keeps (s : State) (h : HeadId) :
    Keeps { ltk := true, ine := true, ctc := true, hmg := true, rep := true } s (s.startWalk h) := by
  unfold State.startWalk
  dsimp only
  repeat' first
    | with_reducible apply Keeps.refl
    | with_reducible apply Keeps.step ?_ (State.endWalk_keeps _ _ _)
    | with_reducible apply Keeps.step ?_ (State.modHead_keeps _ _ _)
    | with_reducible apply Keeps.step ?_ (State.beginGroup_keeps _ _ _)
    | (show Blocks.le _ _ = true; rfl)
    | split

theorem State.positionerArrival_keeps (s : State) (h : HeadId) (answers : Bool) :
    Keeps { ine := true } s (s.positionerArrival h answers) := by
  unfold State.positionerArrival
  repeat' first
    | with_reducible apply Keeps.refl
    | with_reducible apply Keeps.step ?_ (State.modHead_keeps _ _ _)
    | (show Blocks.le _ _ = true; rfl)
    | split

theorem State.positionTimeout_keeps (s : State) (h : HeadId) :
    Keeps { ine := true, rep := true, clock := true } s (s.positionTimeout h) := by
  unfold State.positionTimeout
  repeat' first
    | with_reducible apply Keeps.refl
    | with_reducible apply Keeps.step ?_ (State.expire_keeps _ _)
    | with_reducible apply Keeps.step ?_ (State.modHead_keeps _ _ _)
    | with_reducible apply Keeps.step ?_ (State.noteFault_keeps _ _ _ _)
    | (show Blocks.le _ _ = true; rfl)
    | split

theorem State.spurious_keeps (s : State) (h : HeadId) (ix : RecIx) :
    Keeps { ine := true, rep := true } s (s.spurious h ix) := by
  unfold State.spurious
  repeat' first
    | with_reducible apply Keeps.refl
    | with_reducible apply Keeps.step ?_ (State.modHead_keeps _ _ _)
    | with_reducible apply Keeps.step ?_ (State.noteFault_keeps _ _ _ _)
    | (show Blocks.le _ _ = true; rfl)

theorem State.judgeIfLanded_keeps (s : State) (h : HeadId) :
    Keeps { ltk := true, ine := true, ctc := true, hmg := true, rep := true } s (s.judgeIfLanded h) := by
  unfold State.judgeIfLanded
  repeat' first
    | with_reducible apply Keeps.refl
    | with_reducible apply Keeps.step ?_ (State.judge_keeps _ _)
    | (show Blocks.le _ _ = true; rfl)
    | split

theorem State.resultFull_keeps (s : State) (h : HeadId) (ix : RecIx) (c : Fin 4) (reading : Nat) :
    Keeps { ltk := true, ine := true, ctc := true, hmg := true, rep := true } s (s.resultFull h ix c reading) := by
  unfold State.resultFull
  repeat' first
    | with_reducible apply Keeps.refl
    | with_reducible apply Keeps.step ?_ (State.modHead_keeps _ _ _)
    | with_reducible apply Keeps.step ?_ (State.judgeIfLanded_keeps _ _)
    | with_reducible apply Keeps.step ?_ (State.spurious_keeps _ _ _)
    | (show Blocks.le _ _ = true; rfl)
    | split

theorem State.resultFirstFail_keeps (s : State) (h : HeadId) (w : WalkTable) (c : Fin 4) (reading : Nat) :
    Keeps { ltk := true, ine := true, ctc := true, hmg := true, rep := true } s (s.resultFirstFail h w c reading) := by
  unfold State.resultFirstFail
  repeat' first
    | with_reducible apply Keeps.refl
    | with_reducible apply Keeps.step ?_ (State.modHead_keeps _ _ _)
    | with_reducible apply Keeps.step ?_ (State.settlePoint_keeps _ _ _ _)
    | (show Blocks.le _ _ = true; rfl)
    | split

theorem State.channelResult_keeps (s : State) (h : HeadId) (c : Fin 4) (reading : BitVec 10) :
    Keeps { ltk := true, ine := true, ctc := true, hmg := true, rep := true } s (s.channelResult h c reading) := by
  unfold State.channelResult
  repeat' first
    | with_reducible apply Keeps.refl
    | with_reducible apply Keeps.step ?_ (State.resultFull_keeps _ _ _ _ _)
    | with_reducible apply Keeps.step ?_ (State.resultFirstFail_keeps _ _ _ _ _)
    | (show Blocks.le _ _ = true; rfl)
    | split

theorem State.groupWaitExpiry_keeps (s : State) (h : HeadId) :
    Keeps { ltk := true, ine := true, ctc := true, hmg := true, rep := true, clock := true } s (s.groupWaitExpiry h) := by
  unfold State.groupWaitExpiry
  repeat' first
    | with_reducible apply Keeps.refl
    | with_reducible apply Keeps.step ?_ (State.expire_keeps _ _)
    | with_reducible apply Keeps.step ?_ (State.judge_keeps _ _)
    | (show Blocks.le _ _ = true; rfl)
    | split

theorem State.resultLate_keeps (s : State) (h : HeadId) (ix : RecIx) (k : Nat) (e : WalkPoint) :
    Keeps { ltk := true, ine := true, ctc := true, hmg := true, rep := true } s (s.resultLate h ix k e) := by
  unfold State.resultLate
  repeat' first
    | with_reducible apply Keeps.refl
    | with_reducible apply Keeps.step ?_ (State.retryPoint_keeps _ _ _ _)
    | with_reducible apply Keeps.step ?_ (State.completeGroup_keeps _ _)
    | with_reducible apply Keeps.step ?_ (State.settlePoint_keeps _ _ _ _)
    | (show Blocks.le _ _ = true; rfl)
    | split

theorem State.resultTimerExpiry_keeps (s : State) (h : HeadId) (c : Fin 4) :
    Keeps { ltk := true, ine := true, ctc := true, hmg := true, rep := true, clock := true } s (s.resultTimerExpiry h c) := by
  unfold State.resultTimerExpiry
  repeat' first
    | with_reducible apply Keeps.refl
    | with_reducible apply Keeps.step ?_ (State.expire_keeps _ _)
    | with_reducible apply Keeps.step ?_ (State.modHead_keeps _ _ _)
    | with_reducible apply Keeps.step ?_ (State.resultLate_keeps _ _ _ _ _)
    | (show Blocks.le _ _ = true; rfl)
    | split

theorem State.clearHead_keeps (s : State) (h : HeadId) :
    Keeps { ine := true } s (s.clearHead h) := by
  unfold State.clearHead
  repeat' first
    | with_reducible apply Keeps.refl
    | with_reducible apply Keeps.step ?_ (State.modHead_keeps _ _ _)
    | with_reducible apply Keeps.step ?_ (State.abandonWalk_keeps _ _)
    | (show Blocks.le _ _ = true; rfl)
    | split

theorem State.modCell_keeps (s : State) (c : CellId) (f : SprayCell → SprayCell) :
    Keeps { scc := true } s (s.modCell c f) := by
  unfold State.modCell
  repeat' first
    | with_reducible apply Keeps.refl
    | with_reducible apply Keeps.step ?_ (State.setCell_keeps _ _ _)
    | (show Blocks.le _ _ = true; rfl)

theorem State.cellTo_keeps (s : State) (c : CellId) (st : CellState) (cause : CellCause) (i : Option RecIx) :
    Keeps { scc := true, rep := true } s (s.cellTo c st cause i) := by
  unfold State.cellTo
  dsimp only
  repeat' first
    | with_reducible apply Keeps.refl
    | with_reducible apply Keeps.step ?_ (State.modCell_keeps _ _ _)
    | with_reducible apply Keeps.step ?_ (State.queueReport_keeps _ _)
    | (show Blocks.le _ _ = true; rfl)
    | split

theorem State.flagZone?_keeps (s : State) (i : RecIx) (x : Option Nat) : Keeps { ltk := true } s (s.flagZone? i x) := by
  cases x
  · exact Keeps.refl _ _
  · exact s.flagZone_keeps i _

theorem State.abandonRun_keeps (s : State) (c : CellId) (i : RecIx) (offending : Option Nat) (raise : Bool) :
    Keeps { ltk := true, scc := true, rep := true } s (s.abandonRun c i offending raise) := by
  unfold State.abandonRun
  dsimp only
  repeat' first
    | with_reducible apply Keeps.refl
    | with_reducible apply Keeps.step ?_ (State.modCell_keeps _ _ _)
    | with_reducible apply Keeps.step ?_ (State.flagZone?_keeps _ _ _)
    | with_reducible apply Keeps.step ?_ (State.raiseIf_keeps _ _ _ _)
    | (show Blocks.le _ _ = true; rfl)
    | split

theorem State.cutOff_keeps (s : State) (c : CellId) (i : RecIx) :
    Keeps { ltk := true } s (s.cutOff c i) := by
  unfold State.cutOff
  repeat' first
    | with_reducible apply Keeps.refl
    | with_reducible apply Keeps.step ?_ (State.addDeposit_keeps _ _ _ _)
    | (show Blocks.le _ _ = true; rfl)
    | split

theorem State.markRun_keeps (s : State) (c : CellId) (i : RecIx) (pass : Nat) :
    Keeps { scc := true } s (s.markRun c i pass) := by
  unfold State.markRun
  repeat' first
    | with_reducible apply Keeps.refl
    | with_reducible apply Keeps.step ?_ (State.modCell_keeps _ _ _)
    | (show Blocks.le _ _ = true; rfl)
    | split

theorem State.finishProgram_keeps (s : State) (c : CellId) (p : Program) (outcome : ProgramOutcome) (fault : Option (FaultCode × Nat)) (next : CellState) (cause : CellCause) :
    Keeps { ltk := true, scc := true, rep := true } s (s.finishProgram c p outcome fault next cause) := by
  unfold State.finishProgram
  dsimp only
  repeat' first
    | with_reducible apply Keeps.refl
    | with_reducible apply Keeps.step ?_ (State.markRun_keeps _ _ _ _)
    | with_reducible apply Keeps.step ?_ (State.modLive_keeps _ _ _ ?_ ?_)
    | with_reducible apply Keeps.step ?_ (State.evaluateFilm_keeps _ _)
    | with_reducible apply Keeps.step ?_ (State.queueReport_keeps _ _)
    | with_reducible apply Keeps.step ?_ (State.modCell_keeps _ _ _)
    | with_reducible apply Keeps.step ?_ (State.cellTo_keeps _ _ _ _ _)
    | (show Blocks.le _ _ = true; rfl)
    | exact fun _ h => h
    | exact fun r ok => ⟨{ ok with }, le_refl _, le_refl _⟩
    | split

theorem State.abandonProgram_keeps (s : State) (c : CellId) (p : Program) (outcome : ProgramOutcome) (fault : Option (FaultCode × Nat)) (offending : Option Nat) (next : CellState) (cause : CellCause) :
    Keeps { ltk := true, scc := true, rep := true } s (s.abandonProgram c p outcome fault offending next cause) := by
  unfold State.abandonProgram
  dsimp only
  repeat' first
    | with_reducible apply Keeps.refl
    | with_reducible apply Keeps.step ?_ (State.cutOff_keeps _ _ _)
    | with_reducible apply Keeps.step ?_ (State.modCell_keeps _ _ _)
    | with_reducible apply Keeps.step ?_ (State.abandonRun_keeps _ _ _ _ _)
    | with_reducible apply Keeps.step ?_ (State.finishProgram_keeps _ _ _ _ _ _ _)
    | (show Blocks.le _ _ = true; rfl)
    | split

theorem State.faultProgram_keeps (s : State) (c : CellId) (p : Program) (code : FaultCode) (segment : Nat) (offending : Option Nat) :
    Keeps { ltk := true, scc := true, rep := true } s (s.faultProgram c p code segment offending) := by
  unfold State.faultProgram
  repeat' first
    | with_reducible apply Keeps.refl
    | with_reducible apply Keeps.step ?_ (State.abandonProgram_keeps _ _ _ _ _ _ _ _)
    | (show Blocks.le _ _ = true; rfl)

theorem State.segmentFault_keeps (s : State) (c : CellId) (p : Program) (code : FaultCode) (segment : Nat) (offending : Option Nat) :
    Keeps { ltk := true, scc := true, rep := true } s (s.segmentFault c p code segment offending) := by
  unfold State.segmentFault
  repeat' first
    | with_reducible apply Keeps.refl
    | with_reducible apply Keeps.step ?_ (State.noteFault_keeps _ _ _ _)
    | with_reducible apply Keeps.step ?_ (State.faultProgram_keeps _ _ _ _ _ _)
    | (show Blocks.le _ _ = true; rfl)

theorem State.endProgram_keeps (s : State) (c : CellId) (p : Program) :
    Keeps { ltk := true, scc := true, rep := true } s (s.endProgram c p) := by
  unfold State.endProgram
  repeat' first
    | with_reducible apply Keeps.refl
    | with_reducible apply Keeps.step ?_ (State.modCell_keeps _ _ _)
    | with_reducible apply Keeps.step ?_ (State.finishProgram_keeps _ _ _ _ _ _ _)
    | (show Blocks.le _ _ = true; rfl)

theorem State.beginMotion_keeps (s : State) (c : CellId) (e : Executing) :
    Keeps { scc := true } s (s.beginMotion c e) := by
  unfold State.beginMotion
  repeat' first
    | with_reducible apply Keeps.refl
    | with_reducible apply Keeps.step ?_ (State.modCell_keeps _ _ _)
    | (show Blocks.le _ _ = true; rfl)
    | split

theorem State.beginStroke_keeps (s : State) (c : CellId) (e : Executing) :
    Keeps { scc := true } s (s.beginStroke c e) := by
  unfold State.beginStroke
  dsimp only
  repeat' first
    | with_reducible apply Keeps.refl
    | with_reducible apply Keeps.step ?_ (State.beginMotion_keeps _ _ _)
    | with_reducible apply Keeps.step ?_ (State.modCell_keeps _ _ _)
    | (show Blocks.le _ _ = true; rfl)
    | split

theorem State.beginSegment_keeps (s : State) (c : CellId) (e : Executing) :
    Keeps { scc := true } s (s.beginSegment c e) := by
  unfold State.beginSegment
  repeat' first
    | with_reducible apply Keeps.refl
    | with_reducible apply Keeps.step ?_ (State.beginStroke_keeps _ _ _)
    | with_reducible apply Keeps.step ?_ (State.modCell_keeps _ _ _)
    | (show Blocks.le _ _ = true; rfl)
    | split

theorem State.formSegment_keeps (s : State) (c : CellId) (p : Program) (m : Material) (k : SegKind) (finish : GantryPos) (g : Segment) :
    Keeps { ltk := true, scc := true } s (s.formSegment c p m k finish g) := by
  unfold State.formSegment
  dsimp only
  repeat' first
    | with_reducible apply Keeps.refl
    | with_reducible apply Keeps.step ?_ (State.modLive_keeps _ _ _ ?_ ?_)
    | with_reducible apply Keeps.step ?_ (State.modCell_keeps _ _ _)
    | with_reducible apply Keeps.step ?_ (State.beginSegment_keeps _ _ _)
    | (show Blocks.le _ _ = true; rfl)
    | exact fun _ h => h
    | exact fun r ok => ⟨{ ok with }, le_refl _, le_refl _⟩
    | split

theorem State.executeSegment_keeps (s : State) (c : CellId) (p : Program) (index : Nat) (g : Segment) :
    Keeps { ltk := true, scc := true, rep := true } s (s.executeSegment c p index g) := by
  unfold State.executeSegment
  repeat' first
    | with_reducible apply Keeps.refl
    | with_reducible apply Keeps.step ?_ (State.segmentFault_keeps _ _ _ _ _ _)
    | with_reducible apply Keeps.step ?_ (State.formSegment_keeps _ _ _ _ _ _ _)
    | (show Blocks.le _ _ = true; rfl)
    | split

theorem State.discardSegment_keeps (s : State) (c : CellId) (i : RecIx) (g : Segment) :
    Keeps { ltk := true, scc := true } s (s.discardSegment c i g) := by
  unfold State.discardSegment
  dsimp only
  repeat' first
    | with_reducible apply Keeps.refl
    | with_reducible apply Keeps.step ?_ (State.modCell_keeps _ _ _)
    | with_reducible apply Keeps.step ?_ (State.flagZone?_keeps _ _ _)
    | (show Blocks.le _ _ = true; rfl)
    | split

theorem State.starve_keeps (s : State) (c : CellId) (i : RecIx) :
    Keeps { ltk := true, scc := true, rep := true } s (s.starve c i) := by
  unfold State.starve
  dsimp only
  repeat' first
    | with_reducible apply Keeps.refl
    | with_reducible apply Keeps.step ?_ (State.modLive_keeps _ _ _ ?_ ?_)
    | with_reducible apply Keeps.step ?_ (State.modCell_keeps _ _ _)
    | with_reducible apply Keeps.step ?_ (State.cellTo_keeps _ _ _ _ _)
    | (show Blocks.le _ _ = true; rfl)
    | exact fun _ h => h
    | exact fun r ok => ⟨{ ok with }, le_refl _, le_refl _⟩
    | split

theorem State.bringNext_keeps (s : State) (c : CellId) (x : Nat) :
    Keeps { ltk := true, scc := true, rep := true } s (s.bringNext c x) := by
  induction x generalizing s with
  | zero => exact Keeps.refl _ _
  | succ n ih =>
    unfold State.bringNext
    dsimp only
    repeat' first
      | with_reducible apply Keeps.refl
      | with_reducible apply Keeps.step ?_ (ih _)
      | with_reducible apply Keeps.step ?_ (State.endProgram_keeps _ _ _)
      | with_reducible apply Keeps.step ?_ (State.starve_keeps _ _ _)
      | with_reducible apply Keeps.step ?_ (State.discardSegment_keeps _ _ _ _)
      | with_reducible apply Keeps.step ?_ (State.executeSegment_keeps _ _ _ _ _)
      | with_reducible apply Keeps.step ?_ (State.modCell_keeps _ _ _)
      | (show Blocks.le _ _ = true; rfl)
      | split

theorem State.nextSegment_keeps (s : State) (c : CellId) :
    Keeps { ltk := true, scc := true, rep := true } s (s.nextSegment c) := by
  unfold State.nextSegment
  repeat' first
    | with_reducible apply Keeps.refl
    | with_reducible apply Keeps.step ?_ (State.bringNext_keeps _ _ _)
    | (show Blocks.le _ _ = true; rfl)

theorem State.startProgram_keeps (s : State) (c : CellId) :
    Keeps { scc := true, rep := true } s (s.startProgram c) := by
  unfold State.startProgram
  repeat' first
    | with_reducible apply Keeps.refl
    | with_reducible apply Keeps.step ?_ (State.modCell_keeps _ _ _)
    | with_reducible apply Keeps.step ?_ (State.cellTo_keeps _ _ _ _ _)
    | (show Blocks.le _ _ = true; rfl)
    | split

theorem State.askFetch_keeps (s : State) (c : CellId) :
    Keeps { scc := true } s (s.askFetch c) := by
  unfold State.askFetch
  repeat' first
    | with_reducible apply Keeps.refl
    | with_reducible apply Keeps.step ?_ (State.modCell_keeps _ _ _)
    | (show Blocks.le _ _ = true; rfl)
    | split

theorem State.afterLanding_keeps (s : State) (c : CellId) :
    Keeps { ltk := true, scc := true, rep := true } s (s.afterLanding c) := by
  unfold State.afterLanding
  repeat' first
    | with_reducible apply Keeps.refl
    | with_reducible apply Keeps.step ?_ (State.cellTo_keeps _ _ _ _ _)
    | with_reducible apply Keeps.step ?_ (State.nextSegment_keeps _ _)
    | with_reducible apply Keeps.step ?_ (State.modCell_keeps _ _ _)
    | with_reducible apply Keeps.step ?_ (State.noteFault_keeps _ _ _ _)
    | (show Blocks.le _ _ = true; rfl)
    | split

theorem State.landFetch_keeps (s : State) (c : CellId) (bytes : List Byte) :
    Keeps { ltk := true, scc := true, rep := true } s (s.landFetch c bytes) := by
  unfold State.landFetch
  repeat' first
    | with_reducible apply Keeps.refl
    | with_reducible apply Keeps.step ?_ (State.modCell_keeps _ _ _)
    | with_reducible apply Keeps.step ?_ (State.afterLanding_keeps _ _)
    | (show Blocks.le _ _ = true; rfl)
    | split

theorem State.failFetch_keeps (s : State) (c : CellId) :
    Keeps { ltk := true, scc := true, rep := true } s (s.failFetch c) := by
  unfold State.failFetch
  dsimp only
  repeat' first
    | with_reducible apply Keeps.refl
    | with_reducible apply Keeps.step ?_ (State.modCell_keeps _ _ _)
    | with_reducible apply Keeps.step ?_ (State.faultProgram_keeps _ _ _ _ _ _)
    | (show Blocks.le _ _ = true; rfl)
    | split

theorem State.cellStop_keeps (s : State) (c : CellId) :
    Keeps { ltk := true, scc := true, rep := true } s (s.cellStop c) := by
  unfold State.cellStop
  repeat' first
    | with_reducible apply Keeps.refl
    | with_reducible apply Keeps.step ?_ (State.abandonProgram_keeps _ _ _ _ _ _ _ _)
    | with_reducible apply Keeps.step ?_ (State.modCell_keeps _ _ _)
    | with_reducible apply Keeps.step ?_ (State.cellTo_keeps _ _ _ _ _)
    | (show Blocks.le _ _ = true; rfl)
    | split

theorem State.cellEmergency_keeps (s : State) (c : CellId) :
    Keeps { ltk := true, scc := true, rep := true } s (s.cellEmergency c) := by
  unfold State.cellEmergency
  repeat' first
    | with_reducible apply Keeps.refl
    | with_reducible apply Keeps.step ?_ (State.abandonProgram_keeps _ _ _ _ _ _ _ _)
    | with_reducible apply Keeps.step ?_ (State.modCell_keeps _ _ _)
    | with_reducible apply Keeps.step ?_ (State.cellTo_keeps _ _ _ _ _)
    | (show Blocks.le _ _ = true; rfl)
    | split

theorem State.dropProgram_keeps (s : State) (c : CellId) (i : RecIx) (outcome : ProgramOutcome) (cause : CellCause) :
    Keeps { ltk := true, scc := true, rep := true } s (s.dropProgram c i outcome cause) := by
  unfold State.dropProgram
  repeat' first
    | with_reducible apply Keeps.refl
    | with_reducible apply Keeps.step ?_ (State.abandonProgram_keeps _ _ _ _ _ _ _ _)
    | (show Blocks.le _ _ = true; rfl)
    | split

theorem State.homeReached_keeps (s : State) (c : CellId) :
    Keeps { scc := true, rep := true } s (s.homeReached c) := by
  unfold State.homeReached
  repeat' first
    | with_reducible apply Keeps.refl
    | with_reducible apply Keeps.step ?_ (State.modCell_keeps _ _ _)
    | with_reducible apply Keeps.step ?_ (State.cellTo_keeps _ _ _ _ _)
    | (show Blocks.le _ _ = true; rfl)
    | split

theorem State.homeTimeout_keeps (s : State) (c : CellId) :
    Keeps { scc := true, rep := true, clock := true } s (s.homeTimeout c) := by
  unfold State.homeTimeout
  dsimp only
  repeat' first
    | with_reducible apply Keeps.refl
    | with_reducible apply Keeps.step ?_ (State.expire_keeps _ _)
    | with_reducible apply Keeps.step ?_ (State.modCell_keeps _ _ _)
    | with_reducible apply Keeps.step ?_ (State.noteFault_keeps _ _ _ _)
    | with_reducible apply Keeps.step ?_ (State.cellTo_keeps _ _ _ _ _)
    | (show Blocks.le _ _ = true; rfl)
    | split

theorem State.seekEnd_keeps (s : State) (c : CellId) :
    Keeps { scc := true } s (s.seekEnd c) := by
  unfold State.seekEnd
  repeat' first
    | with_reducible apply Keeps.refl
    | with_reducible apply Keeps.step ?_ (State.modCell_keeps _ _ _)
    | with_reducible apply Keeps.step ?_ (State.beginStroke_keeps _ _ _)
    | (show Blocks.le _ _ = true; rfl)
    | split

theorem State.leadExpiry_keeps (s : State) (c : CellId) :
    Keeps { scc := true, clock := true } s (s.leadExpiry c) := by
  unfold State.leadExpiry
  repeat' first
    | with_reducible apply Keeps.refl
    | with_reducible apply Keeps.step ?_ (State.expire_keeps _ _)
    | with_reducible apply Keeps.step ?_ (State.modCell_keeps _ _ _)
    | with_reducible apply Keeps.step ?_ (State.beginMotion_keeps _ _ _)
    | (show Blocks.le _ _ = true; rfl)
    | split

theorem State.valveClose_keeps (s : State) (c : CellId) :
    Keeps { scc := true, clock := true } s (s.valveClose c) := by
  unfold State.valveClose
  repeat' first
    | with_reducible apply Keeps.refl
    | with_reducible apply Keeps.step ?_ (State.expire_keeps _ _)
    | with_reducible apply Keeps.step ?_ (State.modCell_keeps _ _ _)
    | (show Blocks.le _ _ = true; rfl)
    | split

theorem State.credit_keeps (s : State) (i : RecIx) (e : Executing) :
    Keeps { ltk := true } s (s.credit i e) := by
  unfold State.credit
  repeat' first
    | with_reducible apply Keeps.refl
    | with_reducible apply Keeps.step ?_ (State.addDeposit_keeps _ _ _ _)
    | (show Blocks.le _ _ = true; rfl)
    | split

theorem State.motionEnd_keeps (s : State) (c : CellId) :
    Keeps { ltk := true, scc := true, rep := true } s (s.motionEnd c) := by
  unfold State.motionEnd
  repeat' first
    | with_reducible apply Keeps.refl
    | with_reducible apply Keeps.step ?_ (State.credit_keeps _ _ _)
    | with_reducible apply Keeps.step ?_ (State.modCell_keeps _ _ _)
    | with_reducible apply Keeps.step ?_ (State.nextSegment_keeps _ _)
    | (show Blocks.le _ _ = true; rfl)
    | split

theorem State.gantryTimeout_keeps (s : State) (c : CellId) :
    Keeps { ltk := true, scc := true, rep := true, clock := true } s (s.gantryTimeout c) := by
  unfold State.gantryTimeout
  repeat' first
    | with_reducible apply Keeps.refl
    | with_reducible apply Keeps.step ?_ (State.expire_keeps _ _)
    | with_reducible apply Keeps.step ?_ (State.segmentFault_keeps _ _ _ _ _ _)
    | (show Blocks.le _ _ = true; rfl)
    | split

theorem State.haltReport_keeps (s : State) (c : CellId) (x y z : Nat) :
    Keeps { scc := true } s (s.haltReport c x y z) := by
  unfold State.haltReport
  repeat' first
    | with_reducible apply Keeps.refl
    | with_reducible apply Keeps.step ?_ (State.modCell_keeps _ _ _)
    | (show Blocks.le _ _ = true; rfl)
    | split

theorem State.starveLimit_keeps (s : State) (c : CellId) :
    Keeps { ltk := true, scc := true, rep := true, clock := true } s (s.starveLimit c) := by
  unfold State.starveLimit
  dsimp only
  repeat' first
    | with_reducible apply Keeps.refl
    | with_reducible apply Keeps.step ?_ (State.expire_keeps _ _)
    | with_reducible apply Keeps.step ?_ (State.modCell_keeps _ _ _)
    | with_reducible apply Keeps.step ?_ (State.noteFault_keeps _ _ _ _)
    | with_reducible apply Keeps.step ?_ (State.abandonRun_keeps _ _ _ _ _)
    | with_reducible apply Keeps.step ?_ (State.cellTo_keeps _ _ _ _ _)
    | with_reducible apply Keeps.step ?_ (State.nextSegment_keeps _ _)
    | (show Blocks.le _ _ = true; rfl)
    | split

theorem State.valveFault_keeps (s : State) (c : CellId) :
    Keeps { ltk := true, scc := true, rep := true } s (s.valveFault c) := by
  unfold State.valveFault
  dsimp only
  repeat' first
    | with_reducible apply Keeps.refl
    | with_reducible apply Keeps.step ?_ (State.noteFault_keeps _ _ _ _)
    | with_reducible apply Keeps.step ?_ (State.faultProgram_keeps _ _ _ _ _ _)
    | with_reducible apply Keeps.step ?_ (State.modCell_keeps _ _ _)
    | with_reducible apply Keeps.step ?_ (State.cellTo_keeps _ _ _ _ _)
    | (show Blocks.le _ _ = true; rfl)
    | split

theorem State.putMode_keeps (s : State) (m : LineMode) (cause : ModeCause) :
    Keeps { rep := true, mode := true } s (s.putMode m cause) := by
  unfold State.putMode
  dsimp only
  repeat' first
    | with_reducible apply Keeps.refl
    | with_reducible apply Keeps.step ?_ (State.queueReport_keeps _ _)
    | with_reducible apply Keeps.step ?_ (Keeps.modeSet _ _)
    | (show Blocks.le _ _ = true; rfl)
    | split

theorem State.trackerMode_keeps (s : State) (m prev : LineMode) :
    Keeps { ltk := true } s (s.trackerMode m prev) := by
  unfold State.trackerMode
  repeat' first
    | with_reducible apply Keeps.refl
    | with_reducible apply Keeps.step ?_ (State.haltMoves_keeps _)
    | with_reducible apply Keeps.step ?_ (State.redriveMoves_keeps _)
    | with_reducible apply Keeps.step ?_ (State.recheckFailed_keeps _)
    | (show Blocks.le _ _ = true; rfl)
    | split

theorem State.headsMode_keeps (s : State) (m : LineMode) :
    Keeps { ine := true } s (s.headsMode m) := by
  unfold State.headsMode
  repeat' first
    | with_reducible apply Keeps.refl
    | with_reducible apply Keeps.step ?_ (State.abandonWalk_keeps _ _)
    | (show Blocks.le _ _ = true; rfl)
    | split

theorem State.cellsMode_keeps (s : State) (m : LineMode) :
    Keeps { ltk := true, scc := true, rep := true } s (s.cellsMode m) := by
  unfold State.cellsMode
  repeat' first
    | with_reducible apply Keeps.refl
    | with_reducible apply Keeps.step ?_ (State.cellStop_keeps _ _)
    | (show Blocks.le _ _ = true; rfl)
    | split

theorem State.cellsEmergency_keeps (s : State) :
    Keeps { ltk := true, scc := true, rep := true } s (s.cellsEmergency) := by
  unfold State.cellsEmergency
  repeat' first
    | with_reducible apply Keeps.refl
    | with_reducible apply Keeps.step ?_ (State.cellEmergency_keeps _ _)
    | (show Blocks.le _ _ = true; rfl)

theorem State.tunnelMode_keeps (s : State) :
    Keeps { ctc := true, rep := true } s (s.tunnelMode) := by
  unfold State.tunnelMode
  repeat' first
    | with_reducible apply Keeps.refl
    | with_reducible apply Keeps.step ?_ (State.deriveLane_keeps _ _ _)
    | with_reducible apply Keeps.step ?_ (State.evalShutter_keeps _)
    | (show Blocks.le _ _ = true; rfl)

theorem State.setMode_keeps (s : State) (m : LineMode) (cause : ModeCause) :
    Keeps { ltk := true, ine := true, scc := true, ctc := true, rep := true, mode := true } s (s.setMode m cause) := by
  unfold State.setMode
  repeat' first
    | with_reducible apply Keeps.refl
    | with_reducible apply Keeps.step ?_ (State.putMode_keeps _ _ _)
    | with_reducible apply Keeps.step ?_ (State.trackerMode_keeps _ _ _)
    | with_reducible apply Keeps.step ?_ (State.headsMode_keeps _ _)
    | with_reducible apply Keeps.step ?_ (State.cellsMode_keeps _ _)
    | with_reducible apply Keeps.step ?_ (State.tunnelMode_keeps _)
    | (show Blocks.le _ _ = true; rfl)
    | split

theorem State.emergency_keeps (s : State) :
    Keeps { ltk := true, ine := true, scc := true, ctc := true, rep := true, mode := true } s (s.emergency) := by
  unfold State.emergency
  repeat' first
    | with_reducible apply Keeps.refl
    | with_reducible apply Keeps.step ?_ (State.cellsEmergency_keeps _)
    | with_reducible apply Keeps.step ?_ (State.putMode_keeps _ _ _)
    | with_reducible apply Keeps.step ?_ (State.trackerMode_keeps _ _ _)
    | with_reducible apply Keeps.step ?_ (State.headsMode_keeps _ _)
    | with_reducible apply Keeps.step ?_ (State.tunnelMode_keeps _)
    | (show Blocks.le _ _ = true; rfl)
    | split

theorem State.estopActive_keeps (s : State) :
    Keeps { ltk := true, ine := true, scc := true, ctc := true, rep := true, mode := true, estop := true } s (s.estopActive) := by
  unfold State.estopActive
  repeat' first
    | with_reducible apply Keeps.refl
    | with_reducible apply Keeps.step ?_ (State.setEstop_keeps _ _)
    | with_reducible apply Keeps.step ?_ (State.emergency_keeps _)
    | (show Blocks.le _ _ = true; rfl)

theorem State.faultMode_keeps (s : State) (code : FaultCode) :
    Keeps { ltk := true, ine := true, scc := true, ctc := true, rep := true, mode := true } s (s.faultMode code) := by
  unfold State.faultMode
  repeat' first
    | with_reducible apply Keeps.refl
    | with_reducible apply Keeps.step ?_ (State.setMode_keeps _ _ _)
    | (show Blocks.le _ _ = true; rfl)
    | split

theorem State.raiseFault_keeps (s : State) (code : FaultCode) (origin : Origin) (detail : FaultDetail) :
    Keeps { ltk := true, ine := true, scc := true, ctc := true, rep := true, mode := true } s (s.raiseFault code origin detail) := by
  unfold State.raiseFault
  repeat' first
    | with_reducible apply Keeps.refl
    | with_reducible apply Keeps.step ?_ (State.noteFault_keeps _ _ _ _)
    | with_reducible apply Keeps.step ?_ (State.faultMode_keeps _ _)
    | (show Blocks.le _ _ = true; rfl)

theorem State.releaseSlot_keeps (s : State) (k : SlotIx) :
    Keeps { rsc := true } s (s.releaseSlot k) := by
  unfold State.releaseSlot
  repeat' first
    | with_reducible apply Keeps.refl
    | with_reducible apply Keeps.step ?_ (State.setSlot_keeps _ _ _)
    | (show Blocks.le _ _ = true; rfl)

theorem State.releaseUse_keeps (s : State) (i : RecIx) :
    Keeps { rsc := true } s (s.releaseUse i) := by
  unfold State.releaseUse
  repeat' first
    | with_reducible apply Keeps.refl
    | with_reducible apply Keeps.step ?_ (State.releaseSlot_keeps _ _)
    | (show Blocks.le _ _ = true; rfl)
    | split

theorem State.dropChecks_keeps (s : State) (i : RecIx) :
    Keeps { ltk := true } s (s.dropChecks i) := by
  unfold State.dropChecks
  repeat' first
    | with_reducible apply Keeps.refl
    | with_reducible apply Keeps.step ?_ (State.setReads_keeps _ _)
    | (show Blocks.le _ _ = true; rfl)

theorem State.dropTakenEntry_keeps (s : State) (i : RecIx) :
    Keeps { ltk := true } s (s.dropTakenEntry i) := by
  unfold State.dropTakenEntry
  repeat' first
    | with_reducible apply Keeps.refl
    | with_reducible apply Keeps.step ?_ (State.setEntry_keeps _ _)
    | (show Blocks.le _ _ = true; rfl)
    | split

theorem State.leaveWetQueue_keeps (s : State) (i : RecIx) :
    Keeps { ctc := true } s (s.leaveWetQueue i) := by
  unfold State.leaveWetQueue
  repeat' first
    | with_reducible apply Keeps.refl
    | (show Blocks.le _ _ = true; rfl)
    | (show (_ : Nat) = _; rfl)
    | with_reducible apply Keeps.step ?_ (Keeps.ctcSet _ _ ?_ ?_)

theorem State.retireTracker_keeps (s : State) (i : RecIx) :
    Keeps { ltk := true } s (s.retireTracker i) := by
  unfold State.retireTracker
  repeat' first
    | with_reducible apply Keeps.refl
    | with_reducible apply Keeps.step ?_ (State.dropMove_keeps _ _)
    | with_reducible apply Keeps.step ?_ (State.dropChecks_keeps _ _)
    | with_reducible apply Keeps.step ?_ (State.dropTakenEntry_keeps _ _)
    | with_reducible apply Keeps.step ?_ (State.dropMarkWrites_keeps _ _)
    | (show Blocks.le _ _ = true; rfl)

theorem State.retireStations_keeps (s : State) (i : RecIx) :
    Keeps { ltk := true, ine := true, scc := true, rep := true } s (s.retireStations i) := by
  unfold State.retireStations
  repeat' first
    | with_reducible apply Keeps.refl
    | with_reducible apply Keeps.step ?_ (State.dropWalks_keeps _ _)
    | with_reducible apply Keeps.step ?_ (State.dropProgram_keeps _ _ _ _ _)
    | with_reducible apply Keeps.step ?_ (State.dropMarks_keeps _ _)
    | (show Blocks.le _ _ = true; rfl)

theorem State.retireTunnel_keeps (s : State) (i : RecIx) :
    Keeps { ltk := true, ctc := true, rep := true } s (s.retireTunnel i) := by
  unfold State.retireTunnel
  repeat' first
    | with_reducible apply Keeps.refl
    | with_reducible apply Keeps.step ?_ (State.dropWaiting_keeps _ _)
    | with_reducible apply Keeps.step ?_ (State.leaveWetQueue_keeps _ _)
    | with_reducible apply Keeps.step ?_ (State.freeExit_keeps _ _)
    | with_reducible apply Keeps.step ?_ (State.unbind_keeps _ _ _)
    | (show Blocks.le _ _ = true; rfl)

theorem State.retireBench_keeps (s : State) (i : RecIx) :
    Keeps { hmg := true } s (s.retireBench i) := by
  unfold State.retireBench
  repeat' first
    | with_reducible apply Keeps.refl
    | with_reducible apply Keeps.step ?_ (State.setQueue_keeps _ _)
    | with_reducible apply Keeps.step ?_ (State.unseat_keeps _ _)
    | (show Blocks.le _ _ = true; rfl)

/-- A record that leaves its pass keeps its limits. -/
theorem State.modRec_keepsOut (s : State) (i : RecIx) (f : CarrierRecord → CarrierRecord) (hf : ∀ r, RecStep r (f r)) :
    Keeps { ltk := true, pass := true } s (s.modRec i f) := by
  unfold State.modRec
  split
  · rename_i r h
    exact s.setRec_keeps i _ fun r' e => ⟨r, h, by cases e; exact hf r⟩
  · exact Keeps.refl _ _

theorem State.retire_keeps (s : State) (i : RecIx) (outcome : DoneOutcome) :
    Keeps { ltk := true, rsc := true, ine := true, scc := true, ctc := true, hmg := true, rep := true, pass := true } s
      (s.retire i outcome) := by
  unfold State.retire
  dsimp only
  repeat' first
    | with_reducible apply Keeps.refl
    | with_reducible apply Keeps.step ?_ (State.retireBench_keeps _ _)
    | with_reducible apply Keeps.step ?_ (State.retireTunnel_keeps _ _)
    | with_reducible apply Keeps.step ?_ (State.retireStations_keeps _ _)
    | with_reducible apply Keeps.step ?_ (State.releaseUse_keeps _ _)
    | with_reducible apply Keeps.step ?_ (State.retireTracker_keeps _ _)
    | with_reducible apply Keeps.step ?_ (State.modRec_keepsOut _ _ _ ?_)
    | (show Blocks.le _ _ = true; rfl)
    | exact fun r ok => ⟨{ ok with historyLive := fun h => (nomatch h) }, le_refl _, le_refl _⟩

theorem State.loading?_some {s : State} {i : RecIx} {r : CarrierRecord} (h : s.loading? i = some r) :
    s.rec? i = some r ∧ r.status = .loading := by
  unfold State.loading? at h
  split at h
  · split at h
    · cases h; exact ⟨‹_›, ‹_›⟩
    · cases h
  · cases h

theorem State.loadSucceeded_keeps (s : State) (i : RecIx) (k : SlotIx) (qualified : Bool) (p : Recipe) :
    Keeps { ltk := true, rsc := true, ine := true, scc := true, ctc := true, hmg := true, rep := true, pass := true } s
      (s.loadSucceeded i k qualified p) := by
  unfold State.loadSucceeded
  split
  · exact Keeps.refl _ _
  · rename_i r hr
    split
    · exact ((s.releaseSlot_keeps k).mono rfl).step (State.retire_keeps _ _ _) rfl
    · refine Keeps.step ((s.setRec_keeps i _ fun r' e => ⟨r, (State.loading?_some hr).1, ?_⟩).mono rfl)
        (State.requestBinding_keeps _ _ _) rfl
      cases e
      have live : r.status.isLive = true := by rw [(State.loading?_some hr).2]; rfl
      exact fun ok => ⟨{ ok with historyLive := fun _ => ok.historyLive live }, le_refl _, le_refl _⟩

theorem State.returnEntry_keeps (s : State) (i : RecIx) :
    Keeps { ltk := true } s (s.returnEntry i) := by
  unfold State.returnEntry
  repeat' first
    | with_reducible apply Keeps.refl
    | with_reducible apply Keeps.step ?_ (State.setEntry_keeps _ _)
    | (show Blocks.le _ _ = true; rfl)
    | split

theorem State.loadFailed_keeps (s : State) (i : RecIx) (why : LoadFailure) :
    Keeps { ltk := true, rsc := true, ine := true, scc := true, ctc := true, hmg := true, rep := true, pass := true } s
      (s.loadFailed i why) := by
  unfold State.loadFailed
  repeat' first
    | with_reducible apply Keeps.refl
    | with_reducible apply Keeps.step ?_ (State.retire_keeps _ _ _)
    | with_reducible apply Keeps.step ?_ (State.returnEntry_keeps _ _)
    | with_reducible apply Keeps.step ?_ (State.dropChecks_keeps _ _)
    | with_reducible apply Keeps.step ?_ (State.setRec_keeps _ _ _ ?_)
    | with_reducible apply Keeps.step ?_ (State.queueReport_keeps _ _)
    | (show Blocks.le _ _ = true; rfl)
    | exact fun _ e => (nomatch e)
    | split

/-- A re-entry of a record that awaits it, up to its write (R10). -/
theorem State.reenter_keeps (s : State) (i : RecIx) (hw : ∀ r, s.rec? i = some r → r.awaitsReentry = true) :
    Keeps { ltk := true, hmg := true } s (s.reenter i) := by
  unfold State.reenter
  split
  · rename_i r hr
    split
    · exact Keeps.refl _ _
    · rename_i d hd
      have ha := hw r hr
      unfold CarrierRecord.awaitsReentry at ha
      simp only [Bool.and_eq_true, decide_eq_true_eq] at ha
      obtain ⟨hact, hh⟩ := ha
      cases eh : r.hold with
      | none => rw [eh] at hh; simp at hh
      | some h =>
        rw [eh] at hh
        simp only [decide_eq_true_eq] at hh
        with_reducible apply Keeps.step ?_ (State.askWrite_keeps _ _ _ _)
        · rfl
        with_reducible apply Keeps.step ?_ (State.dropChecks_keeps _ _)
        · rfl
        with_reducible apply Keeps.step ?_ (State.unseat_keeps _ _)
        · rfl
        refine (State.setRec_keepsPass _ i r _ hr (fun ok => ⟨?_, le_of_eq ?_, le_of_eq ?_⟩) ?_).mono rfl
        · have h1 := ok.disposed h eh hh
          have h2 := ok.historyLive (by rw [hact]; rfl)
          exact
            { passLow := by simp [CarrierRecord.reentered, CarrierRecord.closeHold, eh]
              passHigh := by simp [CarrierRecord.reentered, CarrierRecord.closeHold, eh]; omega
              disposed := by simp [CarrierRecord.reentered, CarrierRecord.closeHold, eh]
              history := by simp [CarrierRecord.reentered, CarrierRecord.closeHold, eh]; omega
              historyLive := by simp [CarrierRecord.reentered, CarrierRecord.closeHold, eh]; omega
              reasons := by simp [CarrierRecord.reentered, CarrierRecord.closeHold, eh]
              thermal := by simpa [CarrierRecord.reentered, CarrierRecord.closeHold, eh] using ok.thermal
              uv := by simpa [CarrierRecord.reentered, CarrierRecord.closeHold, eh] using ok.uv }
        · simp [CarrierRecord.reentered, CarrierRecord.closeHold, eh]
        · simp [CarrierRecord.reentered, CarrierRecord.closeHold, eh]
        · simp [CarrierRecord.reentered, CarrierRecord.closeHold, eh]
  · exact Keeps.refl _ _

/-- The rest of a re-entry of a live record (R10). -/
theorem State.beginPass_keeps (s : State) (i : RecIx) (d : Disposition) :
    Keeps { ltk := true, ctc := true, rep := true } s (s.beginPass i d) := by
  unfold State.beginPass
  split
  · rename_i r p hr hp
    obtain ⟨hr, hl⟩ := State.live?_some hr
    with_reducible apply Keeps.step ?_ (State.requestBinding_keeps _ _ _)
    · rfl
    refine (State.setRec_keepsPass _ i r _ hr (fun ok => ⟨?_, le_of_eq ?_, le_of_eq ?_⟩) fun _ => rfl).mono rfl
    · exact { ok with historyLive := fun _ => ok.historyLive hl }
    · rfl
    · rfl
  · exact Keeps.refl _ _

theorem State.reentryWritten_keeps (s : State) (i : RecIx) (d : Option Disposition) :
    Keeps { ltk := true, ctc := true, rep := true } s (s.reentryWritten i d) := by
  cases d with
  | some d => exact s.beginPass_keeps i d
  | none => exact Keeps.refl _ _

/-- The record that a match as REENTRY names awaits its re-entry (R9). -/
theorem State.matchTag_reentry {s : State} {t : TagRead} {i : RecIx} (h : s.matchTag t = (.reentry, some i)) :
    ∀ r, s.rec? i = some r → r.awaitsReentry = true := by
  unfold State.matchTag at h
  split at h
  · split at h
    · split at h
      · rename_i r hr hc
        cases h
        intro r' hr'
        rw [hr] at hr'
        cases hr'
        exact hc.1
      · cases h
    · cases h
  · split at h <;> cases h

theorem State.takeMatch_keeps (s : State) (t : TagRead) :
    Keeps { ltk := true, hmg := true, rep := true } s (s.takeMatch t) := by
  unfold State.takeMatch
  cases e : s.matchTag t with
  | mk result holder =>
    dsimp only
    have base : ∀ v, Keeps { ltk := true, rep := true } s ((s.setEntry v).queueReport (.loadArrival (some t) result)) :=
      fun v => ((s.setEntry_keeps v).mono rfl).step (State.queueReport_keeps _ _) rfl
    split
    · rename_i i hi
      split at hi
      · rename_i hres
        subst hres
        subst hi
        refine ((base _).mono rfl).trans ((State.reenter_keeps _ i ?_).mono rfl)
        intro r hr
        have tab : ∀ v, ((s.setEntry v).queueReport (.loadArrival (some t) .reentry)).ltk.table = s.ltk.table := fun v => by
          rw [(State.queueReport_keeps _ _).ltk rfl]; rfl
        exact State.matchTag_reentry e r (by unfold State.rec? at hr ⊢; rw [tab] at hr; exact hr)
      · cases hi
    · exact (base _).mono rfl

theorem State.rematch_keeps (s : State) (was : MatchResult) (id : TagId) :
    Keeps { ltk := true, hmg := true, rep := true } s (s.rematch was id) := by
  unfold State.rematch
  repeat' first
    | with_reducible apply Keeps.refl
    | with_reducible apply Keeps.step ?_ (State.takeMatch_keeps _ _)
    | (show Blocks.le _ _ = true; rfl)
    | split

theorem State.completePass_keeps (s : State) (i : RecIx) :
    Keeps { ltk := true, rsc := true, ine := true, scc := true, ctc := true, hmg := true, rep := true, pass := true } s (s.completePass i) := by
  unfold State.completePass
  repeat' first
    | with_reducible apply Keeps.refl
    | with_reducible apply Keeps.step ?_ (State.askWrite_keeps _ _ _ _)
    | with_reducible apply Keeps.step ?_ (State.retire_keeps _ _ _)
    | with_reducible apply Keeps.step ?_ (State.queueReport_keeps _ _)
    | (show Blocks.le _ _ = true; rfl)
    | split

theorem State.arriveBench_keeps (s : State) (n : BenchIx) (i : RecIx) :
    Keeps { ltk := true, rep := true } s (s.arriveBench n i) := by
  unfold State.arriveBench
  split
  · refine ((((s.modHold_keeps i _ fun h => ?_).mono rfl).step (State.askWrite_keeps _ _ _ _) rfl)).step
      (State.holdChanged_keeps _ _ _) rfl
    unfold Hold.toBench
    cases e : h.state <;> exact ⟨fun k => by simp_all, fun k => k⟩
  · exact Keeps.refl _ _

theorem State.checkPassed_keeps (s : State) (i : RecIx) (p : Place) :
    Keeps { ltk := true, rsc := true, ine := true, scc := true, ctc := true, hmg := true, rep := true, pass := true } s (s.checkPassed i p) := by
  unfold State.checkPassed
  dsimp only
  repeat' first
    | with_reducible apply Keeps.refl
    | with_reducible apply Keeps.step ?_ (State.dropRead_keeps _ _)
    | with_reducible apply Keeps.step ?_ (State.modRec_keeps _ _ _ ?_ ?_)
    | with_reducible apply Keeps.step ?_ (State.completePass_keeps _ _)
    | with_reducible apply Keeps.step ?_ (State.arriveBench_keeps _ _ _)
    | (show Blocks.le _ _ = true; rfl)
    | exact fun _ h => h
    | exact fun r ok => ⟨{ ok with }, le_refl _, le_refl _⟩
    | split

theorem State.checkFailed_keeps (s : State) (i : RecIx) (p : Place) :
    Keeps { ltk := true, ine := true, scc := true, ctc := true, rep := true, mode := true } s (s.checkFailed i p) := by
  unfold State.checkFailed
  dsimp only
  repeat' first
    | with_reducible apply Keeps.refl
    | with_reducible apply Keeps.step ?_ (State.dropRead_keeps _ _)
    | with_reducible apply Keeps.step ?_ (State.modRec_keeps _ _ _ ?_ ?_)
    | with_reducible apply Keeps.step ?_ (State.dropWalks_keeps _ _)
    | with_reducible apply Keeps.step ?_ (State.raiseFault_keeps _ _ _ _)
    | (show Blocks.le _ _ = true; rfl)
    | exact fun _ h => h
    | exact fun r ok => ⟨{ ok with }, le_refl _, le_refl _⟩
    | split

theorem State.nextAttempt_keeps (s : State) (p : Place) :
    Keeps { ltk := true } s (s.nextAttempt p) := by
  unfold State.nextAttempt
  repeat' first
    | with_reducible apply Keeps.refl
    | with_reducible apply Keeps.step ?_ (State.setReads_keeps _ _)
    | (show Blocks.le _ _ = true; rfl)
    | split

theorem State.unreadable_keeps (s : State) :
    Keeps { ltk := true, rep := true } s (s.unreadable) := by
  unfold State.unreadable
  repeat' first
    | with_reducible apply Keeps.refl
    | with_reducible apply Keeps.step ?_ (State.dropRead_keeps _ _)
    | with_reducible apply Keeps.step ?_ (State.setEntry_keeps _ _)
    | with_reducible apply Keeps.step ?_ (State.queueReport_keeps _ _)
    | (show Blocks.le _ _ = true; rfl)

theorem State.clearEntry_keeps (s : State) :
    Keeps { ltk := true } s (s.clearEntry) := by
  unfold State.clearEntry
  repeat' first
    | with_reducible apply Keeps.refl
    | with_reducible apply Keeps.step ?_ (State.setEntry_keeps _ _)
    | (show Blocks.le _ _ = true; rfl)
    | split

theorem State.arrivalTold_keeps (s : State) :
    Keeps { ltk := true } s (s.arrivalTold) := by
  unfold State.arrivalTold
  repeat' first
    | with_reducible apply Keeps.refl
    | with_reducible apply Keeps.step ?_ (State.clearEntry_keeps _)
    | (show Blocks.le _ _ = true; rfl)
    | split

theorem State.checkAttempt_keeps (s : State) (i : RecIx) (j : TagReadJob) (result : Option TagRead) :
    Keeps { ltk := true, rsc := true, ine := true, scc := true, ctc := true, hmg := true, rep := true, mode := true, pass := true } s (s.checkAttempt i j result) := by
  unfold State.checkAttempt
  repeat' first
    | with_reducible apply Keeps.refl
    | with_reducible apply Keeps.step ?_ (State.dropRead_keeps _ _)
    | with_reducible apply Keeps.step ?_ (State.checkPassed_keeps _ _ _)
    | with_reducible apply Keeps.step ?_ (State.checkFailed_keeps _ _ _)
    | with_reducible apply Keeps.step ?_ (State.nextAttempt_keeps _ _)
    | (show Blocks.le _ _ = true; rfl)
    | split

theorem State.readEnd_keeps (s : State) (p : Place) (result : Option TagRead) :
    Keeps { ltk := true, rsc := true, ine := true, scc := true, ctc := true, hmg := true, rep := true, mode := true, pass := true } s (s.readEnd p result) := by
  unfold State.readEnd
  repeat' first
    | with_reducible apply Keeps.refl
    | with_reducible apply Keeps.step ?_ (State.dropRead_keeps _ _)
    | with_reducible apply Keeps.step ?_ (State.takeMatch_keeps _ _)
    | with_reducible apply Keeps.step ?_ (State.nextAttempt_keeps _ _)
    | with_reducible apply Keeps.step ?_ (State.unreadable_keeps _)
    | with_reducible apply Keeps.step ?_ (State.arrivalTold_keeps _)
    | with_reducible apply Keeps.step ?_ (State.checkAttempt_keeps _ _ _ _)
    | (show Blocks.le _ _ = true; rfl)
    | split

theorem State.popWrite_keeps (s : State) (p : Place) :
    Keeps { ltk := true } s (s.popWrite p) := by
  unfold State.popWrite
  repeat' first
    | with_reducible apply Keeps.refl
    | with_reducible apply Keeps.step ?_ (State.setWrites_keeps _ _)
    | (show Blocks.le _ _ = true; rfl)

theorem State.entryUnmarked_keeps (s : State) (id : TagId) :
    Keeps { ltk := true } s (s.entryUnmarked id) := by
  unfold State.entryUnmarked
  repeat' first
    | with_reducible apply Keeps.refl
    | with_reducible apply Keeps.step ?_ (State.setEntry_keeps _ _)
    | (show Blocks.le _ _ = true; rfl)
    | split

theorem State.holdMarkEnd_keeps (s : State) (i : RecIx) (live ok : Bool) :
    Keeps { ltk := true, rep := true } s (s.holdMarkEnd i live ok) := by
  unfold State.holdMarkEnd
  repeat' first
    | with_reducible apply Keeps.refl
    | with_reducible apply Keeps.step ?_ (State.modHold_keeps _ _ _ ?_)
    | with_reducible apply Keeps.step ?_ (State.holdChanged_keeps _ _ _)
    | (show Blocks.le _ _ = true; rfl)
    | exact fun h => HoldStep.of_eq rfl rfl
    | split

theorem State.writeDone_keeps (s : State) (why : WriteFor) :
    Keeps { ltk := true, ctc := true, hmg := true, rep := true } s (s.writeDone why) := by
  unfold State.writeDone
  repeat' first
    | with_reducible apply Keeps.refl
    | with_reducible apply Keeps.step ?_ (State.entryUnmarked_keeps _ _)
    | with_reducible apply Keeps.step ?_ (State.rematch_keeps _ _ _)
    | with_reducible apply Keeps.step ?_ (State.holdMarkEnd_keeps _ _ _ _)
    | with_reducible apply Keeps.step ?_ (State.reentryWritten_keeps _ _ _)
    | (show Blocks.le _ _ = true; rfl)
    | split

theorem State.writeFailed_keeps (s : State) (why : WriteFor) :
    Keeps { ltk := true, ctc := true, rep := true } s (s.writeFailed why) := by
  unfold State.writeFailed
  repeat' first
    | with_reducible apply Keeps.refl
    | with_reducible apply Keeps.step ?_ (State.queueReport_keeps _ _)
    | with_reducible apply Keeps.step ?_ (State.holdMarkEnd_keeps _ _ _ _)
    | with_reducible apply Keeps.step ?_ (State.reentryWritten_keeps _ _ _)
    | (show Blocks.le _ _ = true; rfl)
    | split

theorem State.writeEnd_keeps (s : State) (p : Place) (readBack : Option Byte) :
    Keeps { ltk := true, ctc := true, hmg := true, rep := true } s (s.writeEnd p readBack) := by
  unfold State.writeEnd
  dsimp only
  repeat' first
    | with_reducible apply Keeps.refl
    | with_reducible apply Keeps.step ?_ (State.popWrite_keeps _ _)
    | with_reducible apply Keeps.step ?_ (State.writeDone_keeps _ _)
    | with_reducible apply Keeps.step ?_ (State.noteFault_keeps _ _ _ _)
    | with_reducible apply Keeps.step ?_ (State.setWrites_keeps _ _)
    | with_reducible apply Keeps.step ?_ (State.writeFailed_keeps _ _)
    | (show Blocks.le _ _ = true; rfl)
    | split

theorem State.endArrivalRead_keeps (s : State) :
    Keeps { ltk := true, rep := true } s (s.endArrivalRead) := by
  unfold State.endArrivalRead
  repeat' first
    | with_reducible apply Keeps.refl
    | with_reducible apply Keeps.step ?_ (State.queueReport_keeps _ _)
    | (show Blocks.le _ _ = true; rfl)
    | split

theorem State.beginArrival_keeps (s : State) :
    Keeps { ltk := true, rep := true } s (s.beginArrival) := by
  unfold State.beginArrival
  repeat' first
    | with_reducible apply Keeps.refl
    | with_reducible apply Keeps.step ?_ (State.setEntry_keeps _ _)
    | with_reducible apply Keeps.step ?_ (State.startRead_keeps _ _ _)
    | with_reducible apply Keeps.step ?_ (State.endArrivalRead_keeps _)
    | (show Blocks.le _ _ = true; rfl)

theorem State.loadPresent_keeps (s : State) :
    Keeps { ltk := true, rep := true } s (s.loadPresent) := by
  unfold State.loadPresent
  dsimp only
  repeat' first
    | with_reducible apply Keeps.refl
    | with_reducible apply Keeps.step ?_ (State.setSensor_keeps _ _ _)
    | with_reducible apply Keeps.step ?_ (State.beginArrival_keeps _)
    | (show Blocks.le _ _ = true; rfl)
    | split

theorem State.loadClear_keeps (s : State) :
    Keeps { ltk := true } s (s.loadClear) := by
  unfold State.loadClear
  repeat' first
    | with_reducible apply Keeps.refl
    | with_reducible apply Keeps.step ?_ (State.setSensor_keeps _ _ _)
    | with_reducible apply Keeps.step ?_ (State.clearEntry_keeps _)
    | (show Blocks.le _ _ = true; rfl)
    | split

theorem State.sourceClear_keeps (s : State) (p : Place) :
    Keeps { ltk := true } s (s.sourceClear p) := by
  unfold State.sourceClear
  repeat' first
    | with_reducible apply Keeps.refl
    | with_reducible apply Keeps.step ?_ (State.setSensor_keeps _ _ _)
    | (show Blocks.le _ _ = true; rfl)
    | split

theorem State.loseCarrier_keeps (s : State) (i : RecIx) (p : Place) :
    Keeps { ltk := true, ine := true, scc := true, rep := true } s (s.loseCarrier i p) := by
  unfold State.loseCarrier
  dsimp only
  repeat' first
    | with_reducible apply Keeps.refl
    | with_reducible apply Keeps.step ?_ (State.dropWalks_keeps _ _)
    | with_reducible apply Keeps.step ?_ (State.dropProgram_keeps _ _ _ _ _)
    | (show Blocks.le _ _ = true; rfl)
    | split

theorem State.carrierMissing_keeps (s : State) (p : Place) :
    Keeps { ltk := true, ine := true, scc := true, ctc := true, rep := true, mode := true } s (s.carrierMissing p) := by
  unfold State.carrierMissing
  dsimp only
  repeat' first
    | with_reducible apply Keeps.refl
    | with_reducible apply Keeps.step ?_ (State.setSensor_keeps _ _ _)
    | with_reducible apply Keeps.step ?_ (State.dropRead_keeps _ _)
    | with_reducible apply Keeps.step ?_ (State.modRec_keeps _ _ _ ?_ ?_)
    | with_reducible apply Keeps.step ?_ (State.raiseFault_keeps _ _ _ _)
    | with_reducible apply Keeps.step ?_ (State.loseCarrier_keeps _ _ _)
    | (show Blocks.le _ _ = true; rfl)
    | exact fun _ h => h
    | exact fun r ok => ⟨{ ok with }, le_refl _, le_refl _⟩
    | split

theorem State.carrierLifted_keeps (s : State) (p : Place) :
    Keeps { ltk := true, hmg := true, rep := true } s (s.carrierLifted p) := by
  unfold State.carrierLifted
  dsimp only
  repeat' first
    | with_reducible apply Keeps.refl
    | with_reducible apply Keeps.step ?_ (State.setSensor_keeps _ _ _)
    | with_reducible apply Keeps.step ?_ (State.dropRead_keeps _ _)
    | with_reducible apply Keeps.step ?_ (State.modRec_keeps _ _ _ ?_ ?_)
    | with_reducible apply Keeps.step ?_ (State.unseat_keeps _ _)
    | with_reducible apply Keeps.step ?_ (State.holdChanged_keeps _ _ _)
    | (show Blocks.le _ _ = true; rfl)
    | exact fun _ h => h
    | exact fun r ok => ⟨{ ok with }, le_refl _, le_refl _⟩
    | split

theorem State.setBack_keeps (s : State) (p : Place) :
    Keeps { ltk := true, rep := true } s (s.setBack p) := by
  unfold State.setBack
  dsimp only
  repeat' first
    | with_reducible apply Keeps.refl
    | with_reducible apply Keeps.step ?_ (State.setSensor_keeps _ _ _)
    | with_reducible apply Keeps.step ?_ (State.startRead_keeps _ _ _)
    | with_reducible apply Keeps.step ?_ (State.beginArrival_keeps _)
    | (show Blocks.le _ _ = true; rfl)
    | split

theorem State.doneLifted_keeps (s : State) (p : Place) :
    Keeps { ltk := true } s (s.doneLifted p) := by
  unfold State.doneLifted
  repeat' first
    | with_reducible apply Keeps.refl
    | with_reducible apply Keeps.step ?_ (State.loadClear_keeps _)
    | with_reducible apply Keeps.step ?_ (State.setSensor_keeps _ _ _)
    | (show Blocks.le _ _ = true; rfl)
    | split

theorem State.moveBegin_keeps (s : State) (i : RecIx) :
    Keeps { ltk := true, ine := true, scc := true } s (s.moveBegin i) := by
  unfold State.moveBegin
  repeat' first
    | with_reducible apply Keeps.refl
    | with_reducible apply Keeps.step ?_ (State.beginMove_keeps _ _ _ _)
    | (show Blocks.le _ _ = true; rfl)
    | split

theorem State.landMove_keeps (s : State) (i : RecIx) (dst : Place) :
    Keeps { ltk := true } s (s.landMove i dst) := by
  unfold State.landMove
  repeat' first
    | with_reducible apply Keeps.refl
    | with_reducible apply Keeps.step ?_ (State.dropMove_keeps _ _)
    | with_reducible apply Keeps.step ?_ (State.setSensor_keeps _ _ _)
    | with_reducible apply Keeps.step ?_ (State.modRec_keeps _ _ _ ?_ ?_)
    | (show Blocks.le _ _ = true; rfl)
    | exact fun _ h => h
    | exact fun r ok => ⟨{ ok with }, le_refl _, le_refl _⟩

theorem State.settleAt_keeps (s : State) (i : RecIx) (dst : Place) :
    Keeps { ltk := true, ctc := true, hmg := true } s (s.settleAt i dst) := by
  unfold State.settleAt
  repeat' first
    | with_reducible apply Keeps.refl
    | with_reducible apply Keeps.step ?_ (State.startCheck_keeps _ _ _)
    | with_reducible apply Keeps.step ?_ (State.seat_keeps _ _ _)
    | (show Blocks.le _ _ = true; rfl)
    | split
    | (show (_ : Nat) = _; rfl)
    | with_reducible apply Keeps.step ?_ (Keeps.ctcSet _ _ ?_ ?_)

theorem State.moveEnd_keeps (s : State) (i : RecIx) :
    Keeps { ltk := true, ctc := true, hmg := true } s (s.moveEnd i) := by
  unfold State.moveEnd
  repeat' first
    | with_reducible apply Keeps.refl
    | with_reducible apply Keeps.step ?_ (State.landMove_keeps _ _ _)
    | with_reducible apply Keeps.step ?_ (State.modRec_keeps _ _ _ ?_ ?_)
    | with_reducible apply Keeps.step ?_ (State.settleAt_keeps _ _ _)
    | (show Blocks.le _ _ = true; rfl)
    | exact fun _ h => h
    | exact fun r ok => ⟨{ ok with }, le_refl _, le_refl _⟩
    | split

theorem State.moveTimeout_keeps (s : State) (i : RecIx) :
    Keeps { ltk := true, ine := true, scc := true, ctc := true, rep := true, mode := true, clock := true } s (s.moveTimeout i) := by
  unfold State.moveTimeout
  repeat' first
    | with_reducible apply Keeps.refl
    | with_reducible apply Keeps.step ?_ (State.expire_keeps _ _)
    | with_reducible apply Keeps.step ?_ (State.timeOutMove_keeps _ _)
    | with_reducible apply Keeps.step ?_ (State.raiseFault_keeps _ _ _ _)
    | (show Blocks.le _ _ = true; rfl)
    | split

theorem State.benchMoveStart_keeps (s : State) :
    Keeps { ltk := true, ine := true, scc := true, hmg := true } s (s.benchMoveStart) := by
  unfold State.benchMoveStart
  repeat' first
    | with_reducible apply Keeps.refl
    | with_reducible apply Keeps.step ?_ (State.setQueue_keeps _ _)
    | with_reducible apply Keeps.step ?_ (State.beginMove_keeps _ _ _ _)
    | (show Blocks.le _ _ = true; rfl)
    | split

end Sys2Proof.Machine
end

