-- ==== Sys2Proof/Laws/KeepsEvents.lean ====
section
/-! SUPPORT. What each operation can change at most (Laws/Keeps.lean). The store controller, the tunnel's events and the requests. -/

namespace Sys2Proof.Machine

theorem State.popLoad_keeps (s : State) :
    Keeps { rsc := true } s (s.popLoad) := by
  unfold State.popLoad
  repeat' first
    | with_reducible apply Keeps.refl
    | with_reducible apply Keeps.step ?_ (State.modRsc_keeps _ _ ?_)
    | (show Blocks.le _ _ = true; rfl)
    | (show Rsc.hostReq _ = Rsc.hostReq _; rfl)

theorem State.failLoad_keeps (s : State) (k : SlotIx) (recipe : Nat) (why : LoadFailure) :
    Keeps { ltk := true, rsc := true, ine := true, scc := true, ctc := true, hmg := true, rep := true, pass := true } s (s.failLoad k recipe why) := by
  unfold State.failLoad
  dsimp only
  repeat' first
    | with_reducible apply Keeps.refl
    | with_reducible apply Keeps.step ?_ (State.setSlot_keeps _ _ _)
    | with_reducible apply Keeps.step ?_ (State.popLoad_keeps _)
    | with_reducible apply Keeps.step ?_ (State.loadFailed_keeps _ _ _)
    | with_reducible apply Keeps.foldl
    | (show Blocks.le _ _ = true; rfl)
    | (intro t a; dsimp only)
    | intro t a
    | split

theorem State.finishLoad_keeps (s : State) (k : SlotIx) (h : SlotHead) (header : Nat) (p : Recipe) :
    Keeps { ltk := true, rsc := true, ine := true, scc := true, ctc := true, hmg := true, rep := true, pass := true } s (s.finishLoad k h header p) := by
  unfold State.finishLoad
  dsimp only
  repeat' first
    | with_reducible apply Keeps.refl
    | with_reducible apply Keeps.step ?_ (State.setSlot_keeps _ _ _)
    | with_reducible apply Keeps.step ?_ (State.popLoad_keeps _)
    | with_reducible apply Keeps.step ?_ (State.loadSucceeded_keeps _ _ _ _ _)
    | with_reducible apply Keeps.foldl
    | (show Blocks.le _ _ = true; rfl)
    | (intro t a; dsimp only)
    | intro t a
    | split

theorem State.beginLoad_keeps (s : State) (k : SlotIx) (h : SlotHead) :
    Keeps { rsc := true } s (s.beginLoad k h) := by
  unfold State.beginLoad
  dsimp only
  repeat' first
    | with_reducible apply Keeps.refl
    | with_reducible apply Keeps.step ?_ (State.setSlot_keeps _ _ _)
    | with_reducible apply Keeps.step ?_ (State.modRsc_keeps _ _ ?_)
    | (show Blocks.le _ _ = true; rfl)
    | (show Rsc.hostReq _ = Rsc.hostReq _; rfl)
    | split

theorem State.startLoads_keeps (s : State) (x : Nat) :
    Keeps { ltk := true, rsc := true, ine := true, scc := true, ctc := true, hmg := true, rep := true, pass := true } s
      (s.startLoads x) := by
  induction x generalizing s with
  | zero => exact Keeps.refl _ _
  | succ n ih =>
    unfold State.startLoads
    repeat' first
      | with_reducible apply Keeps.refl
      | with_reducible apply Keeps.step ?_ (ih _)
      | with_reducible apply Keeps.step ?_ (State.failLoad_keeps _ _ _ _)
      | with_reducible apply Keeps.step ?_ (State.beginLoad_keeps _ _ _)
      | with_reducible apply Keeps.step ?_ (State.popLoad_keeps _)
      | (show Blocks.le _ _ = true; rfl)
      | split

theorem State.requestLoad_keeps (s : State) (i : RecIx) (recipe : Nat) :
    Keeps { ltk := true, rsc := true, ine := true, scc := true, ctc := true, hmg := true, rep := true, pass := true } s (s.requestLoad i recipe) := by
  unfold State.requestLoad
  repeat' first
    | with_reducible apply Keeps.refl
    | with_reducible apply Keeps.step ?_ (State.setSlot_keeps _ _ _)
    | with_reducible apply Keeps.step ?_ (State.loadSucceeded_keeps _ _ _ _ _)
    | with_reducible apply Keeps.step ?_ (State.modRsc_keeps _ _ ?_)
    | with_reducible apply Keeps.step ?_ (State.startLoads_keeps _ _)
    | with_reducible apply Keeps.step ?_ (State.loadFailed_keeps _ _ _)
    | (show Blocks.le _ _ = true; rfl)
    | (show Rsc.hostReq _ = Rsc.hostReq _; rfl)
    | split

theorem State.addExtents_keeps (s : State) (k : SlotIx) (es : List Extent) :
    Keeps { rsc := true } s (s.addExtents k es) := by
  unfold State.addExtents
  repeat' first
    | with_reducible apply Keeps.refl
    | with_reducible apply Keeps.step ?_ (State.setSlot_keeps _ _ _)
    | (show Blocks.le _ _ = true; rfl)
    | split

theorem State.loaderTakes_keeps (s : State) (bytes : List Byte) :
    Keeps { ltk := true, rsc := true, ine := true, scc := true, ctc := true, hmg := true, rep := true, pass := true } s (s.loaderTakes bytes) := by
  unfold State.loaderTakes
  repeat' first
    | with_reducible apply Keeps.refl
    | with_reducible apply Keeps.step ?_ (State.addExtents_keeps _ _ _)
    | with_reducible apply Keeps.step ?_ (State.modRsc_keeps _ _ ?_)
    | with_reducible apply Keeps.step ?_ (State.finishLoad_keeps _ _ _ _ _)
    | with_reducible apply Keeps.step ?_ (State.startLoads_keeps _ _)
    | with_reducible apply Keeps.step ?_ (State.failLoad_keeps _ _ _ _)
    | (show Blocks.le _ _ = true; rfl)
    | (show Rsc.hostReq _ = Rsc.hostReq _; rfl)
    | split

theorem State.loaderFails_keeps (s : State) :
    Keeps { ltk := true, rsc := true, ine := true, scc := true, ctc := true, hmg := true, rep := true, pass := true } s (s.loaderFails) := by
  unfold State.loaderFails
  repeat' first
    | with_reducible apply Keeps.refl
    | with_reducible apply Keeps.step ?_ (State.failLoad_keeps _ _ _ _)
    | with_reducible apply Keeps.step ?_ (State.startLoads_keeps _ _)
    | (show Blocks.le _ _ = true; rfl)
    | split

theorem State.setHostReq_keeps (s : State) (r : Option HostReq) :
    Keeps { rsc := true, req := true } s (s.setHostReq r) :=
  s.modRsc_keepsReq _

/-- A reply formed. -/
theorem State.reply_keeps (s : State) (k t : Byte) (st : ReplyStatus) (d : List Byte) :
    Keeps { link := true } s (s.reply k t st d) :=
  { Keeps.refl { link := true } s with link := fun h => (nomatch h) }

theorem State.endHostReq_keeps (s : State) (kind tag : Byte) (status : ReplyStatus) (data : List Byte) :
    Keeps { rsc := true, req := true, link := true } s (s.endHostReq kind tag status data) :=
  ((s.setHostReq_keeps none).mono rfl).step (State.reply_keeps _ _ _ _ _) rfl

theorem State.checkTakes_keeps (s : State) (tag : Byte) (w : ChainWalk) (bytes : List Byte) :
    Keeps { rsc := true, req := true, link := true } s (s.checkTakes tag w bytes) := by
  unfold State.checkTakes
  repeat' first
    | with_reducible apply Keeps.refl
    | with_reducible apply Keeps.step ?_ (State.setHostReq_keeps _ _)
    | with_reducible apply Keeps.step ?_ (State.endHostReq_keeps _ _ _ _ _)
    | (show Blocks.le _ _ = true; rfl)
    | split

theorem State.readTakes_keeps (s : State) (tag : Byte) (offset count : Nat) (got : List Byte) :
    Keeps { rsc := true, req := true, link := true } s (s.readTakes tag offset count got) := by
  unfold State.readTakes
  repeat' first
    | with_reducible apply Keeps.refl
    | with_reducible apply Keeps.step ?_ (State.setHostReq_keeps _ _)
    | with_reducible apply Keeps.step ?_ (State.endHostReq_keeps _ _ _ _ _)
    | (show Blocks.le _ _ = true; rfl)
    | split

theorem State.writeLanded_keeps (s : State) (tag : Byte) (offset : Nat) (data : List Byte) :
    Keeps { rsc := true, req := true, link := true } s (s.writeLanded tag offset data) := by
  unfold State.writeLanded
  repeat' first
    | with_reducible apply Keeps.refl
    | with_reducible apply Keeps.step ?_ (State.modRsc_keeps _ _ ?_)
    | with_reducible apply Keeps.step ?_ (State.endHostReq_keeps _ _ _ _ _)
    | (show Blocks.le _ _ = true; rfl)
    | (show Rsc.hostReq _ = Rsc.hostReq _; rfl)

theorem State.writeLost_keeps (s : State) (tag : Byte) (offset : Nat) (data : List Byte) :
    Keeps { rsc := true, req := true, link := true } s (s.writeLost tag offset data) := by
  unfold State.writeLost
  repeat' first
    | with_reducible apply Keeps.refl
    | with_reducible apply Keeps.step ?_ (State.setHostReq_keeps _ _)
    | with_reducible apply Keeps.step ?_ (State.endHostReq_keeps _ _ _ _ _)
    | (show Blocks.le _ _ = true; rfl)
    | split

theorem State.readBackEnd_keeps (s : State) (tag : Byte) (offset : Nat) (bytes : List Byte) :
    Keeps { rsc := true, req := true, link := true } s (s.readBackEnd tag offset bytes) := by
  unfold State.readBackEnd
  repeat' first
    | with_reducible apply Keeps.refl
    | with_reducible apply Keeps.step ?_ (State.modRsc_keeps _ _ ?_)
    | with_reducible apply Keeps.step ?_ (State.endHostReq_keeps _ _ _ _ _)
    | (show Blocks.le _ _ = true; rfl)
    | (show Rsc.hostReq _ = Rsc.hostReq _; rfl)

theorem State.hostTakes_keeps (s : State) (bytes : List Byte) :
    Keeps { rsc := true, req := true, link := true } s (s.hostTakes bytes) := by
  unfold State.hostTakes
  repeat' first
    | with_reducible apply Keeps.refl
    | with_reducible apply Keeps.step ?_ (State.readTakes_keeps _ _ _ _ _)
    | with_reducible apply Keeps.step ?_ (State.checkTakes_keeps _ _ _ _)
    | (show Blocks.le _ _ = true; rfl)
    | split

theorem State.hostFails_keeps (s : State) :
    Keeps { rsc := true, req := true, link := true } s (s.hostFails) := by
  unfold State.hostFails
  repeat' first
    | with_reducible apply Keeps.refl
    | with_reducible apply Keeps.step ?_ (State.endHostReq_keeps _ _ _ _ _)
    | with_reducible apply Keeps.step ?_ (State.writeLost_keeps _ _ _ _)
    | (show Blocks.le _ _ = true; rfl)
    | split

theorem State.setStartUp_keeps (s : State) (u : Option StartUp) :
    Keeps { rsc := true } s (s.setStartUp u) := by
  unfold State.setStartUp
  repeat' first
    | with_reducible apply Keeps.refl
    | with_reducible apply Keeps.step ?_ (State.modRsc_keeps _ _ ?_)
    | (show Blocks.le _ _ = true; rfl)
    | (show Rsc.hostReq _ = Rsc.hostReq _; rfl)

theorem State.endStartUp_keeps (s : State) (config : LiveConfig) :
    Keeps { ltk := true, rsc := true, ine := true, scc := true, ctc := true, rep := true, mode := true } s (s.endStartUp config) := by
  unfold State.endStartUp
  dsimp only
  repeat' first
    | with_reducible apply Keeps.refl
    | with_reducible apply Keeps.step ?_ (State.modRsc_keeps _ _ ?_)
    | with_reducible apply Keeps.step ?_ (State.queueReport_keeps _ _)
    | with_reducible apply Keeps.step ?_ (State.emergency_keeps _)
    | with_reducible apply Keeps.step ?_ (State.beginArrival_keeps _)
    | (show Blocks.le _ _ = true; rfl)
    | (show Rsc.hostReq _ = Rsc.hostReq _; rfl)
    | split

theorem State.takeHeader_keeps (s : State) (u : StartUp) :
    Keeps { ltk := true, rsc := true, ine := true, scc := true, ctc := true, rep := true, mode := true } s (s.takeHeader u) := by
  unfold State.takeHeader
  dsimp only
  repeat' first
    | with_reducible apply Keeps.refl
    | with_reducible apply Keeps.step ?_ (State.modRsc_keeps _ _ ?_)
    | with_reducible apply Keeps.step ?_ (State.endStartUp_keeps _ _)
    | with_reducible apply Keeps.step ?_ (State.setStartUp_keeps _ _)
    | (show Blocks.le _ _ = true; rfl)
    | (show Rsc.hostReq _ = Rsc.hostReq _; rfl)
    | split

theorem State.takeDirectory_keeps (s : State) (u : StartUp) :
    Keeps { ltk := true, rsc := true, ine := true, scc := true, ctc := true, rep := true, mode := true } s (s.takeDirectory u) := by
  unfold State.takeDirectory
  repeat' first
    | with_reducible apply Keeps.refl
    | with_reducible apply Keeps.step ?_ (State.modRsc_keeps _ _ ?_)
    | with_reducible apply Keeps.step ?_ (State.endStartUp_keeps _ _)
    | (show Blocks.le _ _ = true; rfl)
    | (show Rsc.hostReq _ = Rsc.hostReq _; rfl)

theorem State.startUpTakes_keeps (s : State) (bytes : Option (List Byte)) :
    Keeps { ltk := true, rsc := true, ine := true, scc := true, ctc := true, rep := true, mode := true } s (s.startUpTakes bytes) := by
  unfold State.startUpTakes
  dsimp only
  repeat' first
    | with_reducible apply Keeps.refl
    | with_reducible apply Keeps.step ?_ (State.setStartUp_keeps _ _)
    | with_reducible apply Keeps.step ?_ (State.takeDirectory_keeps _ _)
    | with_reducible apply Keeps.step ?_ (State.takeHeader_keeps _ _)
    | (show Blocks.le _ _ = true; rfl)
    | split

theorem State.openPort_keeps (s : State) (who : Requestor) (op : AccessOp) :
    Keeps { rsc := true } s (s.openPort who op) := by
  unfold State.openPort
  repeat' first
    | with_reducible apply Keeps.refl
    | with_reducible apply Keeps.step ?_ (State.modRsc_keeps _ _ ?_)
    | (show Blocks.le _ _ = true; rfl)
    | (show Rsc.hostReq _ = Rsc.hostReq _; rfl)

theorem State.grantFetch_keeps (s : State) (c : CellId) :
    Keeps { ltk := true, rsc := true, scc := true, rep := true } s (s.grantFetch c) := by
  unfold State.grantFetch
  repeat' first
    | with_reducible apply Keeps.refl
    | with_reducible apply Keeps.step ?_ (State.modCell_keeps _ _ _)
    | with_reducible apply Keeps.step ?_ (State.modRsc_keeps _ _ ?_)
    | with_reducible apply Keeps.step ?_ (State.openPort_keeps _ _ _)
    | with_reducible apply Keeps.step ?_ (State.dropProgram_keeps _ _ _ _ _)
    | (show Blocks.le _ _ = true; rfl)
    | (show Rsc.hostReq _ = Rsc.hostReq _; rfl)
    | split

theorem State.grantWrite_keeps (s : State) (tag : Byte) (o : Nat) (data : List Byte) :
    Keeps { rsc := true, req := true, link := true } s (s.grantWrite tag o data) := by
  unfold State.grantWrite
  repeat' first
    | with_reducible apply Keeps.refl
    | with_reducible apply Keeps.step ?_ (State.endHostReq_keeps _ _ _ _ _)
    | with_reducible apply Keeps.step ?_ (State.modRsc_keeps _ _ ?_)
    | with_reducible apply Keeps.step ?_ (State.openPort_keeps _ _ _)
    | (show Blocks.le _ _ = true; rfl)
    | (show Rsc.hostReq _ = Rsc.hostReq _; rfl)
    | split

theorem State.grantHost_keeps (s : State) :
    Keeps { rsc := true, req := true, link := true } s (s.grantHost) := by
  unfold State.grantHost
  dsimp only
  repeat' first
    | with_reducible apply Keeps.refl
    | with_reducible apply Keeps.step ?_ (State.openPort_keeps _ _ _)
    | with_reducible apply Keeps.step ?_ (State.grantWrite_keeps _ _ _ _)
    | (show Blocks.le _ _ = true; rfl)
    | split

theorem State.grantLoader_keeps (s : State) :
    Keeps { rsc := true } s (s.grantLoader) := by
  unfold State.grantLoader
  repeat' first
    | with_reducible apply Keeps.refl
    | with_reducible apply Keeps.step ?_ (State.openPort_keeps _ _ _)
    | (show Blocks.le _ _ = true; rfl)
    | split

theorem State.grantStartUp_keeps (s : State) :
    Keeps { rsc := true } s (s.grantStartUp) := by
  unfold State.grantStartUp
  repeat' first
    | with_reducible apply Keeps.refl
    | with_reducible apply Keeps.step ?_ (State.openPort_keeps _ _ _)
    | (show Blocks.le _ _ = true; rfl)
    | split

theorem State.grant_keeps (s : State) :
    Keeps { ltk := true, rsc := true, req := true, scc := true, rep := true, link := true } s (s.grant) := by
  unfold State.grant
  repeat' first
    | with_reducible apply Keeps.refl
    | with_reducible apply Keeps.step ?_ (State.grantStartUp_keeps _)
    | with_reducible apply Keeps.step ?_ (State.grantFetch_keeps _ _)
    | with_reducible apply Keeps.step ?_ (State.grantHost_keeps _)
    | with_reducible apply Keeps.step ?_ (State.grantLoader_keeps _)
    | (show Blocks.le _ _ = true; rfl)
    | split

theorem State.closePort_keeps (s : State) :
    Keeps { rsc := true } s (s.closePort) := by
  unfold State.closePort
  repeat' first
    | with_reducible apply Keeps.refl
    | with_reducible apply Keeps.step ?_ (State.modRsc_keeps _ _ ?_)
    | (show Blocks.le _ _ = true; rfl)
    | (show Rsc.hostReq _ = Rsc.hostReq _; rfl)

theorem State.handRead_keeps (s : State) (who : Requestor) (bytes : List Byte) :
    Keeps { ltk := true, rsc := true, req := true, ine := true, scc := true, ctc := true, hmg := true, rep := true, link := true, mode := true, pass := true } s (s.handRead who bytes) := by
  unfold State.handRead
  repeat' first
    | with_reducible apply Keeps.refl
    | with_reducible apply Keeps.step ?_ (State.startUpTakes_keeps _ _)
    | with_reducible apply Keeps.step ?_ (State.landFetch_keeps _ _ _)
    | with_reducible apply Keeps.step ?_ (State.readBackEnd_keeps _ _ _ _)
    | with_reducible apply Keeps.step ?_ (State.loaderTakes_keeps _ _)
    | with_reducible apply Keeps.step ?_ (State.hostTakes_keeps _ _)
    | (show Blocks.le _ _ = true; rfl)
    | split

theorem State.handError_keeps (s : State) (who : Requestor) :
    Keeps { ltk := true, rsc := true, req := true, ine := true, scc := true, ctc := true, hmg := true, rep := true, link := true, mode := true, pass := true } s (s.handError who) := by
  unfold State.handError
  dsimp only
  repeat' first
    | with_reducible apply Keeps.refl
    | with_reducible apply Keeps.step ?_ (State.startUpTakes_keeps _ _)
    | with_reducible apply Keeps.step ?_ (State.failFetch_keeps _ _)
    | with_reducible apply Keeps.step ?_ (State.readBackEnd_keeps _ _ _ _)
    | with_reducible apply Keeps.step ?_ (State.loaderFails_keeps _)
    | with_reducible apply Keeps.step ?_ (State.hostFails_keeps _)
    | (show Blocks.le _ _ = true; rfl)
    | split

theorem State.handWrite_keeps (s : State) :
    Keeps { rsc := true, req := true, link := true } s (s.handWrite) := by
  unfold State.handWrite
  repeat' first
    | with_reducible apply Keeps.refl
    | with_reducible apply Keeps.step ?_ (State.writeLanded_keeps _ _ _ _)
    | (show Blocks.le _ _ = true; rfl)
    | split

theorem State.entryStart_keeps (s : State) :
    Keeps { ltk := true, ine := true, scc := true, ctc := true } s (s.entryStart) := by
  unfold State.entryStart
  repeat' first
    | with_reducible apply Keeps.refl
    | with_reducible apply Keeps.step ?_ (State.leaveWetQueue_keeps _ _)
    | with_reducible apply Keeps.step ?_ (State.beginMove_keeps _ _ _ _)
    | (show Blocks.le _ _ = true; rfl)
    | split

theorem State.joinLane_keeps (s : State) (l : LaneId) (i : RecIx) :
    Keeps { ltk := true, ctc := true } s (s.joinLane l i) := by
  unfold State.joinLane
  dsimp only
  repeat' first
    | with_reducible apply Keeps.refl
    | with_reducible apply Keeps.step ?_ (State.dropMove_keeps _ _)
    | with_reducible apply Keeps.step ?_ (State.modRec_keeps _ _ _ ?_ ?_)
    | with_reducible apply Keeps.step ?_ (State.setLane_keeps _ _ _ ?_)
    | (show Blocks.le _ _ = true; rfl)
    | exact fun _ h => h
    | exact fun r ok => ⟨{ ok with }, le_refl _, le_refl _⟩
    | exact fun h => h
    | split

theorem State.enterLane_keeps (s : State) (l : LaneId) (i : RecIx) :
    Keeps { ltk := true, ctc := true, rep := true } s (s.enterLane l i) := by
  unfold State.enterLane
  dsimp only
  repeat' first
    | with_reducible apply Keeps.refl
    | with_reducible apply Keeps.step ?_ (State.joinLane_keeps _ _ _)
    | with_reducible apply Keeps.step ?_ (State.raiseIf_keeps _ _ _ _)
    | with_reducible apply Keeps.step ?_ (State.modRec_keeps _ _ _ ?_ ?_)
    | with_reducible apply Keeps.step ?_ (State.queueReport_keeps _ _)
    | (show Blocks.le _ _ = true; rfl)
    | exact fun _ h => h
    | exact fun r ok => ⟨{ ok with }, le_refl _, le_refl _⟩
    | split

theorem State.laneEntryEnd_keeps (s : State) (l : LaneId) :
    Keeps { ltk := true, ctc := true, rep := true } s (s.laneEntryEnd l) := by
  unfold State.laneEntryEnd
  repeat' first
    | with_reducible apply Keeps.refl
    | with_reducible apply Keeps.step ?_ (State.enterLane_keeps _ _ _)
    | (show Blocks.le _ _ = true; rfl)
    | split

theorem State.advanceLane_keeps (s : State) (l : LaneId) :
    Keeps { ltk := true, ctc := true } s (s.advanceLane l) := by
  unfold State.advanceLane
  dsimp only
  repeat' first
    | with_reducible apply Keeps.refl
    | with_reducible apply Keeps.step ?_ (State.modRec_keeps _ _ _ ?_ ?_)
    | with_reducible apply Keeps.step ?_ (State.setLane_keeps _ _ _ ?_)
    | with_reducible apply Keeps.foldl
    | (show Blocks.le _ _ = true; rfl)
    | exact fun _ h => h
    | exact fun r ok => ⟨{ ok with }, le_refl _, le_refl _⟩
    | exact fun h => h
    | (intro t a; dsimp only)
    | intro t a
    | split

theorem State.exitArrival_keeps (s : State) (l : LaneId) :
    Keeps { ltk := true, ine := true, scc := true, ctc := true, rep := true } s (s.exitArrival l) := by
  unfold State.exitArrival
  dsimp only
  repeat' first
    | with_reducible apply Keeps.refl
    | with_reducible apply Keeps.step ?_ (State.setLane_keeps _ _ _ ?_)
    | with_reducible apply Keeps.step ?_ (State.exitStart_keeps _ _)
    | with_reducible apply Keeps.step ?_ (State.deriveLane_keeps _ _ _)
    | (show Blocks.le _ _ = true; rfl)
    | exact fun h => h
    | split

theorem State.encoderPulse_keeps (s : State) (l : LaneId) :
    Keeps { ltk := true, ine := true, scc := true, ctc := true, rep := true } s (s.encoderPulse l) := by
  unfold State.encoderPulse
  dsimp only
  repeat' first
    | with_reducible apply Keeps.refl
    | with_reducible apply Keeps.step ?_ (State.advanceLane_keeps _ _)
    | with_reducible apply Keeps.step ?_ (State.exitArrival_keeps _ _)
    | (show Blocks.le _ _ = true; rfl)
    | split

theorem uvDoseStep_step (v : Nat) (r : CarrierRecord) : RecStep r (uvDoseStep v r) := by
  unfold uvDoseStep
  split
  · split
    · refine fun ok => ⟨{ ok with uv := ?_ }, le_refl _, ?_⟩
      · simp only [satAdd]; exact Nat.min_le_right _ _
      · have := ok.uv; simp only [satAdd]; omega
    · exact RecStep.refl r
  · exact RecStep.refl r

theorem uvDoseStep_status (v : Nat) (r : CarrierRecord) : (uvDoseStep v r).status = r.status := by
  unfold uvDoseStep
  repeat' split
  all_goals rfl

theorem State.uvDoses_keeps (s : State) : Keeps { ltk := true } s s.uvDoses := by
  unfold State.uvDoses
  exact Keeps.foldl _ (fun t i => t.modLive_keeps i _ (uvDoseStep_step _) fun r h => by
    rw [uvDoseStep_status]; exact h) _ (Keeps.refl _ _)

theorem State.uvSample_keeps (s : State) (raw : Option (BitVec 12)) :
    Keeps { ltk := true, ctc := true, rep := true, clock := true } s (s.uvSample raw) := by
  unfold State.uvSample
  dsimp only
  repeat' first
    | with_reducible apply Keeps.refl
    | with_reducible apply Keeps.step ?_ (State.atTime_keeps _ _)
    | with_reducible apply Keeps.step ?_ (State.lampSample_keeps _)
    | with_reducible apply Keeps.step ?_ (State.uvDoses_keeps _)
    | (show Blocks.le _ _ = true; rfl)
    | split
    | (show (_ : Nat) = _; rfl)
    | with_reducible apply Keeps.step ?_ (Keeps.ctcSet _ _ ?_ ?_)

theorem State.zoneFaults_keeps (s : State) (z : ZoneIx) (old new : ZoneSense) (channel : Option (Fin 8)) :
    Keeps { ltk := true, ine := true, scc := true, ctc := true, rep := true, mode := true } s (s.zoneFaults z old new channel) := by
  unfold State.zoneFaults
  dsimp only
  repeat' first
    | with_reducible apply Keeps.refl
    | with_reducible apply Keeps.step ?_ (State.raiseFault_keeps _ _ _ _)
    | (show Blocks.le _ _ = true; rfl)
    | split

theorem State.sampleZone_keeps (s : State) (adc : Vector (Option Int) 8) (z : ZoneIx) :
    Keeps { ltk := true, ine := true, scc := true, ctc := true, rep := true, mode := true } s (s.sampleZone adc z) := by
  unfold State.sampleZone
  dsimp only
  repeat' first
    | with_reducible apply Keeps.refl
    | with_reducible apply Keeps.step ?_ (State.setZone_keeps _ _ _)
    | with_reducible apply Keeps.step ?_ (State.zoneFaults_keeps _ _ _ _ _)
    | (show Blocks.le _ _ = true; rfl)
    | split

theorem thermalDoseStep_step (rates : List Nat) (zs : Vector ZoneSense 4) (r : CarrierRecord) :
    RecStep r (thermalDoseStep rates zs r) := by
  unfold thermalDoseStep thermalStep
  dsimp only
  repeat' split
  all_goals first
    | exact RecStep.refl r
    | exact fun ok => ⟨{ ok with }, le_refl _, le_refl _⟩
    | (refine fun ok => ⟨{ ok with thermal := ?_ }, ?_, le_refl _⟩
       · simp only [satAdd]; exact Nat.min_le_right _ _
       · have := ok.thermal; simp only [satAdd]; omega)

theorem thermalDoseStep_status (rates : List Nat) (zs : Vector ZoneSense 4) (r : CarrierRecord) :
    (thermalDoseStep rates zs r).status = r.status := by
  unfold thermalDoseStep thermalStep
  dsimp only
  repeat' split
  all_goals rfl

theorem State.thermalDoses_keeps (s : State) : Keeps { ltk := true } s s.thermalDoses := by
  unfold State.thermalDoses
  exact Keeps.foldl _ (fun t i => t.modLive_keeps i _ (thermalDoseStep_step _ _) fun r h => by
    rw [thermalDoseStep_status]; exact h) _ (Keeps.refl _ _)

theorem State.thermalSample_keeps (s : State) (adc : Vector (Option Int) 8) :
    Keeps { ltk := true, ine := true, scc := true, ctc := true, rep := true, mode := true, clock := true } s (s.thermalSample adc) := by
  unfold State.thermalSample
  dsimp only
  repeat' first
    | with_reducible apply Keeps.refl
    | with_reducible apply Keeps.step ?_ (State.atTime_keeps _ _)
    | with_reducible apply Keeps.step ?_ (State.sampleZone_keeps _ _ _)
    | with_reducible apply Keeps.step ?_ (State.thermalDoses_keeps _)
    | with_reducible apply Keeps.foldl
    | (show Blocks.le _ _ = true; rfl)
    | (intro t a; dsimp only)
    | intro t a
    | split
    | (show (_ : Nat) = _; rfl)
    | with_reducible apply Keeps.step ?_ (Keeps.ctcSet _ _ ?_ ?_)

theorem State.warmUpEnd_keeps (s : State) :
    Keeps { ctc := true, rep := true, clock := true } s (s.warmUpEnd) := by
  unfold State.warmUpEnd
  dsimp only
  repeat' first
    | with_reducible apply Keeps.refl
    | with_reducible apply Keeps.step ?_ (State.expire_keeps _ _)
    | with_reducible apply Keeps.step ?_ (State.setLamp_keeps _ _)
    | with_reducible apply Keeps.step ?_ (State.lampTo_keeps _ _ _)
    | (show Blocks.le _ _ = true; rfl)
    | split

theorem State.setBallast_keeps (s : State) (active : Bool) :
    Keeps { ctc := true } s (s.setBallast active) := by
  unfold State.setBallast
  repeat' first
    | with_reducible apply Keeps.refl
    | with_reducible apply Keeps.step ?_ (State.setLamp_keeps _ _)
    | (show Blocks.le _ _ = true; rfl)

theorem State.ballastActive_keeps (s : State) :
    Keeps { ctc := true, rep := true } s (s.ballastActive) := by
  unfold State.ballastActive
  repeat' first
    | with_reducible apply Keeps.refl
    | with_reducible apply Keeps.step ?_ (State.setBallast_keeps _ _)
    | with_reducible apply Keeps.step ?_ (State.takeBallastFault_keeps _)
    | (show Blocks.le _ _ = true; rfl)

theorem State.exitGrant_keeps (s : State) :
    Keeps { ltk := true, ine := true, scc := true, ctc := true, rep := true } s (s.exitGrant) := by
  unfold State.exitGrant
  repeat' first
    | with_reducible apply Keeps.refl
    | with_reducible apply Keeps.step ?_ (State.exitStart_keeps _ _)
    | (show Blocks.le _ _ = true; rfl)
    | split

theorem State.exitEnd_keeps (s : State) :
    Keeps { ltk := true, ctc := true, hmg := true } s (s.exitEnd) := by
  unfold State.exitEnd
  repeat' first
    | with_reducible apply Keeps.refl
    | with_reducible apply Keeps.step ?_ (State.landMove_keeps _ _ _)
    | with_reducible apply Keeps.step ?_ (State.freeExit_keeps _ _)
    | with_reducible apply Keeps.step ?_ (State.settleAt_keeps _ _ _)
    | (show Blocks.le _ _ = true; rfl)
    | split

theorem State.clearLane_keeps (s : State) (l : LaneId) : Keeps { ctc := true, rep := true } s (s.clearLane l) := by
  unfold State.clearLane
  dsimp only
  repeat' first
    | with_reducible apply Keeps.refl
    | with_reducible apply Keeps.step ?_ (State.laneReport_keeps _ _ _)
    | with_reducible apply Keeps.step ?_ (State.setLane_keeps _ _ _ ?_)
    | (show Blocks.le _ _ = true; rfl)
    | exact fun _ => Nat.zero_le _
    | split

theorem State.clearTunnel_keeps (s : State) :
    Keeps { ctc := true, rep := true } s (s.clearTunnel) := by
  unfold State.clearTunnel
  dsimp only
  repeat' first
    | with_reducible apply Keeps.refl
    | with_reducible apply Keeps.step ?_ (State.clearLane_keeps _ _)
    | (show Blocks.le _ _ = true; rfl)
    | split
    | (show (_ : Nat) = _; rfl)
    | with_reducible apply Keeps.step ?_ (Keeps.ctcSet _ _ ?_ ?_)

theorem State.setLine_keeps (s : State) (nearFull lampMin : Nat) :
    Keeps { rsc := true } s (s.setLine nearFull lampMin) := by
  unfold State.setLine
  repeat' first
    | with_reducible apply Keeps.refl
    | with_reducible apply Keeps.step ?_ (State.modRsc_keeps _ _ ?_)
    | (show Blocks.le _ _ = true; rfl)
    | (show Rsc.hostReq _ = Rsc.hostReq _; rfl)

theorem State.instructionRead_keeps (s : State) (i : RecIx) (h : Hold) :
    Keeps { ltk := true, rep := true } s (s.instructionRead i h) := by
  unfold State.instructionRead
  repeat' first
    | with_reducible apply Keeps.refl
    | with_reducible apply Keeps.step ?_ (State.modHold_keeps _ _ _ ?_)
    | with_reducible apply Keeps.step ?_ (State.holdChanged_keeps _ _ _)
    | (show Blocks.le _ _ = true; rfl)
    | exact fun h => HoldStep.of_eq rfl rfl
    | split

theorem State.setClaim_keeps (s : State) (i : RecIx) (c : Option Link) :
    Keeps { ltk := true, rep := true } s (s.setClaim i c) := by
  unfold State.setClaim
  repeat' first
    | with_reducible apply Keeps.refl
    | with_reducible apply Keeps.step ?_ (State.modHold_keeps _ _ _ ?_)
    | with_reducible apply Keeps.step ?_ (State.holdChanged_keeps _ _ _)
    | (show Blocks.le _ _ = true; rfl)
    | exact fun h => HoldStep.of_eq rfl rfl

theorem State.startHoming_keeps (s : State) (c : CellId) :
    Keeps { scc := true, rep := true } s (s.startHoming c) := by
  unfold State.startHoming
  repeat' first
    | with_reducible apply Keeps.refl
    | with_reducible apply Keeps.step ?_ (State.modCell_keeps _ _ _)
    | with_reducible apply Keeps.step ?_ (State.cellTo_keeps _ _ _ _ _)
    | (show Blocks.le _ _ = true; rfl)

end Sys2Proof.Machine
end

