-- ==== Sys2Proof/Laws/Next.lean ====
section
/-! SUPPORT. What a cell does next in its program, and how loads are started: the shared operations against the
rules spelled out in Safety.lean. -/

namespace Sys2Proof.Machine

/-! ## The state of a cell -/

@[simp] theorem State.setCell_setCell (s : State) (c : CellId) (v w : SprayCell) :
    (s.setCell c v).setCell c w = s.setCell c w := by cases c <;> rfl

@[simp] theorem State.setCell_rec? (s : State) (c : CellId) (v : SprayCell) (i : RecIx) :
    (s.setCell c v).rec? i = s.rec? i := by cases c <;> rfl

@[simp] theorem State.setCell_recipeOf (s : State) (c : CellId) (v : SprayCell) (i : RecIx) :
    (s.setCell c v).recipeOf i = s.recipeOf i := by cases c <;> rfl

@[simp] theorem State.setCell_self (s : State) (c : CellId) : s.setCell c (s.cell c) = s := by cases c <;> rfl

@[simp] theorem State.setRec_rec?_self (s : State) (i : RecIx) (r : Option CarrierRecord) :
    (s.setRec i r).rec? i = r := by simp [State.rec?]

theorem State.setRec_self {s : State} {i : RecIx} {r : Option CarrierRecord} (h : s.rec? i = r) : s.setRec i r = s := by
  subst h
  simp [State.setRec, State.rec?]

theorem State.setRec_setCell (s : State) (i : RecIx) (r : Option CarrierRecord) (c : CellId) (v : SprayCell) :
    (s.setCell c v).setRec i r = (s.setRec i r).setCell c v := by cases c <;> rfl

theorem State.modLive_eq {s : State} {i : RecIx} {r : CarrierRecord} (h : s.rec? i = some r) (hl : r.status.isLive = true)
    (f : CarrierRecord → CarrierRecord) : s.modLive i f = s.setRec i (some (f r)) := by
  simp [State.modLive, State.live?, h, hl]

/-! ## A segment's check and values (R67, R68, R92 to R96) -/

theorem segmentEnd_eq_some {g : Segment} {q : GantryPos} : segmentEnd g = some q ↔ EndsAt g q := by
  rcases q with ⟨qx, qy, qz⟩
  unfold segmentEnd EndsAt
  rcases hd : g.dir with _ | d
  · simp
  · cases d <;> simp <;> omega

theorem checkSegment_eq_some {zones : Nat} {g : Segment} {k : SegKind} {q : GantryPos} :
    checkSegment zones g = some (k, q) ↔ PassesByRule zones g k q := by
  unfold checkSegment PassesByRule
  rw [← segmentEnd_eq_some]
  rcases g.kind with _ | k' <;> rcases segmentEnd g with _ | e <;> simp [inTravel]
  constructor
  · rintro ⟨h, rfl, rfl⟩; simp_all
  · rintro ⟨rfl, rfl, h⟩; simp_all

theorem checkSegment_eq_none {zones : Nat} {g : Segment} :
    checkSegment zones g = none ↔ ∀ k q, ¬ PassesByRule zones g k q := by
  simp only [← checkSegment_eq_some]
  rcases checkSegment zones g with _ | ⟨k, q⟩ <;> simp

theorem deratedFlow_eq (m : Material) (g : Segment) : deratedFlow m g = deratedByRule m g := by
  unfold deratedFlow deratedByRule; split <;> split <;> first | rfl | omega

theorem formValues_eq (m : Material) (fmax : Nat) (k : SegKind) (q : GantryPos) (g : Segment) :
    formValues m fmax k q g = formedByRule m fmax k q g := by
  have ht : motionTime g = max (g.len * 100 / g.speed) 2 := by
    unfold motionTime rawMotionTime; split <;> omega
  have hl : usedLead g = if g.len * 100 / g.speed < 2 then 0 else g.lead := rfl
  have hr : usedTrail g = if g.len * 100 / g.speed < 2 then 0 else min g.trail (g.len * 100 / g.speed - 1) := by
    unfold usedTrail; rw [ht]; unfold rawMotionTime; split <;> (try split) <;> omega
  cases k <;> simp [formValues, formedByRule, ht, hl, hr, effectiveFlow, deratedFlow_eq, depositOver]

/-- A segment begun with the valve shut (R75 to R77). -/
theorem State.beginSegment_eq (s : State) (c : CellId) (e : Executing) (hv : (s.cell c).valveOpen = false) :
    s.beginSegment c e = s.setCell c (begunByRule s.now (s.cell c) e) := by
  unfold State.beginSegment State.beginStroke State.beginMotion begunByRule State.modCell State.timer
  by_cases h : (s.cell c).gantry = some ⟨e.seg.x, e.seg.y, e.seg.z⟩
  · by_cases hf : e.feff = 0
    · simp [h, hf, hv, Config.gantryMs]
    · by_cases hl : e.lead = 0 <;> simp [h, hf, hl, Config.gantryMs]
  · simp [h, Config.gantryMs]

theorem State.setCell_setRec_setCell (s : State) (i : RecIx) (r : Option CarrierRecord) (c : CellId) (v w : SprayCell) :
    ((s.setCell c v).setRec i r).setCell c w = (s.setRec i r).setCell c w := by cases c <;> rfl

/-- A segment that comes to execution (R75) is taken as the rules say. -/
theorem State.executeSegment_follows (s : State) (c : CellId) (p : Program) (r : CarrierRecord) (rc : Recipe) (f : Fetched)
    (hr : s.rec? p.ix = some r) (hl : r.status.isLive = true) (hc : s.recipeOf p.ix = some rc)
    (hv : (s.cell c).valveOpen = false) :
    TakenByRule s ((s.setCell c (enteredByRule (s.cell c) f)).executeSegment c p f.index (decodeSegment f.bits)) c p r rc
      f := by
  have hw : (enteredByRule (s.cell c) f).valveOpen = false := by unfold enteredByRule; split <;> exact hv
  have hfc : ∀ w, (s.setCell c w).fmax c = s.fmax c := by cases c <;> intro w <;> rfl
  revert hw
  unfold TakenByRule
  generalize enteredByRule (s.cell c) f = w
  intro hw
  have hz : (s.setCell c w).zoneCount p.ix = rc.zones.length := by simp [State.zoneCount, hc]
  refine ⟨fun k q hp => ⟨fun hrun => ?_, fun z hk hz' hne => ?_⟩, fun hn => ?_⟩
  · unfold State.executeSegment
    rw [hz, checkSegment_eq_some.2 hp, State.setCell_recipeOf, hc]
    have hoff : offRun ((s.setCell c w).cell c).runZone k (decodeSegment f.bits).zone = false := by
      unfold offRun; simp only [State.setCell_cell_self]
      split <;> simp_all
    simp only [hoff, Bool.false_eq_true, if_false]
    unfold State.formSegment
    dsimp only
    have hrz : (if k = .spray then w.runZone.or (some (decodeSegment f.bits).zone) else w.runZone) =
        if k = .spray then some (decodeSegment f.bits).zone else w.runZone := by
      split
      · rcases hz' : w.runZone with _ | z
        · rfl
        · rw [hrun z ‹_› hz']; rfl
      · rfl
    have hclamp : (decide (k = .spray) && flowClamped rc.material ((s.setCell c w).fmax c) (decodeSegment f.bits)) = true ↔
        k = .spray ∧ s.fmax c < deratedByRule rc.material (decodeSegment f.bits) := by
      simp [flowClamped, deratedFlow_eq, hfc]
    by_cases h : k = .spray ∧ s.fmax c < deratedByRule rc.material (decodeSegment f.bits)
    · rw [if_pos h, if_pos (hclamp.2 h), State.modLive_eq (r := r) (by simpa using hr) hl]
      rw [State.beginSegment_eq _ _ _ (by simp [State.modCell, hw])]
      simp only [State.modCell, State.setRec_cell, State.setCell_cell_self, State.setCell_setCell, State.setCell_now,
        State.setRec_now, formValues_eq, hfc, hrz, State.setCell_setRec_setCell]
      rfl
    · rw [if_neg h, if_neg (fun x => h (hclamp.1 x))]
      rw [State.beginSegment_eq _ _ _ (by simp [State.modCell, hw])]
      simp only [State.modCell, State.setCell_cell_self, State.setCell_setCell, State.setCell_now, formValues_eq, hfc, hrz]
  · unfold State.executeSegment
    rw [hz, checkSegment_eq_some.2 hp, State.setCell_recipeOf, hc]
    simp only [State.setCell_cell_self]
    have hoff : offRun w.runZone k (decodeSegment f.bits).zone = true := by simp [offRun, hz', hk, hne]
    rw [if_pos hoff]; rfl
  · unfold State.executeSegment
    rw [hz, checkSegment_eq_none.2 hn]; rfl

/-! ## The end of a program (R85, R100 to R103) -/

@[simp] theorem State.queueReport_rec? (s : State) (b : ReportBody) (i : RecIx) : (s.queueReport b).rec? i = s.rec? i := by
  unfold State.queueReport; split <;> (try split) <;> rfl

@[simp] theorem State.queueReport_recipeOf (s : State) (b : ReportBody) (i : RecIx) :
    (s.queueReport b).recipeOf i = s.recipeOf i := by
  unfold State.queueReport; split <;> (try split) <;> rfl

@[simp] theorem State.queueReport_scc (s : State) (b : ReportBody) : (s.queueReport b).scc = s.scc := by
  unfold State.queueReport; split <;> (try split) <;> rfl

@[simp] theorem State.queueReport_now (s : State) (b : ReportBody) : (s.queueReport b).now = s.now := by
  unfold State.queueReport; split <;> (try split) <;> rfl

theorem State.queueReport_reports (s : State) (b : ReportBody) (h : s.liu.reports.length < 32) :
    (s.queueReport b).liu.reports = s.liu.reports ++ [{ time := s.now, body := b }] := by
  unfold State.queueReport; rw [if_pos (show _ < Config.reportQueueMax from h)]

/-- A raise placed keeps the codes of the list, adds its own while the list has room, and grows the list by one at most. -/
theorem placeReason_codes (code : ReasonCode) (sev : Severity) (now : LineTime) (rs : List Reason) :
    (placeReason code sev now rs).length ≤ rs.length + 1 ∧
    (∀ x ∈ rs, ∃ y ∈ placeReason code sev now rs, y.code = x.code) ∧
    (rs.length < 8 → ∃ y ∈ placeReason code sev now rs, y.code = code) := by
  have hover : ∀ top : Severity, ∀ l : List Reason, (overflowInto top sev l).length = l.length ∧
      ∀ x ∈ l, ∃ y ∈ overflowInto top sev l, y.code = x.code := by
    intro top l
    induction l with
    | nil => exact ⟨rfl, fun x hx => absurd hx (by simp)⟩
    | cons a l ih =>
      unfold overflowInto
      split
      · refine ⟨by simp, fun x hx => ?_⟩
        rcases List.mem_cons.1 hx with rfl | hx
        · exact ⟨_, List.mem_cons_self, rfl⟩
        · exact ⟨x, List.mem_cons_of_mem _ hx, rfl⟩
      · refine ⟨by simp [ih.1], fun x hx => ?_⟩
        rcases List.mem_cons.1 hx with rfl | hx
        · exact ⟨_, List.mem_cons_self, rfl⟩
        · obtain ⟨y, hy, hc⟩ := ih.2 x hx; exact ⟨y, List.mem_cons_of_mem _ hy, hc⟩
  have hcode : ∀ x : Reason, (if x.code = code then x.bump else x).code = x.code := by
    intro x; split <;> rfl
  unfold placeReason
  split
  · rename_i hany
    obtain ⟨x, hx, hxc⟩ := List.any_eq_true.1 hany
    refine ⟨by simp [countListed], fun y hy => ⟨_, List.mem_map.2 ⟨y, hy, rfl⟩, hcode y⟩,
      fun _ => ⟨_, List.mem_map.2 ⟨x, hx, rfl⟩, (hcode x).trans (by simpa using hxc)⟩⟩
  · split
    · exact ⟨by simp, fun x hx => ⟨x, by simp [hx], rfl⟩, fun _ => ⟨_, List.mem_append_right _ List.mem_cons_self, rfl⟩⟩
    · exact ⟨by rw [(hover _ _).1]; omega, (hover _ _).2, fun h => absurd h ‹_›⟩

/-- The codes of a hold part. -/
def holdCodes (h : Option Hold) : List ReasonCode := (h.map fun h => h.reasons.map Reason.code).getD []

theorem mem_holdCodes {h : Option Hold} {code : ReasonCode} :
    code ∈ holdCodes h ↔ ∃ g, h = some g ∧ ∃ z ∈ g.reasons, z.code = code := by
  rcases h with _ | g <;> simp [holdCodes]

/-- What a raise against a live record comes to: only its hold part and the reports change; no code is lost, its own is
there when the list had room. -/
theorem State.raiseCode_spec (s : State) (i : RecIx) (code : ReasonCode) (r : CarrierRecord) (hr : s.rec? i = some r)
    (hl : r.status.isLive = true) :
    ∃ h, (s.raiseCode i code).rec? i = some { r with hold := h } ∧ (s.raiseCode i code).scc = s.scc ∧
      (s.raiseCode i code).now = s.now ∧
      (s.liu.reports.length < 32 → ∃ x, (s.raiseCode i code).liu.reports = s.liu.reports ++ [x]) ∧
      (holdCodes h).length ≤ max ((holdCodes r.hold).length + 1) 2 ∧ (∀ x ∈ holdCodes r.hold, x ∈ holdCodes h) ∧
      ((holdCodes r.hold).length < 8 → code ∈ holdCodes h) := by
  have hlive : s.live? i = some r := by simp [State.live?, hr, hl]
  rcases hh : r.hold with _ | g
  · simp only [State.raiseCode, State.raiseReason, hlive, hh]
    refine ⟨some (newHold code code.severity r.pass s.now), by simp, by simp, by simp, ?_, ?_, by simp [holdCodes], ?_⟩
    · intro h; exact ⟨_, State.queueReport_reports _ _ (by simpa using h)⟩
    · simp only [holdCodes, newHold, newReason]; split <;> simp
    · intro _; simp [holdCodes, newHold, newReason]
  · obtain ⟨h1, h2, h3⟩ := placeReason_codes code code.severity s.now g.reasons
    have hre : (g.raise code code.severity s.now).reasons = placeReason code code.severity s.now g.reasons := by
      unfold Hold.raise; dsimp only; split <;> rfl
    simp only [State.raiseCode, State.raiseReason, hlive, hh]
    refine ⟨some (g.raise code code.severity s.now), by simp, by simp, by simp, ?_, ?_, ?_, ?_⟩
    · intro h; exact ⟨_, State.queueReport_reports _ _ (by simpa using h)⟩
    · simp [holdCodes, hre]; omega
    · intro x hx
      simp only [holdCodes, hre, Option.map_some, Option.getD_some, List.mem_map] at hx ⊢
      obtain ⟨y, hy, rfl⟩ := hx; exact h2 y hy
    · intro hlen
      simp only [holdCodes, hre, Option.map_some, Option.getD_some, List.mem_map, List.length_map] at hlen ⊢
      exact h3 hlen

/-- What a conditional raise comes to. -/
theorem State.raiseIf_spec (s : State) (b : Bool) (i : RecIx) (code : ReasonCode) (r : CarrierRecord)
    (hr : s.rec? i = some r) (hl : r.status.isLive = true) :
    ∃ h, (s.raiseIf b i code).rec? i = some { r with hold := h } ∧ (s.raiseIf b i code).scc = s.scc ∧
      (s.raiseIf b i code).now = s.now ∧
      (s.liu.reports.length < 32 → ∃ l, l.length ≤ 1 ∧ (s.raiseIf b i code).liu.reports = s.liu.reports ++ l) ∧
      (holdCodes h).length ≤ max ((holdCodes r.hold).length + 1) 2 ∧ (∀ x ∈ holdCodes r.hold, x ∈ holdCodes h) ∧
      (b = true → (holdCodes r.hold).length < 8 → code ∈ holdCodes h) := by
  cases b with
  | false => exact ⟨r.hold, hr, rfl, rfl, fun _ => ⟨[], by simp, by simp [State.raiseIf]⟩, by omega, fun _ h => h, nofun⟩
  | true =>
    obtain ⟨h, h1, h2, h3, h4, h5, h6, h7⟩ := s.raiseCode_spec i code r hr hl
    refine ⟨h, h1, h2, h3, fun hlen => ?_, h5, h6, fun _ => h7⟩
    obtain ⟨x, hx⟩ := h4 hlen
    exact ⟨[x], by simp, hx⟩

/-- The film reasons raised (R103). -/
theorem State.raiseFilm_spec (s : State) (i : RecIx) (r : CarrierRecord) (hr : s.rec? i = some r)
    (hl : r.status.isLive = true) :
    ∃ h, (s.raiseFilm i).rec? i = some { r with hold := h } ∧ (s.raiseFilm i).scc = s.scc ∧ (s.raiseFilm i).now = s.now ∧
      (s.liu.reports.length < 24 → ∃ l, l.length ≤ 3 ∧ (s.raiseFilm i).liu.reports = s.liu.reports ++ l) ∧
      ((holdCodes r.hold).length ≤ 5 →
        ∀ x y, (x, y) ∈ [(ZoneVerdict.unknown, ReasonCode.filmUnknown), (.low, .filmLow), (.high, .filmHigh)] →
          (∃ q ∈ r.zones, q.verdict = x) → y ∈ holdCodes h) := by
  have hlive : s.live? i = some r := by simp [State.live?, hr, hl]
  unfold State.raiseFilm
  rw [hlive]
  dsimp only
  obtain ⟨a, a1, a2, a3, a4, a5, a6, a7⟩ := s.raiseIf_spec (r.anyZone .unknown) i .filmUnknown r hr hl
  obtain ⟨b, b1, b2, b3, b4, b5, b6, b7⟩ := State.raiseIf_spec _ (r.anyZone .low) i .filmLow _ a1 hl
  obtain ⟨d, d1, d2, d3, d4, d5, d6, d7⟩ := State.raiseIf_spec _ (r.anyZone .high) i .filmHigh _ b1 hl
  refine ⟨d, d1, d2.trans (b2.trans a2), d3.trans (b3.trans a3), fun hlen => ?_, fun hlen x y hxy hq => ?_⟩
  · obtain ⟨l, hl1, hl2⟩ := a4 (by omega)
    obtain ⟨m, hm1, hm2⟩ := b4 (by rw [hl2]; simp; omega)
    obtain ⟨n, hn1, hn2⟩ := d4 (by rw [hm2, hl2]; simp; omega)
    exact ⟨l ++ m ++ n, by simp; omega, by rw [hn2, hm2, hl2]; simp⟩
  · have hany : ∀ v, (∃ q ∈ r.zones, q.verdict = v) → r.anyZone v = true := by
      rintro v ⟨q, hq, rfl⟩; simp only [CarrierRecord.anyZone, List.any_eq_true]; exact ⟨q, hq, by simp⟩
    simp only [List.mem_cons, Prod.mk.injEq, List.not_mem_nil, or_false] at hxy
    have ha : (holdCodes a).length ≤ 6 := a5.trans (max_le (Nat.succ_le_succ hlen) (by decide))
    have hb : (holdCodes b).length ≤ 7 := b5.trans (max_le (Nat.succ_le_succ ha) (by decide))
    rcases hxy with ⟨rfl, rfl⟩ | ⟨rfl, rfl⟩ | ⟨rfl, rfl⟩
    · exact d6 _ (b6 _ (a7 (hany _ hq) (Nat.lt_of_le_of_lt hlen (by decide))))
    · exact d6 _ (b7 (hany _ hq) (Nat.lt_of_le_of_lt ha (by decide)))
    · exact d7 (hany _ hq) (Nat.lt_of_le_of_lt hb (by decide))

@[simp] theorem State.queueReport_cell (s : State) (b : ReportBody) (c : CellId) : (s.queueReport b).cell c = s.cell c := by
  cases c <;> simp [State.cell]

theorem State.cellTo_cell (s : State) (c : CellId) (st : CellState) (why : CellCause) (i : Option RecIx) :
    (s.cellTo c st why i).cell c = { s.cell c with state := st } := by
  unfold State.cellTo State.modCell
  dsimp only
  split
  · simp
  · simp

theorem State.cellTo_rec? (s : State) (c : CellId) (st : CellState) (why : CellCause) (i : Option RecIx) (j : RecIx) :
    (s.cellTo c st why i).rec? j = s.rec? j := by
  unfold State.cellTo State.modCell
  dsimp only
  split <;> simp

theorem State.cellTo_reports (s : State) (c : CellId) (st : CellState) (why : CellCause) (i : Option RecIx)
    (h : s.liu.reports.length < 32) : ∃ l, (s.cellTo c st why i).liu.reports = s.liu.reports ++ l := by
  unfold State.cellTo State.modCell
  dsimp only
  split
  · refine ⟨[{ time := s.now, body := .cellState c st why i }], ?_⟩
    rw [State.queueReport_reports _ _ (by simpa using h)]
    simp
  · exact ⟨[], by simp⟩

/-- The plan of a live record tells whether its spraying of the pass ends (R84, R85). -/
theorem State.lastProgram_iff {s : State} {i : RecIx} {r : CarrierRecord} (hr : s.rec? i = some r)
    (hl : r.status.isLive = true) : s.lastProgram i = true ↔ NoCellLeft r := by
  have hlive : s.live? i = some r := by simp [State.live?, hr, hl]
  simp only [State.lastProgram, hlive, NoCellLeft, Bool.not_eq_true', List.any_eq_false]
  constructor
  · intro h; exact ⟨fun x => h _ x rfl, fun x => h _ x rfl⟩
  · rintro ⟨ha, hb⟩ x hx; cases x <;> simp_all [RouteEntry.isCell]

theorem evalZone_eq (q : ZoneEntry) (w : ZoneSpec) : evalZone q w = zoneByRule q.acc q.abandoned w := rfl

/-- The film evaluation of a live record (R100 to R103). -/
theorem State.evaluateFilm_spec (s : State) (i : RecIx) (r : CarrierRecord) (rc : Recipe) (hr : s.rec? i = some r)
    (hl : r.status.isLive = true) (hc : s.recipeOf i = some rc) :
    let zones := List.zipWith (fun q w => zoneByRule q.acc q.abandoned w) r.zones rc.zones
    ∃ h, (s.evaluateFilm i).rec? i = some { r with zones := zones, hold := h } ∧ (s.evaluateFilm i).scc = s.scc ∧
      (s.evaluateFilm i).now = s.now ∧
      (s.liu.reports.length < 24 → ∃ l, l.length ≤ 3 ∧ (s.evaluateFilm i).liu.reports = s.liu.reports ++ l) ∧
      ((holdCodes r.hold).length ≤ 5 →
        ∀ x y, (x, y) ∈ [(ZoneVerdict.unknown, ReasonCode.filmUnknown), (.low, .filmLow), (.high, .filmHigh)] →
          (∃ q ∈ zones, q.verdict = x) → y ∈ holdCodes h) := by
  dsimp only
  simp only [State.evaluateFilm, hc]
  rw [State.modLive_eq hr hl]
  exact State.raiseFilm_spec _ i { r with zones := evalZones r.zones rc.zones } (by simp) hl

/-- The end of a program (R85). -/
theorem State.endProgram_follows (s : State) (c : CellId) (p : Program) (r : CarrierRecord) (rc : Recipe)
    (hr : s.rec? p.ix = some r) (hl : r.status.isLive = true) (hc : s.recipeOf p.ix = some rc) :
    EndedByRule s (s.endProgram c p) c p r rc := by
  have hcodes : (∀ h, r.hold = some h → h.reasons.length ≤ 5) → (holdCodes r.hold).length ≤ 5 := by
    intro h; rcases hh : r.hold with _ | g
    · simp [holdCodes]
    · simpa [holdCodes] using h g hh
  -- the state before the film evaluation
  obtain ⟨s₁, hs₁⟩ : ∃ s₁, s₁ = ((s.modCell c SprayCell.emptied).markRun c p.ix p.pass) := ⟨_, rfl⟩
  have hlive : (s.modCell c SprayCell.emptied).live? p.ix = some r := by simp [State.modCell, State.live?, hr, hl]
  have hcell₁ : s₁.cell c = { (s.cell c).emptied with runMark := some { ix := p.ix, pass := p.pass } } := by
    rw [hs₁]; unfold State.markRun; rw [hlive]; simp [State.modCell]
  have hr₁ : s₁.rec? p.ix = some r := by rw [hs₁]; simp [State.markRun, State.modCell, hr]
  have hc₁ : s₁.recipeOf p.ix = some rc := by rw [hs₁]; simp [State.markRun, State.modCell, hc]
  have hn₁ : s₁.now = s.now := by rw [hs₁]; simp [State.markRun, State.modCell]
  have hl₁ : s₁.liu = s.liu := by rw [hs₁]; simp [State.markRun, State.modCell]
  -- the state after it
  obtain ⟨n₀, hn₀⟩ : ∃ n, n = (s.modCell c SprayCell.emptied).now := ⟨_, rfl⟩
  have hn : n₀ = s.now := by rw [hn₀]; simp [State.modCell]
  obtain ⟨last, hlast⟩ : ∃ last, last = s₁.lastProgram p.ix := ⟨_, rfl⟩
  obtain ⟨s₂, hs₂⟩ : ∃ s₂, s₂ = if last then (s₁.modLive p.ix fun r => { r with sprayEnd := some n₀ }).evaluateFilm p.ix
    else s₁ := ⟨_, rfl⟩
  have hiff : last = true ↔ NoCellLeft r := hlast ▸ State.lastProgram_iff hr₁ hl
  have key : s₂.cell c = s₁.cell c ∧ s₂.now = s.now ∧
      (s.liu.reports.length < 24 → ∃ l, l.length ≤ 3 ∧ s₂.liu.reports = s.liu.reports ++ l) ∧
      ∃ r', s₂.rec? p.ix = some r' ∧
        (NoCellLeft r → r'.sprayEnd = some s.now ∧
          r'.zones = List.zipWith (fun q w => zoneByRule q.acc q.abandoned w) r.zones rc.zones ∧
          ((∀ h, r.hold = some h → h.reasons.length ≤ 5) →
            ∀ x y, (x, y) ∈ [(ZoneVerdict.unknown, ReasonCode.filmUnknown), (.low, .filmLow), (.high, .filmHigh)] →
              (∃ q ∈ r'.zones, q.verdict = x) → ∃ h, r'.hold = some h ∧ ∃ z ∈ h.reasons, z.code = y)) ∧
        (¬ NoCellLeft r → r'.sprayEnd = r.sprayEnd ∧ r'.zones = r.zones) := by
    rw [hs₂]
    by_cases hb : last = true
    · rw [if_pos hb, State.modLive_eq hr₁ hl]
      obtain ⟨h, e1, e2, e3, e4, e5⟩ := State.evaluateFilm_spec
        (s₁.setRec p.ix (some { r with sprayEnd := some n₀ })) p.ix { r with sprayEnd := some n₀ } rc (by simp) hl
        (by simpa [State.recipeOf, hr₁] using hc₁)
      refine ⟨?_, e3.trans hn₁, fun hlen => ?_, _, e1, fun _ => ⟨by simp [hn], rfl, fun h5 x y hxy hq => ?_⟩,
        fun hno => absurd (hiff.1 hb) hno⟩
      · cases c <;> simp [State.cell, e2]
      · obtain ⟨l, hl3, hle⟩ := e4 (by simpa [hl₁] using hlen)
        exact ⟨l, hl3, by rw [hle]; simp [hl₁]⟩
      · exact mem_holdCodes.1 (e5 (hcodes h5) x y hxy hq)
    · rw [if_neg hb]
      exact ⟨rfl, hn₁, fun _ => ⟨[], by simp, by simp [hl₁]⟩, r, hr₁, fun h => absurd (hiff.2 h) hb, fun _ => ⟨rfl, rfl⟩⟩
  obtain ⟨k1, k2, k3, r', k4, k5, k6⟩ := key
  -- the end
  have hend : s.endProgram c p = ((s₂.queueReport (.sprayDone
      { cell := c, ix := p.ix, pass := p.pass, outcome := .completed, fault := none, counts := (s₂.cell c).counts
        evaluated := last, sprayEnd := if last then some n₀ else none })).modCell c fun v =>
          { v.stopTimers with program := none, runZone := none, skip := false }).cellTo c .ready .programEnd
            (some p.ix) := by
    rw [hs₂, hlast, hs₁, hn₀]
    rfl
  have hcell : (s.endProgram c p).cell c =
      { ({ (s.cell c).emptied with runMark := some { ix := p.ix, pass := p.pass } } : SprayCell).stopTimers with
        program := none, runZone := none, skip := false, state := .ready } := by
    rw [hend, State.cellTo_cell]
    simp [State.modCell, k1, hcell₁]
  have hrec : (s.endProgram c p).rec? p.ix = some r' := by rw [hend, State.cellTo_rec?]; simp [State.modCell, k4]
  refine ⟨by rw [hcell], by rw [hcell], by rw [hcell]; rfl, fun k => ?_, by rw [hcell]; rfl, by rw [hcell]; rfl,
    by rw [hcell]; rfl, ⟨r', hrec, k5, fun h => k6 h⟩, fun hlen => ?_⟩
  · rw [hcell]; simp [SprayCell.emptied, SprayCell.stopTimers]
  · obtain ⟨l, hl3, hle⟩ := k3 hlen
    refine ⟨{ cell := c, ix := p.ix, pass := p.pass, outcome := .completed, fault := none, counts := (s₂.cell c).counts
              evaluated := last, sprayEnd := if last then some n₀ else none }, ?_, rfl, rfl, rfl, rfl, fun h => ?_, fun h => ?_⟩
    · have hq := State.queueReport_reports s₂ (.sprayDone
        { cell := c, ix := p.ix, pass := p.pass, outcome := .completed, fault := none, counts := (s₂.cell c).counts
          evaluated := last, sprayEnd := if last then some n₀ else none }) (by rw [hle]; simp; omega)
      rw [hend]
      obtain ⟨m, hm⟩ := State.cellTo_reports ((s₂.queueReport (.sprayDone
        { cell := c, ix := p.ix, pass := p.pass, outcome := .completed, fault := none, counts := (s₂.cell c).counts
          evaluated := last, sprayEnd := if last then some n₀ else none })).modCell c fun v =>
            { v.stopTimers with program := none, runZone := none, skip := false }) c .ready .programEnd (some p.ix)
        (by simp only [State.modCell, State.setCell_liu]; rw [hq, hle]; simp; omega)
      rw [hm]
      simp only [State.modCell, State.setCell_liu]
      rw [hq, hle, k2]
      simp
    · have := hiff.2 h; simp [this, hn]
    · have : ¬ last = true := fun x => h (hiff.1 x)
      simp [this]

/-! ## The next segment (R75, R80, R81, R85) -/

/-- The full slots of a buffer. -/
def fullSlots (b : Vector (Option Fetched) 4) : Nat := b.countP Option.isSome

theorem fullSlots_le (b : Vector (Option Fetched) 4) : fullSlots b ≤ 4 := Vector.countP_le_size

theorem fullSlots_set {b : Vector (Option Fetched) 4} {k : Fin 4} {f : Fetched} (h : b[k] = some f) :
    fullSlots (b.set k none) + 1 = fullSlots b := by
  have hpos : 0 < fullSlots b := Vector.countP_pos_iff.2 ⟨b[k], Vector.getElem_mem _, by simp [h]⟩
  have h' : b[k.val] = some f := h
  have := Vector.countP_set (p := Option.isSome) (xs := b) (i := k.val) (a := none) k.isLt
  unfold fullSlots at hpos ⊢
  simp [h'] at this
  omega

theorem modify_eq_mapIdx {α : Type} (l : List α) (z : Nat) (f : α → α) :
    l.modify z f = l.mapIdx fun k q => if k = z then f q else q := by
  apply List.ext_getElem?
  intro n
  simp [List.getElem?_modify, List.getElem?_mapIdx]
  rcases l[n]? with _ | q <;> simp
  by_cases h : n = z <;> simp [h, eq_comm]
  intro h'; exact absurd h'.symm h

/-- A discarded segment (R81). -/
theorem State.discardSegment_eq (s : State) (c : CellId) (p : Program) (r : CarrierRecord) (rc : Recipe) (f : Fetched)
    (hp : (s.cell c).program = some p) (hr : s.rec? p.ix = some r) (hl : r.status.isLive = true)
    (hc : s.recipeOf p.ix = some rc) :
    s.discardSegment c p.ix (decodeSegment f.bits) = discardedByRule s c p r rc f := by
  unfold State.discardSegment discardedByRule
  have hz : s.zoneCount p.ix = rc.zones.length := by simp [State.zoneCount, hc]
  rw [hz]
  dsimp only
  generalize (if (s.cell c).runZone = none ∧ (decodeSegment f.bits).kind = some SegKind.spray ∧
    (decodeSegment f.bits).zone < rc.zones.length then some (decodeSegment f.bits).zone else none) = z
  rcases z with _ | z
  · have : r.zones.mapIdx (fun k q => { q with abandoned := q.abandoned || decide ((none : Option Nat) = some k) }) =
        r.zones := by
      apply List.ext_getElem? ; intro n
      simp [List.getElem?_mapIdx]
    rw [this, State.setRec_self hr]
    simp [State.flagZone?, State.modCell, SprayCell.freeSlot, hp, bump16, satInc, satAdd]
  · have : r.zones.mapIdx (fun k q => { q with abandoned := q.abandoned || decide (some z = some k) }) =
        r.zones.modify z fun e => { e with abandoned := true } := by
      rw [modify_eq_mapIdx]; congr 1; funext k q
      by_cases h : k = z
      · simp [h]
      · have h' : ¬ z = k := fun x => h x.symm
        simp [h, h']
    rw [this]
    simp only [State.flagZone?, State.flagZone, State.modCell]
    rw [State.modLive_eq (r := r) (by simpa using hr) hl, State.setRec_setCell]
    simp [modZone, SprayCell.freeSlot, hp, bump16, satInc, satAdd]

/-- What a RUNNING cell does next (R75, R80 to R82, R85). -/
theorem State.bringNext_follows (c : CellId) (rc : Recipe) (fuel : Nat) :
    ∀ (s : State) (p : Program) (r : CarrierRecord), (s.cell c).program = some p → s.rec? p.ix = some r →
      r.status.isLive = true → s.recipeOf p.ix = some rc → (s.cell c).valveOpen = false → (s.cell c).state = .running →
      fullSlots (s.cell c).buffer < fuel → NextByRule c rc s (s.bringNext c fuel) := by
  induction fuel with
  | zero => intro s p r _ _ _ _ _ _ h; omega
  | succ fuel ih =>
    intro s p r hp hr hl hc hv hst hfuel
    unfold State.bringNext
    simp only [hp]
    rcases hb : (s.cell c).buffer[(s.cell c).exec] with _ | f
    · simp only
      by_cases hle : p.count ≤ p.next
      · rw [if_pos hle]; exact .ends hp hr hb hle (State.endProgram_follows s c p r rc hr hl hc)
      · rw [if_neg hle]
        by_cases hs : (s.cell c).skip = true
        · rw [if_pos hs]; exact .awaits hp hb (by omega) hs
        · rw [if_neg hs]
          have : s.starve c p.ix = starvedByRule s c p r := by
            unfold State.starve starvedByRule State.cellTo
            rw [State.modLive_eq hr hl]
            simp [State.modCell, CellState.reported, CellState.working, hst, State.timer, Config.starveMs, bump16, satInc,
              satAdd]
          rw [this]
          exact .starves hp hr hb (by omega) (by simpa using hs)
    · simp only
      have hent : (if ((decodeSegment f.bits).runStart = true ∧ f.index ≠ 0) then s.modCell c SprayCell.newRun else s) =
          s.setCell c (enteredByRule (s.cell c) f) := by
        unfold enteredByRule; split
        · rfl
        · exact (State.setCell_self s c).symm
      rw [hent]
      by_cases hk : ((s.setCell c (enteredByRule (s.cell c) f)).cell c).skip = true
      · rw [if_pos hk]
        rw [State.setCell_cell_self] at hk
        have hrun : ¬ BeginsRun f := by
          rintro ⟨h, h'⟩; simp [enteredByRule, h, h'] at hk
        have hw : enteredByRule (s.cell c) f = s.cell c := by unfold enteredByRule; exact if_neg hrun
        rw [hw] at hk ⊢
        rw [State.setCell_self, State.discardSegment_eq s c p r rc f hp hr hl hc]
        refine .discards hp hr hb hk hrun ?_
        unfold discardedByRule
        refine ih _ { p with next := p.next + 1 } _ (by simp)
          ((State.setCell_rec? _ _ _ _).trans (State.setRec_rec?_self _ _ _)) hl ?_ (by simpa using hv) (by simpa using hst) ?_
        · simpa [State.recipeOf, hr] using hc
        · have := fullSlots_set hb
          simp only [State.setCell_cell_self]
          omega
      · rw [if_neg hk]
        refine .takes hp hr hb ?_ (State.executeSegment_follows s c p r rc f hr hl hc hv)
        rw [State.setCell_cell_self] at hk
        unfold enteredByRule at hk
        split at hk
        · exact .inr ‹_›
        · exact .inl (by simpa using hk)

/-- What a RUNNING cell does next, with its program's record live and its valve shut. -/
theorem State.nextSegment_follows (s : State) (c : CellId) (p : Program) (r : CarrierRecord) (rc : Recipe)
    (hp : (s.cell c).program = some p) (hr : s.rec? p.ix = some r) (hl : r.status.isLive = true)
    (hc : s.recipeOf p.ix = some rc) (hv : (s.cell c).valveOpen = false) (hst : (s.cell c).state = .running) :
    NextByRule c rc s (s.nextSegment c) :=
  State.bringNext_follows c rc 6 s p r hp hr hl hc hv hst (Nat.lt_of_le_of_lt (fullSlots_le _) (by decide))

/-! ## The load list (R38) -/

/-- No record that waits for its load is to be removed. -/
def State.NoneRemoved (s : State) : Prop :=
  ∀ j q, s.rec? j = some q → q.status = .loading → q.removalPending = false

/-- A state's records are those of another, but for some that are FREE. -/
def State.SomeFreed (s u : State) : Prop := ∀ j, u.rec? j = s.rec? j ∨ u.rec? j = none

theorem State.SomeFreed.noneRemoved {s u : State} (h : s.SomeFreed u) (hn : s.NoneRemoved) : u.NoneRemoved := by
  intro j q hj hq
  rcases h j with h | h
  · exact hn j q (h ▸ hj) hq
  · rw [hj] at h; cases h

theorem State.SomeFreed.trans {s t u : State} (h : s.SomeFreed t) (h' : t.SomeFreed u) : s.SomeFreed u := by
  intro j
  rcases h' j with e | e
  · rw [e]; exact h j
  · exact .inr e

theorem State.loading?_eq_some {s : State} {i : RecIx} {r : CarrierRecord} :
    s.loading? i = some r ↔ s.rec? i = some r ∧ r.status = .loading := by
  unfold State.loading?
  split
  · rename_i q hq
    split <;> simp_all
    · rintro rfl; assumption
    · rintro rfl; assumption
  · simp_all

theorem State.returnEntry_rec? (s : State) (i j : RecIx) : (s.returnEntry i).rec? j = s.rec? j := by
  unfold State.returnEntry
  split <;> (try split) <;> rfl

@[simp] theorem State.queueReport_rsc (s : State) (b : ReportBody) : (s.queueReport b).rsc = s.rsc := by
  unfold State.queueReport; split <;> (try split) <;> rfl

theorem State.returnEntry_rsc (s : State) (i : RecIx) : (s.returnEntry i).rsc = s.rsc := by
  unfold State.returnEntry
  split <;> (try split) <;> rfl

theorem State.setRec_rec?_of_ne (s : State) {i j : RecIx} (h : j ≠ i) (r : Option CarrierRecord) :
    (s.setRec i r).rec? j = s.rec? j := by
  simp [State.setRec, State.rec?, Ne.symm (mt Fin.ext h)]

/-- A failed load frees the record that it concerns; the other records and the store controller stay as they are (R13). -/
theorem State.loadFailed_frees (s : State) (i : RecIx) (why : LoadFailure) (hn : s.NoneRemoved) :
    (s.loadFailed i why).rsc = s.rsc ∧ s.SomeFreed (s.loadFailed i why) ∧
      ∀ r, s.loading? i = some r → (s.loadFailed i why).rec? i = none := by
  unfold State.loadFailed
  split
  · exact ⟨rfl, fun _ => .inl rfl, by simp_all⟩
  · rename_i r hr
    rw [if_neg (by simp [hn i r (State.loading?_eq_some.1 hr).1 (State.loading?_eq_some.1 hr).2])]
    refine ⟨by simp [State.returnEntry_rsc, State.dropChecks, State.setReads], fun j => ?_, fun _ _ => ?_⟩
    · rw [State.returnEntry_rec?]
      show ((s.queueReport _).setRec i none).rec? j = _ ∨ ((s.queueReport _).setRec i none).rec? j = _
      by_cases h : j = i
      · subst h; exact .inr (State.setRec_rec?_self _ _ _)
      · exact .inl (by rw [State.setRec_rec?_of_ne _ h]; simp)
    · rw [State.returnEntry_rec?]
      exact State.setRec_rec?_self _ _ _

/-- The same of every record in a list. -/
theorem State.loadFailed_all (why : LoadFailure) : ∀ (is : List RecIx) (s : State), s.NoneRemoved →
    let u := is.foldl (fun t i => t.loadFailed i why) s
    u.rsc = s.rsc ∧ s.SomeFreed u ∧ ∀ i ∈ is, ∀ r, s.loading? i = some r → u.rec? i = none := by
  intro is
  induction is with
  | nil => intro s _; exact ⟨rfl, fun _ => .inl rfl, by simp⟩
  | cons i is ih =>
    intro s hn
    obtain ⟨h1, h2, h3⟩ := s.loadFailed_frees i why hn
    obtain ⟨g1, g2, g3⟩ := ih (s.loadFailed i why) (h2.noneRemoved hn)
    refine ⟨g1.trans h1, h2.trans g2, fun j hj r hr => ?_⟩
    simp only [List.foldl_cons]
    have free : ∀ {j}, (s.loadFailed i why).rec? j = none →
        (is.foldl (fun t i => t.loadFailed i why) (s.loadFailed i why)).rec? j = none :=
      fun h => (g2 _).elim (·.trans h) id
    rcases List.mem_cons.1 hj with rfl | hj
    · exact free (h3 r hr)
    · rcases h2 j with e | e
      · have hq := State.loading?_eq_some.1 hr
        exact g3 j hj r (State.loading?_eq_some.2 ⟨e.trans hq.1, hq.2⟩)
      · exact free e

/-- A load that fails: its slot EMPTY, the list without it, every record that waited for it FREE (R38, R13). -/
theorem State.failLoad_frees (s : State) (k : SlotIx) (recipe : Nat) (why : LoadFailure) (hn : s.NoneRemoved) :
    let u := s.failLoad k recipe why
    u.rsc = { s.rsc with slots := s.rsc.slots.set k .empty, loadList := s.rsc.loadList.tail, walk := none } ∧
      s.SomeFreed u ∧
      ∀ i r, s.rec? i = some r → r.status = .loading → r.recipe = recipe → u.rec? i = none := by
  obtain ⟨h1, h2, h3⟩ := State.loadFailed_all why (((s.setSlot k .empty).popLoad).loadingRecords recipe)
    ((s.setSlot k .empty).popLoad) hn
  refine ⟨h1, h2, fun i r hr hl he => h3 i ?_ r (State.loading?_eq_some.2 ⟨hr, hl⟩)⟩
  unfold State.loadingRecords
  have : (s.setSlot k .empty).popLoad.loading? i = some r := State.loading?_eq_some.2 ⟨hr, hl⟩
  simp [recIxs, this, he]

/-- What starting the loads of a state comes to: the list, the walk and the slots of `nextLoadByRule`, and every record
that waited for a load that failed at once FREE. -/
def State.LoadsStarted (s u : State) : Prop :=
  let next := nextLoadByRule s.rsc.dir s.rsc.loadList s.rsc.slots
  u.rsc.loadList = next.1 ∧ u.rsc.walk = next.2.1 ∧ u.rsc.slots = next.2.2 ∧ s.SomeFreed u ∧
    ∀ j ∈ s.rsc.loadList, ∀ h, s.rsc.slots[j] = .loading h → u.rsc.slots[j] = .empty →
      ∀ i r, s.rec? i = some r → r.status = .loading → r.recipe = h.recipe → u.rec? i = none

theorem startsBad_iff (dir : Vector Byte 256) (n : Nat) :
    (entryEmpty dir n || !headerPlaceOk (entryOffset dir n)) = true ↔
      (entryEmpty dir n = true ∨ entryOffset dir n < 512 ∨ 262144 < entryOffset dir n + 16) := by
  rw [Bool.or_eq_true]
  refine or_congr Iff.rfl ?_
  by_cases h : entryOffset dir n + 16 ≤ 262144 <;> by_cases h' : 512 ≤ entryOffset dir n <;>
    simp [headerPlaceOk, Config.storeBytes, h, h'] <;> omega

/-- The loads of a list without repeats, started with enough fuel, follow `nextLoadByRule` (R38). -/
theorem State.startLoads_follows : ∀ (fuel : Nat) (s : State), s.rsc.walk = none → s.rsc.loadList.length ≤ fuel →
    s.rsc.loadList.Nodup → s.NoneRemoved → s.LoadsStarted (s.startLoads fuel) := by
  intro fuel
  induction fuel with
  | zero =>
    intro s hw hf _ _
    have hl : s.rsc.loadList = [] := List.eq_nil_of_length_eq_zero (by omega)
    refine ⟨?_, ?_, ?_, fun _ => .inl rfl, by simp [hl]⟩ <;> simp [State.startLoads, hl, nextLoadByRule, hw]
  | succ fuel ih =>
    intro s hw hf hd hn
    rcases hl : s.rsc.loadList with _ | ⟨k, ks⟩
    · have hu : s.startLoads (fuel + 1) = s := by simp [State.startLoads, hw, hl]
      rw [hu]
      refine ⟨?_, ?_, ?_, fun _ => .inl rfl, by simp [hl]⟩ <;> simp [hl, nextLoadByRule, hw]
    · rw [hl] at hd hf
      obtain ⟨hk, hd⟩ := List.nodup_cons.1 hd
      have hf : ks.length ≤ fuel := by simpa using hf
      cases hs : s.rsc.slots[k] with
      | loading h =>
        have hx := startsBad_iff s.rsc.dir h.recipe
        by_cases hbad : (entryEmpty s.rsc.dir h.recipe || !headerPlaceOk (entryOffset s.rsc.dir h.recipe)) = true
        · have hu : s.startLoads (fuel + 1) = (s.failLoad k h.recipe .recipeBad).startLoads fuel := by
            simp only [State.startLoads, hw, hl, hs, Option.isSome_none, Bool.false_eq_true, if_false, if_pos hbad]
          rw [hu]
          obtain ⟨f1, f2, f3⟩ := s.failLoad_frees k h.recipe .recipeBad hn
          have hnext : nextLoadByRule s.rsc.dir (k :: ks) s.rsc.slots =
              nextLoadByRule s.rsc.dir ks (s.rsc.slots.set k .empty) := by
            simp only [nextLoadByRule, hs, if_pos (hx.1 hbad)]
          generalize s.failLoad k h.recipe .recipeBad = t at f1 f2 f3
          have ht : t.rsc.loadList = ks := by rw [f1, hl]; rfl
          obtain ⟨g1, g2, g3, g4, g5⟩ :=
            ih t (by rw [f1]) (by rw [ht]; exact hf) (by rw [ht]; exact hd) (f2.noneRemoved hn)
          rw [ht, f1] at g1 g2 g3
          have free : ∀ {i}, t.rec? i = none → (t.startLoads fuel).rec? i = none := fun h => (g4 _).elim (·.trans h) id
          rw [State.LoadsStarted, hl, hnext]
          refine ⟨g1, g2, g3, f2.trans g4, fun j hj h' hs' he i r hr hlo hre => ?_⟩
          rcases List.mem_cons.1 hj with rfl | hj
          · rw [hs] at hs'; cases hs'
            exact free (f3 i r hr hlo hre)
          · rcases f2 i with e | e
            · have hjk : k.val ≠ j.val := fun e => hk (Fin.ext e ▸ hj)
              refine g5 j (by rw [ht]; exact hj) h' ?_ he i r (e.trans hr) hlo hre
              rw [f1]
              exact (Vector.getElem_set_ne (xs := s.rsc.slots) (x := Slot.empty) k.isLt j.isLt hjk).trans hs'
            · exact free e
        · have hu : s.startLoads (fuel + 1) = s.beginLoad k h := by
            simp only [State.startLoads, hw, hl, hs, Option.isSome_none, Bool.false_eq_true, if_false, if_neg hbad]
          have hnext : nextLoadByRule s.rsc.dir (k :: ks) s.rsc.slots = (k :: ks, (s.beginLoad k h).rsc.walk,
              (s.beginLoad k h).rsc.slots) := by
            simp only [nextLoadByRule, hs, if_neg (mt hx.2 hbad)]
            rfl
          rw [hu, State.LoadsStarted, hl, hnext]
          refine ⟨hl, rfl, rfl, fun _ => .inl rfl, fun j hj h' hs' he => ?_⟩
          have he : (s.rsc.slots.set k (.loading { h with
            extents := [{ offset := entryAddress h.recipe, length := 4 }] }))[j.val] = .empty := he
          rw [Vector.getElem_set] at he
          split at he
          · cases he
          · exact absurd (Eq.trans (Eq.symm hs') he) (by simp)
      | empty | valid =>
        have hu : s.startLoads (fuel + 1) = s.popLoad.startLoads fuel := by
          simp only [State.startLoads, hw, hl, hs, Option.isSome_none, Bool.false_eq_true, if_false]
        have ht : s.popLoad.rsc.loadList = ks := by show s.rsc.loadList.tail = ks; rw [hl]; rfl
        obtain ⟨g1, g2, g3, g4, g5⟩ := ih s.popLoad rfl (by rw [ht]; exact hf) (by rw [ht]; exact hd) hn
        rw [ht] at g1 g2 g3
        have hnext : nextLoadByRule s.rsc.dir (k :: ks) s.rsc.slots =
            nextLoadByRule s.popLoad.rsc.dir ks s.popLoad.rsc.slots := by
          simp only [nextLoadByRule, hs]
          rfl
        rw [hu, State.LoadsStarted, hl, hnext]
        refine ⟨g1, g2, g3, g4, fun j hj h' hs' he i r hr hlo hre => ?_⟩
        rcases List.mem_cons.1 hj with rfl | hj
        · rw [hs] at hs'; cases hs'
        · exact g5 j (by rw [ht]; exact hj) h' hs' he i r hr hlo hre

end Sys2Proof.Machine
end

