-- ==== Sys2Proof/Laws/Store.lean ====
section
/-! SUPPORT. The store's list of bytes: every operation keeps its canonical form, a write is read back, and every other
byte reads as before. -/

namespace Sys2Proof.Machine

/-! ## The canonical form -/

/-- Canonical, with every address above `k`: the form that the induction goes through. -/
theorem storeWf_cons (a : Nat) (b : Byte) (m : List Host.Cell) :
    storeWf ((a, b) :: m) = true ↔ b ≠ Config.erasedByte ∧ (∀ c ∈ m.head?, a < c.1) ∧ storeWf m = true := by
  cases m with
  | nil => simp [storeWf]
  | cons c m => obtain ⟨a', b'⟩ := c; simp [storeWf, and_assoc]

/-- The first address after a write is the written one or the first address before it. -/
theorem storePut_head (m : List Host.Cell) (x : Nat) (v : Byte) (k : Nat) (h : ∀ c ∈ m.head?, k < c.1) (hx : k < x)
    (hm : storeWf m = true) : ∀ c ∈ (storePut m x v).head?, k < c.1 := by
  cases m with
  | nil => intro c hc; unfold storePut at hc; split at hc <;> simp at hc; subst hc; exact hx
  | cons c m =>
    obtain ⟨a, b⟩ := c
    have ha : k < a := h (a, b) (by simp)
    intro c hc
    unfold storePut at hc
    repeat' split at hc
    all_goals first
      | (simp only [List.head?_cons, Option.mem_some_iff] at hc; subst hc; first | exact ha | exact hx)
      | skip
    have := ((storeWf_cons a b m).1 hm).2.1 c hc
    omega

/-- A write keeps the canonical form. -/
theorem storePut_wf (m : List Host.Cell) (x : Nat) (v : Byte) (hm : storeWf m = true) :
    storeWf (storePut m x v) = true := by
  induction m with
  | nil => unfold storePut; split <;> simp_all [storeWf]
  | cons c m ih =>
    obtain ⟨a, b⟩ := c
    obtain ⟨hb, hlt, hw⟩ := (storeWf_cons a b m).1 hm
    unfold storePut
    by_cases h1 : x < a
    · by_cases hv : v = Config.erasedByte
      · simpa [h1, hv] using hm
      · simp only [h1, hv, if_true, if_false]
        exact (storeWf_cons x v _).2 ⟨hv, by simpa using h1, hm⟩
    · by_cases h2 : x = a
      · subst h2
        by_cases hv : v = Config.erasedByte
        · simpa [hv] using hw
        · simp only [lt_irrefl, hv, if_true, if_false]
          exact (storeWf_cons x v m).2 ⟨hv, hlt, hw⟩
      · simp only [h1, h2, if_false]
        exact (storeWf_cons a b _).2 ⟨hb, storePut_head m x v a hlt (by omega) hw, ih hw⟩

/-- A write of consecutive bytes keeps the canonical form. -/
theorem storeWrite_wf (m : List Host.Cell) (o : Nat) (vs : List Byte) (hm : storeWf m = true) :
    storeWf (storeWrite m o vs) = true := by
  induction vs generalizing m o with
  | nil => exact hm
  | cons v vs ih => exact ih _ _ (storePut_wf m o v hm)

/-- The store at reset is canonical. -/
theorem reset_storeWf : storeWf State.reset.store = true := rfl

/-! ## Reading after writing -/

/-- Below its first address a canonical list reads as erased. -/
theorem storeGet_below (m : List Host.Cell) (x : Nat) (hm : storeWf m = true) (h : ∀ c ∈ m.head?, x < c.1) :
    storeGet m x = Config.erasedByte := by
  induction m with
  | nil => rfl
  | cons c m ih =>
    obtain ⟨a, b⟩ := c
    obtain ⟨_, hlt, hw⟩ := (storeWf_cons a b m).1 hm
    have hx : x < a := h (a, b) (by simp)
    have hne : ¬ x = a := by omega
    rw [storeGet, if_neg hne]
    exact ih hw fun c hc => lt_trans hx (hlt c hc)

/-- What a byte reads after one byte is written. -/
theorem storeGet_storePut (m : List Host.Cell) (x y : Nat) (v : Byte) (hm : storeWf m = true) :
    storeGet (storePut m x v) y = if y = x then v else storeGet m y := by
  induction m with
  | nil =>
    unfold storePut
    by_cases hv : v = Config.erasedByte <;> by_cases hy : y = x <;> simp [storeGet, hv, hy]
  | cons c m ih =>
    obtain ⟨a, b⟩ := c
    obtain ⟨hb, hlt, hw⟩ := (storeWf_cons a b m).1 hm
    unfold storePut
    by_cases h1 : x < a
    · by_cases hv : v = Config.erasedByte
      · by_cases hy : y = x
        · subst hy
          simp only [h1, hv, if_true]
          exact storeGet_below ((a, b) :: m) y hm (by simpa using h1)
        · simp [h1, hv, hy]
      · simp [h1, hv, storeGet]
    · by_cases h2 : x = a
      · subst h2
        by_cases hv : v = Config.erasedByte
        · by_cases hy : y = x
          · subst hy
            simp only [lt_irrefl, hv, if_true, if_false]
            exact storeGet_below m y hw hlt
          · simp [hv, hy, storeGet]
        · by_cases hy : y = x <;> simp [hv, hy, storeGet]
      · simp only [h1, h2, if_false, storeGet, ih hw]
        by_cases hy : y = a
        · subst hy; simp [Ne.symm h2]
        · simp [hy]

/-- Bytes outside a write read as before. -/
theorem storeGet_storeWrite_other (m : List Host.Cell) (o y : Nat) (vs : List Byte) (hm : storeWf m = true)
    (hy : y < o ∨ o + vs.length ≤ y) : storeGet (storeWrite m o vs) y = storeGet m y := by
  induction vs generalizing m o with
  | nil => rfl
  | cons v vs ih =>
    simp only [List.length_cons] at hy
    rw [storeWrite, ih _ _ (storePut_wf m o v hm) (by omega), storeGet_storePut m o y v hm, if_neg (by omega)]

/-- The bytes of a write read as written. -/
theorem storeGet_storeWrite (m : List Host.Cell) (o k : Nat) (vs : List Byte) (hm : storeWf m = true)
    (hk : k < vs.length) : storeGet (storeWrite m o vs) (o + k) = vs[k] := by
  induction vs generalizing m o k with
  | nil => simp at hk
  | cons v vs ih =>
    rw [storeWrite]
    cases k with
    | zero =>
      rw [storeGet_storeWrite_other _ _ _ _ (storePut_wf m o v hm) (by omega), storeGet_storePut m o _ v hm]
      simp
    | succ k =>
      have := ih (storePut m o v) (o + 1) k (storePut_wf m o v hm) (by simpa using hk)
      rw [show o + (k + 1) = o + 1 + k by omega, this]
      simp

/-- A read of `n` bytes has `n` bytes. -/
@[simp] theorem storeRead_length (m : List Host.Cell) (o n : Nat) : (storeRead m o n).length = n := by
  simp [storeRead]

end Sys2Proof.Machine
end

