-- ==== Sys2Proof/Tests/Slice0.lean ====
section
/-! SUPPORT. Tests of the model: the smoke test of WellFormed, worked examples of the manual, small single steps, and for
every statement with hypotheses a theorem `witness_<statement>` that shows states and operands which meet them. -/

namespace Sys2Proof.Tests

open Sys2Proof.Machine

/-! ## Small states -/

/-- A rate table: the example of R132. -/
def rates : List Nat := [0, 2, 5, 10, 18, 30, 48, 80, 120, 180, 250, 330, 420, 520, 640, 780]

/-- A point at the mask, and a walk point made of it. -/
def cap : Point := { x := 10, y := 10, kind := .cap, low := 100, high := 200 }

/-- A recipe with one mask point, one zone and one segment for cell A. -/
def recipe : Recipe :=
  { name := [0x41]
    material := { solids := 500, efficiency := 80, zLow := 100, derate := 90, openTime := 60 }
    zones := [{ area := 100, low := 10, high := 500 }]
    progA := { offset := 600, count := 1 }, progB := { offset := 0, count := 0 }
    mask := some { mode := .firstFail, points := [cap] }, keepout := none, coverage := none
    cure := { rates := rates, thermalTarget := 1000, thermalMax := 9000, uvTarget := 0, speedClass := 3, peakMax := 1500 } }

/-- The line after start-up in RUN with the recipe resident, at line time 1,000. -/
def line : State :=
  { State.reset with
    rsc := { Rsc.reset with
      startUp := none, storeState := .opened
      slots := Rsc.reset.slots.set 0 (.valid { recipe := 1, use := 1, lastUse := 0, extents := [⟨512, 16⟩] } false recipe) }
    lmf := { Lmf.reset false with mode := .run, clock := 1000 } }

/-- The line in another mode. -/
def lineIn (m : LineMode) : State := { line with lmf := { line.lmf with mode := m } }

/-- A carrier that stands at a place with its tag check passed. -/
def carrier (p : Place) : CarrierRecord :=
  { status := .active, removalPending := false, position := .standing p, tagCheck := .passed
    plan := [.mask, .sprayA, .inspect, .wetq, .lane, .exit], tagId := 7, serial := [0x41], recipe := 1, slot := some 0
    qualified := false, pass := 1, maskVerdict := .none, maskPoints := [.notChecked]
    zones := [{ acc := 0, thickness := 0, verdict := .none, abandoned := false }], sprayEnd := none, flowClamps := 0
    starves := 0, keepoutPoints := [], coveragePoints := [], lane := none, posInLane := none, thermalDose := 0, uvDose := 0
    peak := none, entryTime := none, exitTime := none, cureUnknown := false, cureVerdict := .none, hold := none
    history := [] }

/-- A hold of one minor reason. -/
def hold : Hold :=
  { state := .opened, reasons := [{ code := .filmLow, severity := .minor, count := 1, firstRaise := 5 }], stage := .exit
    claim := none, instruction := none, finding := none, disposition := none, markWritten := false, raiseTime := 5 }

/-- A disposition of the Host Link. -/
def ruling (d : Disposition) : DispositionEntry := { what := d, disposer := .host, time := 6 }

/-- The line with a record at index 0. -/
def withRec (s : State) (r : CarrierRecord) : State := s.setRec 0 (some r)

/-- A timer that started at line time 900. -/
def timer (ms : Nat) : Timer := { since := 900, ms := ms }

/-- The status of the oldest reply, and the kind of the transmission in progress. -/
def sent (o : Host.Outcome State Fault Refusal) : Option ReplyStatus :=
  match o with
  | .next t =>
    match t.liu.hostTx with
    | some (.reply r) => some r.status
    | _ => none
  | _ => none

/-! ## WellFormed refuses -/

theorem test_wf_serial_too_long : (Instr.admitCarrier .host 0 7 1 (List.replicate 21 0x41)).wf = false := by decide
theorem test_wf_serial_empty : (Instr.admitCarrier .host 0 7 1 []).wf = false := by decide
theorem test_wf_instruction_too_long : (Instr.instructionPost .host 0 0 (List.replicate 49 0x41)).wf = false := by decide
theorem test_wf_finding_empty : (Instr.findingPost .bench 0 0 []).wf = false := by decide
theorem test_wf_write_too_long : (Instr.storeWrite .host 0 512 (List.replicate 65 0)).wf = false := by decide
theorem test_wf_no_reader : (Instr.tagReadAttemptEnd .wetq none).wf = false := by decide
theorem test_wf_no_writer : (Instr.tagWriteAttemptEnd .mask none).wf = false := by decide
theorem test_wf_no_sensor :
    (Instr.sourceCleared .lane1).wf = false ∧ (Instr.carrierSetBack .offline).wf = false ∧
      (Instr.doneCarrierLifted .wetq).wf = false := by decide
theorem test_wf_no_station : (Instr.carrierMissing .unload).wf = false := by decide
theorem test_wf_no_lift : (Instr.carrierLifted .mask).wf = false := by decide
theorem test_wf_outside_travel : (Instr.gantryHaltReport .a 6001 0 0).wf = false := by decide
theorem test_wf_no_byte : (Instr.frameValid .host []).wf = false := by decide
theorem test_wf_accepts : (Instr.storeWrite .host 0 512 (List.replicate 64 0)).wf = true := by decide

/-! ## Worked examples of the manual -/

/-- R188: the CRC-16 of the nine digits "123456789". -/
theorem test_crc : crc16 [0x31, 0x32, 0x33, 0x34, 0x35, 0x36, 0x37, 0x38, 0x39] = 0x29B1 := by
  decide +kernel

/-- R132's table of examples. -/
theorem test_rates :
    cureRate rates (-500) = 0 ∧ cureRate rates 399 = 0 ∧ cureRate rates 400 = 0 ∧ cureRate rates 455 = 1 ∧
      cureRate rates 1899 = 778 ∧ cureRate rates 1900 = 780 ∧ cureRate rates 3000 = 780 := by decide

/-- R132: a falling table truncates toward zero. -/
theorem test_falling_rate :
    cureRate [0, 0, 0, 0, 0, 0, 0, 0, 0, 0, 250, 200, 0, 0, 0, 0] 1433 = 234 := by decide

/-- No table row gives bits. -/
theorem test_no_word_spells_a_command : decodeTableWord 8 1 = none := by decide

/-! ## Witnesses: the whole part -/

theorem witness_StepRunsTheFrontCommand :
    ({ line with pending := [.hostTxDone] } : State).pending = .hostTxDone :: [] ∧ line.pending = [] := ⟨rfl, rfl⟩

/-- The last byte of the store is reached, the byte behind it is beyond. -/
theorem witness_OnlyAccessesBeyondTheStoreStop :
    (∃ t, exec .storeAccessEnd { line with rsc := { line.rsc with
      port := some { who := .host, op := .read 262143 1, since := 999 } } } = .next t) ∧
    exec .storeAccessEnd { line with rsc := { line.rsc with
      port := some { who := .host, op := .read 262143 2, since := 999 } } } = .fault .storeRange := ⟨⟨_, rfl⟩, rfl⟩

theorem witness_CommandsKeepTheirFrames :
    (∃ t, exec (.walkStart .mask) (withRec line (carrier .mask)) = .next t) ∧
    (∀ f, Instr.walkStart .mask ≠ .por f) ∧ Instr.walkStart .mask ≠ .storeAccessEnd ∧
    Instr.walkStart .mask ≠ .storeAccessTimeout ∧
    partsOf (.walkStart .mask) = some { ltk := true, ine := true, ctc := true, hmg := true, rep := true } :=
  ⟨⟨_, rfl⟩, nofun, nofun, nofun, rfl⟩

/-! ## Witnesses: invariants -/

/-- The line with a record at index 0 has no other. -/
theorem withRec_only {r q : CarrierRecord} {j : RecIx} (h : (withRec line r).rec? j = some q) : j = 0 ∧ q = r := by
  simp only [withRec, State.setRec, State.rec?, Fin.getElem_fin, Vector.getElem_set] at h
  split at h
  · rename_i e
    exact ⟨Fin.ext e.symm, (Option.some.inj h).symm⟩
  · simp [line, State.reset, Ltk.reset] at h

/-- A record that stands at UNLOAD keeps its limits. -/
theorem witness_recordLaw : RecordLaw (withRec line (carrier .unload)) := fun _ _ h => by
  rw [(withRec_only h).2]
  generalize hr : carrier .unload = r
  have hh : r.hold = none := hr ▸ rfl
  constructor
  all_goals (subst hr; first | (intro a e; cases hh.symm.trans e) | simp [carrier])

theorem witness_StepsKeepTheLimits :
    let s : State := { withRec line (carrier .unload) with pending := [.uvSample none] }
    storeWf s.store = true ∧ BoundLaw s ∧ RecordLaw s ∧ ∃ t, step s = .next t :=
  ⟨rfl, ⟨Nat.zero_le 32, Nat.zero_le 255, Nat.zero_le 4, Nat.zero_le 8, Nat.zero_le 8⟩, witness_recordLaw, _, rfl⟩

theorem witness_StepsKeepTheValveLaw :
    CellLaw line ∧ ∃ t, step { line with pending := [.valveFault .a] } = .next t :=
  ⟨fun c => by cases c <;> exact ⟨nofun, nofun, nofun⟩, _, rfl⟩

/-- The lamp READY with its shutter open, and the command that turns it off. -/
theorem witness_ShutterFollowsLampAndMode :
    let s : State := { line with
      pending := [.lampSet .host 1 0x00]
      ctc := { line.ctc with shutterOpen := true, lamp := { line.ctc.lamp with state := .ready } } }
    (s.ctc.shutterOpen = true ↔ (s.ctc.lamp.state = .ready ∨ s.ctc.lamp.state = .low) ∧ s.lmf.mode ≠ .stop) ∧
      ∃ t, step s = .next t := ⟨by decide, _, rfl⟩

theorem witness_DosesNeverDecrease :
    let s := withRec line (carrier .unload)
    RecordLaw s ∧ (∃ t, exec (.uvSample none) s = .next t ∧ ∃ r, t.rec? 0 = some r) ∧
      s.rec? 0 = some (carrier .unload) := ⟨witness_recordLaw, ⟨_, rfl, _, rfl⟩, rfl⟩

theorem witness_NoTwoRecordsHoldOneTag :
    let s : State := { withRec line (carrier .load) with
      ltk := { (withRec line (carrier .load)).ltk with
        loadEntry := some { tag := some ⟨7, 0⟩, result := .new, takenBy := some 0 } } }
    ((∀ i j r q, s.rec? i = some r → s.rec? j = some q → r.tagId = q.tagId → i = j) ∧
      (∀ e t, s.ltk.loadEntry = some e → e.tag = some t →
        (e.result = .new → e.takenBy = none → ∀ i r, s.rec? i = some r → r.tagId ≠ t.id) ∧
        (∀ i r, e.takenBy = some i → s.rec? i = some r → r.tagId = t.id))) ∧
      ∃ t, step { s with pending := [.moveBegin 0] } = .next t := by
  refine ⟨⟨fun i j r q hi hj _ => (withRec_only hi).1.trans (withRec_only hj).1.symm, fun e t he ht => ?_⟩, _, rfl⟩
  cases he
  cases ht
  exact ⟨nofun, fun i r _ h => by rw [(withRec_only h).2]; rfl⟩

/-- The line mode that an outcome leaves. -/
def modeOfNext : Host.Outcome State Fault Refusal → Option LineMode
  | .next t => some t.lmf.mode
  | _ => none

theorem of_modeOfNext {o : Host.Outcome State Fault Refusal} {m : LineMode} (h : modeOfNext o = some m) :
    ∃ t, o = .next t ∧ t.lmf.mode = m := by
  cases o with
  | next t => exact ⟨t, rfl, Option.some.inj h⟩
  | fault _ => cases h
  | refused _ => cases h

theorem witness_ModesAreLeftOnlyByTheirRequests :
    (∃ t, exec (.resume .host 1) (lineIn .stop) = .next t ∧ t.lmf.mode = .pause) ∧
    (∃ t, exec (.lineModeSet .host 1 0x00) (lineIn .pause) = .next t ∧ t.lmf.mode = .idle) ∧
    (∃ t, exec (.lineModeSet .host 1 0x01) (lineIn .idle) = .next t ∧ t.lmf.mode = .run) :=
  ⟨of_modeOfNext (by decide +kernel), of_modeOfNext (by decide +kernel), of_modeOfNext (by decide +kernel)⟩

/-! ## Witnesses: inputs and links -/

theorem witness_EmergencyStopStops :
    line.starting = false ∧ line.lmf.estop = false ∧ line.lmf.mode ≠ .stop := ⟨rfl, rfl, by decide⟩

theorem witness_InputsAndTransmittersOnlyTakeTheirLevel :
    (line.setEstop true).lmf.estop = true ∧ State.reset.lmf.estop = false ∧ State.reset.starting = true :=
  ⟨rfl, rfl, rfl⟩

theorem witness_FrameRunsTheRequestItCarries :
    (Instr.lineConfig .host 5 4 2000).request? = some (.host, 5, .lineConfig 4 2000) ∧
    (Request.lineConfig 4 2000).lengthOk = true ∧ line.rx .host = .hunt := ⟨rfl, rfl, rfl⟩

/-- Kinds on either side of 0x80, and bodies of 0 and of 240 bytes; lengths 1 and 243 are discarded. -/
theorem witness_FramesOfNoRequestAreDropped :
    line.hears .host = true ∧ line.rx .host = .hunt ∧ (List.replicate 240 (0 : Byte)).length ≤ 240 ∧
    (0x7F : Byte) ∉ requestKinds ∧ (0x80 : Byte) ∉ requestKinds ∧ (0x00 : Byte) ∉ requestKinds ∧
    line.deaf .host = false ∧
    (let s := line.setRx .host (.length false 990)
     s.deaf .host = false ∧ s.rx .host = .length false 990 ∧ s.since 990 ≤ 20 ∧ ((1 : Byte).toNat < 2) ∧
       242 < (243 : Byte).toNat ∧ (s.rx .host).last = some 990) ∧
    (let s := line.setRx .host (.body false 980 2 [0x00, 0x02, 0x01])
     s.deaf .host = false ∧ s.rx .host = .body false 980 2 [0x00, 0x02, 0x01] ∧ s.since 980 ≤ 20 ∧
       [0x00, 0x02, (0x01 : Byte)].length + 1 = (2 : Byte).toNat + 2 ∧ frameIn 2 ([0x00, 0x02, 0x01] ++ [0x00]) = none) := by
  refine ⟨rfl, rfl, Nat.le_of_eq List.length_replicate, by decide, by decide, by decide, rfl,
    ⟨rfl, rfl, by decide, by decide, by decide, rfl⟩, ⟨rfl, rfl, by decide, rfl, by decide +kernel⟩⟩

/-- Four replies, and three. -/
def replies (n : Nat) : List Reply := List.replicate n { kind := 0x02, tag := 9, status := .ok, data := [] }

theorem witness_FullReplyStoreHoldsOneFrame :
    (Instr.lineStatus .host 1).request? = some (.host, 1, .lineStatus) ∧ Request.lineStatus.lengthOk = true ∧
    line.starting = false ∧ line.liu.held = none ∧
    4 ≤ ({ line with liu := { line.liu with replies := replies 4 } } : State).placesTaken ∧
    (let s (n : Nat) : State :=
       { line with liu := { line.liu with replies := replies n, held := some (frameOf 1 .lineStatus) } }
     (s 3).liu.held = some (frameOf 1 .lineStatus) ∧ (s 3).placesTaken < 4 ∧ (s 4).liu.held.isSome = true ∧
       4 ≤ (s 4).placesTaken) :=
  ⟨rfl, rfl, rfl, rfl, by decide, rfl, by decide, rfl, by decide⟩

theorem witness_ScreeningRefusesInOrder :
    (Instr.benchList .host 1).request? = some (.host, 1, .benchList) ∧ State.reset.starting = true ∧
    carries .host (kindOf .benchList) = false ∧
    (Instr.storeWrite .host 1 512 []).request? = some (.host, 1, .storeWrite 512 []) ∧
    carries .host (kindOf (.storeWrite 512 [])) = true ∧ (Request.storeWrite 512 []).lengthOk = false ∧
    (Request.remove 24).lengthOk = true ∧ rangesOk (.remove 24) = false ∧ rangesOk (.remove 23) = true ∧
    (let s : State := { line with rsc := { line.rsc with hostReq := some (.read 3 512 4 []) } }
     s.hears .host = true ∧ wellAsked .host (.remove 23) = true ∧ s.rsc.hostReq.isSome = true ∧
       Request.remove 23 ≠ .lineStatus ∧ Request.remove 23 ≠ .faultRead ∧ Request.remove 23 ≠ .lineModeSet 0x03) ∧
    (let s : State := { line with liu := { line.liu with benchTx := (replies 1).head? } }
     s.liu.benchTx.isSome = true) := by
  refine ⟨rfl, rfl, by decide, rfl, by decide, rfl, rfl, by decide, by decide, ⟨rfl, by decide, rfl, by decide, by decide,
    by decide⟩, rfl⟩

theorem witness_SilenceDropsBenchClaims :
    line.liu.silence = none ∧
    ({ line with liu := { line.liu with silence := some (timer 30000) } } : State).liu.silence = some (timer 30000) ∧
    (withRec line { carrier .unload with hold := some { hold with claim := some .bench } }).live? 0 =
      some { carrier .unload with hold := some { hold with claim := some .bench } } := ⟨rfl, rfl, rfl⟩

/-- A queue of reports. -/
def reports (n : Nat) : List Report := List.replicate n { time := 1, body := .carrierDone 0 }

theorem witness_FullQueueCountsLostReports :
    (let s : State := { line with liu := { line.liu with reports := reports 31 } }
     s.liu.reports.length < 32) ∧
    (let s : State := { line with liu := { line.liu with reports := reports 32, full := true } }
     32 ≤ s.liu.reports.length ∧ s.liu.full = true) ∧
    (let s : State := { line with liu := { line.liu with reports := reports 32 } }
     32 ≤ s.liu.reports.length ∧ s.liu.full = false) := by decide

/-! ## Witnesses: requests -/

theorem witness_ReadingRequestsOnlyReply :
    (23 : Byte).toNat = (23 : RecIx).val ∧ line.hears .host = true ∧ line.takesRequest .host = true ∧
      line.hears .bench = true := ⟨rfl, rfl, rfl, rfl⟩

theorem witness_IdentifyCarriesTheCodes :
    line.hears .host = true ∧ line.rsc.hostReq = none ∧ line.hears .bench = true ∧
    (let s : State := { line with rsc := { line.rsc with hostReq := some (.read 3 512 4 []) } }
     s.hears .host = true ∧ s.rsc.hostReq.isSome = true) := ⟨rfl, rfl, rfl, rfl, rfl⟩

theorem witness_ModeSetFollowsTheTable :
    line.hears .bench = true ∧ line.hears .host = true ∧ 3 < (4 : Byte).toNat ∧ ¬ 3 < (3 : Byte).toNat := by decide

theorem witness_ModeChangesReachTheBlocks :
    line.lmf.mode ≠ .stop ∧ line.lmf.mode ≠ .pause ∧ (lineIn .stop).lmf.mode ≠ .pause ∧ (lineIn .pause).lmf.mode ≠ .idle ∧
      (lineIn .idle).lmf.mode ≠ .run ∧ line.liu.reports.length < 32 := by decide

/-- A zone at 2,300 is not above the limit, one at 2,301 is. -/
theorem witness_ResumeNeedsAClearLine :
    line.takesRequest .host = true ∧ line.lmf.mode ≠ .stop ∧ (lineIn .stop).takesRequest .host = true ∧
    (lineIn .stop).lmf.mode = .stop ∧ ((lineIn .stop).setEstop true).lmf.estop = true ∧
    (let s (t : Int) : State := { lineIn .stop with
      ctc := { line.ctc with zones := line.ctc.zones.set 3 { cond := .normal, temp := some t, holdStart := none } } }
     (∃ z : ZoneIx, ∃ t, (s 2301).ctc.zones[z].temp = some t ∧ 2300 < t) ∧
     ¬ ∃ z : ZoneIx, (s 2300).ctc.zones[z].cond = .lost ∨ ∃ t, (s 2300).ctc.zones[z].temp = some t ∧ 2300 < t) := by
  refine ⟨rfl, by decide, rfl, rfl, rfl, ⟨3, 2301, rfl, by decide⟩, ?_⟩
  rintro ⟨z, h⟩
  revert z
  decide

/-- Both ranges at their ends and beyond them. -/
theorem witness_LineConfigAndFaultAck :
    line.takesRequest .host = true ∧ line.lmf.mode ≠ .idle ∧ (lineIn .idle).takesRequest .host = true ∧
    (lineIn .idle).lmf.mode = .idle ∧
    (let ok (x : Byte) (lo : BitVec 16) : Prop := (1 ≤ x.toNat ∧ x.toNat ≤ 4) ∧ 1 ≤ lo.toNat ∧ lo.toNat ≤ 2000
     ok 1 1 ∧ ok 4 2000 ∧ ¬ ok 0 40 ∧ ¬ ok 5 40 ∧ ¬ ok 2 0 ∧ ¬ ok 2 2001) ∧
    (8 ≤ (8 : Byte).toNat ∧ (7 : Byte) ≠ 0 ∧ (7 : Byte).toNat < 8) := by
  refine ⟨rfl, by decide, rfl, rfl, ?_, by decide⟩
  decide

theorem witness_LineClearEmptiesTheLine :
    line.takesRequest .host = true ∧ line.lmf.mode ≠ .stop ∧ (lineIn .stop).takesRequest .host = true ∧
      (lineIn .stop).lmf.mode = .stop ∧ (∀ i : RecIx, line.rec? i = none) ∧ (reports 30).length < 31 :=
  ⟨rfl, by decide, rfl, rfl, by decide, by decide⟩

/-- A carrier with match NEW at LOAD, a recipe 2 with a directory entry, and a walk in progress that needs a slot. -/
def atLoad (m : MatchResult) : State :=
  { line with
    ltk := { line.ltk with loadEntry := some { tag := some ⟨9, 0⟩, result := m, takenBy := none } }
    rsc := { line.rsc with
      dir := (line.rsc.dir.set 4 0x01).set 5 0x00, walk := some (ChainWalk.begin 3 1024)
      slots := (line.rsc.slots.set 1 (.loading { recipe := 3, use := 1, lastUse := 0, extents := [] })), loadList := [1] } }

theorem witness_AdmitTakesTheEntryOrRefuses :
    (atLoad .new).takesRequest .host = true ∧ wellAsked .host (.admitCarrier 9 2 [0x41]) = true ∧
    wellAsked .host (.admitCarrier 9 64 (List.replicate 20 0x7E)) = true ∧
    (atLoad .new).lmf.mode = .run ∧ (atLoad .new).lowestFree = some 0 ∧ (atLoad .new).rsc.storeState ≠ .blank ∧
    entryEmpty (atLoad .new).rsc.dir 2 = false ∧ entryEmpty (atLoad .new).rsc.dir 1 = true ∧
    (atLoad .new).residentSlot 2 = none ∧ (atLoad .new).loadingSlot 2 = none ∧ (∃ k, (atLoad .new).slotForLoad = some k) ∧
    (atLoad .new).rsc.walk.isSome = true ∧ (atLoad .new).loadingSlot 3 = some 1 ∧
    (atLoad .marked).ltk.loadEntry = some { tag := some ⟨9, 0⟩, result := .marked, takenBy := none } ∧
    (lineIn .pause).lmf.mode ≠ .run ∧ line.ltk.loadEntry = none :=
  ⟨rfl, by decide, by decide, rfl, by decide, by decide, by decide, by decide, by decide, by decide, ⟨2, by decide⟩, rfl,
    by decide, rfl, by decide, rfl⟩

/-- The recipe of the entry in a VALID slot, no slot to choose, and a load that starts: header offsets 512 and 511. -/
theorem witness_AdmitTakesTheEntryOrRefuses_slots :
    (let s : State := { atLoad .new with rsc := { (atLoad .new).rsc with
       slots := (atLoad .new).rsc.slots.set 7 (.valid { recipe := 2, use := 0, lastUse := 5, extents := [] } false recipe) } }
     s.residentSlot 2 = some 7 ∧
       s.rsc.slots[(7 : SlotIx)] = .valid { recipe := 2, use := 0, lastUse := 5, extents := [] } false recipe) ∧
    (let s : State := { atLoad .new with rsc := { (atLoad .new).rsc with
       slots := Vector.replicate 8 (.loading { recipe := 3, use := 1, lastUse := 0, extents := [] }) } }
     s.residentSlot 2 = none ∧ s.loadingSlot 2 = none ∧ s.slotForLoad = none) ∧
    (let s (a b : Byte) : State := { line with rsc := { line.rsc with dir := (line.rsc.dir.set 5 a).set 6 b } }
     (s 2 0).residentSlot 2 = none ∧ (s 2 0).loadingSlot 2 = none ∧ (s 2 0).slotForLoad = some 1 ∧ (s 2 0).rsc.walk = none ∧
       (s 2 0).rsc.loadList = [] ∧ entryOffset (s 2 0).rsc.dir 2 = 512 ∧ entryOffset (s 1 0xFF).rsc.dir 2 = 511 ∧
       512 + 16 ≤ 262144 ∧ entryEmpty (s 1 0xFF).rsc.dir 2 = false) ∧ ∀ j r, line.rec? j = some r → r.recipe ≠ 2 := by
  refine ⟨by decide, by decide, by decide, fun j r h => ?_⟩
  simp [line, State.reset, Ltk.reset, State.rec?] at h

theorem witness_RemoveMarkClearAndTraceTake :
    line.takesRequest .host = true ∧ (0 : Byte).toNat = (0 : RecIx).val ∧ line.live? 0 = none ∧
    (withRec line { carrier .load with status := .loading }).rec? 0 = some { carrier .load with status := .loading } ∧
    (withRec line (carrier .mask)).rec? 0 = some (carrier .mask) ∧ (carrier .mask).status = .active ∧
    (lineIn .stop).lmf.mode = .stop ∧ (lineIn .stop).takesRequest .host = true ∧ line.ltk.loadEntry = none ∧
    (atLoad .marked).lmf.mode ≠ .stop ∧
    (atLoad .marked).ltk.loadEntry = some { tag := some ⟨9, 0⟩, result := .marked, takenBy := none } ∧
    (withRec line { carrier .unload with status := .done .good }).rec? 0 = some { carrier .unload with status := .done .good } :=
  ⟨rfl, rfl, rfl, rfl, rfl, rfl, rfl, rfl, rfl, by decide, rfl, rfl⟩

/-- A reason with a code. -/
def reason (c : ReasonCode) : Reason := { code := c, severity := .minor, count := 255, firstRaise := 1 }

/-- Eight reasons. -/
def eight : List Reason :=
  [.maskAbsent, .maskMisplaced, .maskNoResult, .filmLow, .keepout, .void, .inspectNoResult, .undercureUv].map reason

theorem witness_RaisesArePlacedInTheList :
    (∃ r ∈ eight, r.code = .keepout) ∧ (∀ r ∈ eight, r.code ≠ .overcure) ∧ eight.length = 8 ∧
    (∀ r ∈ eight.tail, r.code ≠ .overcure) ∧ eight.tail.length < 8 := by decide

theorem witness_HoldPlaceRaisesOrdered :
    line.takesRequest .host = true ∧ (0 : Byte).toNat = (0 : RecIx).val ∧ severityOf 0x03 = some .critical ∧
    line.rec? 0 = none ∧ (withRec line (carrier .mask)).rec? 0 = some (carrier .mask) ∧
    (carrier .mask).status.inPass = true ∧ (carrier .mask).hold = none ∧
    (withRec line { carrier .mask with hold := some { hold with state := .disposed } }).rec? 0 =
      some { carrier .mask with hold := some { hold with state := .disposed } } :=
  ⟨rfl, rfl, rfl, rfl, rfl, rfl, rfl, rfl⟩

theorem witness_ClaimsBelongToOneLink :
    line.takesRequest .host = true ∧ line.takesRequest .bench = true ∧ (0 : Byte).toNat = (0 : RecIx).val ∧
    line.rec? 0 = none ∧
    (let r : CarrierRecord := { carrier (.bench 3) with hold := some hold }
     (withRec line r).rec? 0 = some r ∧ r.hold = some hold ∧ r.status.isLive = true ∧ visibleTo .bench r = true ∧
       hold.claim = none) ∧
    visibleTo .bench { carrier .unload with hold := some hold } = false := ⟨rfl, rfl, rfl, rfl, ⟨rfl, rfl, rfl, rfl, rfl⟩, rfl⟩

theorem witness_TextsAreReadAndPosted :
    let h : Hold := { hold with
      claim := some .bench, instruction := some { text := [0x41], unread := true }, finding := some ⟨[0x42], false⟩ }
    let r : CarrierRecord := { carrier (.bench 0) with hold := some h }
    (0 : Byte).toNat = (0 : RecIx).val ∧ (withRec line r).rec? 0 = some r ∧ r.hold = some h ∧ r.status.isLive = true ∧
    1 ≤ [(0x20 : Byte)].length ∧ (List.replicate 48 (0x7E : Byte)).length ≤ 48 ∧
    (List.replicate 48 (0x7E : Byte)).all printable = true ∧ [(0x20 : Byte)].all printable = true ∧
    (withRec line r).takesRequest .host = true ∧ (withRec line r).takesRequest .bench = true ∧
    r.position.benchSide = true ∧ h.instruction = some { text := [0x41], unread := true } ∧
    (∀ t, hold.instruction = some t → t.unread = false) ∧ h.claim = some .bench ∧
    (∀ t, h.finding = some t → t.unread = false) :=
  ⟨rfl, rfl, rfl, rfl, by decide, by decide, by decide, by decide, rfl, rfl, rfl, rfl, nofun, rfl,
    fun _ e => by cases e; rfl⟩

theorem witness_DisposePermissionsAndChecks :
    let r : CarrierRecord := { carrier .unload with hold := some { hold with claim := some .host } }
    let b : CarrierRecord := { carrier (.bench 0) with hold := some { hold with claim := some .bench } }
    line.takesRequest .host = true ∧ line.takesRequest .bench = true ∧ (0 : Byte).toNat = (0 : RecIx).val ∧
    dispositionOf 0x07 = some .scrap ∧ dispositionOf 0x01 = some .remask ∧ line.rec? 0 = none ∧
    (withRec line r).rec? 0 = some r ∧ r.status = .active ∧ visibleTo .host r = true ∧ visibleTo .bench b = true ∧
    r.position.disposable = true ∧ (carrier .mask).position.disposable = false ∧
    severityAllows .minor .bench .scrap = false ∧ severityAllows .minor .host .remask = true ∧
    passAllows 3 .host .remask = false ∧ passAllows 2 .host .remask = true ∧ hold.stage ≠ .mask :=
  ⟨rfl, rfl, rfl, rfl, rfl, rfl, rfl, rfl, rfl, rfl, rfl, rfl, rfl, rfl, rfl, rfl, by decide⟩

theorem witness_DispositionsTakeEffect :
    let h : Hold := { hold with claim := some .host }
    let r : CarrierRecord := { carrier .unload with hold := some h }
    let s := withRec line r
    line.takesRequest .host = true ∧ (0 : Byte).toNat = (0 : RecIx).val ∧ dispositionOf 0x05 = some .strip ∧
    dispositionOf 0x06 = some .useAsIs ∧ s.rec? 0 = some r ∧ r.status = .active ∧ r.hold = some h ∧
    visibleTo .host r = true ∧ disposeRefusal .host .strip r h = none ∧ disposeRefusal .host .useAsIs r h = none ∧
    closingOf .strip = none ∧ closingOf .useAsIs = some .concession ∧ s.ltk.loadEntry = none ∧
    r.position = .standing .unload ∧ s.recordOfTag 7 = some 0 ∧ (1 : Byte).toNat = (0 : RecIx).val + 1 ∧
    (s.setEntry (some { tag := some ⟨7, 1⟩, result := .duplicate, takenBy := none })).ltk.loadEntry =
      some { tag := some ⟨7, 1⟩, result := .duplicate, takenBy := none } ∧ (reports 31).length < 32 :=
  ⟨rfl, rfl, rfl, rfl, rfl, rfl, rfl, rfl, by decide, by decide, rfl, rfl, rfl, rfl, by decide, rfl, rfl, by decide⟩

theorem witness_CellHomeAndCellClear :
    line.hears .bench = true ∧ line.takesRequest .host = true ∧ 2 ≤ (2 : Byte).toNat ∧ cellOf 0x01 = some .b ∧
      (lineIn .stop).takesRequest .host = true ∧ (lineIn .stop).lmf.mode = .stop ∧ line.lmf.mode ≠ .stop ∧
      (line.cell .b).state = .unhomed := ⟨rfl, rfl, by decide, rfl, rfl, rfl, by decide, rfl⟩

theorem witness_HeadClearAndLampSet :
    line.takesRequest .host = true ∧ headOf 0x01 = some .inspect ∧ line.ctc.lamp.state = .off ∧
      line.ctc.lamp.ballastFault = false ∧ (line.setBallast true).ctc.lamp.ballastFault = true ∧
      (line.setBallast true).ctc.lamp.state = .off ∧
      ({ line with ctc := { line.ctc with lamp := { line.ctc.lamp with state := .low } } } : State).ctc.lamp.state ≠ .off ∧
      ({ line with ctc := { line.ctc with lamp := { line.ctc.lamp with state := .low } } } : State).ctc.lamp.state ≠ .fault :=
  ⟨rfl, rfl, rfl, rfl, rfl, rfl, by decide, by decide⟩

/-! ## Witnesses: cells -/

/-- A program of a record at index 0. -/
def program (next count : Nat) : Program := { ix := 0, pass := 1, offset := 600, count := count, next := next }

/-- A spraying segment of 40 mm, and its values. -/
def segment : Segment :=
  { kind := some .spray, runStart := false, dir := some .plusX, zone := 0, x := 0, y := 0, len := 400, speed := 200, flow := 900
    z := 300, lead := 5, trail := 5 }

/-- The segment in execution. -/
def executing (p : Phase) : Executing := { formValues recipe.material 1000 .spray ⟨400, 0, 300⟩ segment with phase := p }

/-- R93, R95, R96: 40 mm at 200 mm/s take 200 ms; 900 uL/s leave 72,000 nL. -/
theorem test_segment_values :
    (executing .seek).time = 200 ∧ (executing .seek).feff = 900 ∧ (executing .seek).deposit = 72000 := by decide

/-- R93: L = 7 at 400 is raised to 2 ms without lead and trail, L = 8 keeps them; R94: the trail stays below T. -/
theorem test_minimum_time :
    (motionTime { segment with len := 7, speed := 400 }, usedLead { segment with len := 7, speed := 400 }) = (2, 0) ∧
    (motionTime { segment with len := 8, speed := 400 }, usedLead { segment with len := 8, speed := 400 }) = (2, 5) ∧
    usedTrail { segment with len := 8, speed := 400 } = 1 := by decide

/-- Cell A at work. -/
def working (v : SprayCell → SprayCell) (s : State) : State :=
  s.setCell .a (v { SprayCell.reset with
    state := .running, gantry := some ⟨0, 0, 300⟩, program := some (program 0 1), executing := some (executing .seek)
    gantryTimer := some (timer 2000), fetchIndex := 1 })

/-- A carrier in cell A. -/
def sprayed : State := withRec line (carrier .sprayA)

theorem witness_AbandonedProgramsLeaveTheCell :
    line.takesRequest .host = true ∧ cellOf 0x00 = some .a ∧ (line.cell .a).program = none ∧
      ((working id sprayed).cell .a).program = some (program 0 1) ∧ (working id sprayed).takesRequest .host = true ∧
      (reports 23).length < 24 ∧
      (let s := working (fun v => { v with executing := some (executing .motion), runZone := some 0 }) sprayed
       s.rec? 0 = some (carrier .sprayA) ∧ (carrier .sprayA).status.isLive = true ∧ s.recipeOf 0 = some recipe ∧
         (s.cell .a).runZone = some 0 ∧ (s.cell .a).gantryTimer.isSome = true ∧ (carrier .sprayA).hold = none ∧
         NoCellLeft { carrier .sprayA with plan := [.inspect] } ∧ ¬ NoCellLeft (carrier .sprayA)) :=
  ⟨rfl, rfl, rfl, rfl, rfl, by decide, rfl, rfl, rfl, rfl, rfl, rfl, by decide, by decide⟩

theorem witness_CellsHomeAndHalt :
    (let s := line.setCell .a { SprayCell.reset with state := .homing, homeTimer := some (timer 10000) }
     (s.cell .a).state = .homing ∧ (s.cell .a).homeTimer = some (timer 10000)) ∧ (line.cell .a).state ≠ .homing := by decide

theorem witness_SegmentsGoThroughTheirPhases :
    (let s := sprayed.setCell .a { SprayCell.reset with state := .ready }
     s.recordAt (cellPlace .a) = some 0 ∧ s.rec? 0 = some (carrier .sprayA) ∧ s.recipeOf 0 = some recipe ∧
       (s.cell .a).state = .ready ∧ s.lmf.mode = .run ∧ (s.cell .a).runMark ≠ some { ix := 0, pass := 1 }) ∧
    (line.cell .a).state ≠ .ready ∧
    (let s := working id sprayed
     (s.cell .a).executing = some (executing .seek) ∧ (executing .seek).phase = .seek ∧ 0 < (executing .seek).feff ∧
       (executing .seek).lead ≠ 0 ∧ (s.cell .a).valveOpen = false) ∧
    ({ executing .seek with lead := 0 } : Executing).lead = 0 ∧ ({ executing .seek with feff := 0 } : Executing).feff = 0 ∧
    (let s := working (fun v => { v with
      executing := some (executing .lead), leadTimer := some (timer 5), valveTimer := some (timer 195), valveOpen := true })
        sprayed
     (s.cell .a).executing = some (executing .lead) ∧ (executing .lead).phase = .lead ∧
       (s.cell .a).leadTimer = some (timer 5) ∧ (s.cell .a).valveOpen = true ∧ (s.cell .a).valveTimer = some (timer 195)) :=
  ⟨⟨by decide, rfl, rfl, rfl, rfl, by decide⟩, by decide, ⟨rfl, rfl, by decide, by decide, rfl⟩, rfl, rfl,
    ⟨rfl, rfl, rfl, rfl, rfl⟩⟩

theorem witness_MotionEndsCreditTheZone :
    let s := working (fun v => { v with executing := some (executing .motion) }) sprayed
    (s.cell .a).executing = some (executing .motion) ∧ (executing .motion).phase = .motion ∧
    (s.cell .a).program = some (program 0 1) ∧ s.rec? (program 0 1).ix = some (carrier .sprayA) ∧
    (carrier .sprayA).status = .active ∧ s.recipeOf (program 0 1).ix = some recipe ∧
    recipe.zones.length = (carrier .sprayA).zones.length ∧ (s.cell .a).buffer[(s.cell .a).exec + 1] = none ∧
    (program 0 1).count ≤ (program 0 1).next + 1 ∧ (s.cell .a).state = .running :=
  ⟨rfl, rfl, rfl, rfl, rfl, rfl, rfl, by decide, by decide, rfl⟩

/-- R80, R68, R83: after a segment's motion an empty slot starves the cell, a segment of kind 0 sends it to FAULTED. -/
theorem test_motion_end_goes_on :
    let s (b : Option Fetched) : State := (working (fun v => { v with
      executing := some (executing .motion), program := some (program 0 2), buffer := v.buffer.set 1 b }) sprayed).motionEnd .a
    ((s none).cell .a).state = .starved ∧ ((s none).cell .a).starveTimer = some { since := 1000, ms := 250 } ∧
      ((s (some { index := 1, bits := 0 })).cell .a).state = .faulted := by decide +kernel

theorem witness_CellFaultsAndStarves :
    (let s := working id sprayed
     (s.cell .a).gantryTimer = some (timer 2000) ∧ (s.cell .a).program = some (program 0 1) ∧ (s.cell .a).state ≠ .faulted) ∧
    (line.cell .a).gantryTimer = none ∧ (line.cell .a).program = none ∧ (line.cell .a).state ≠ .faulted ∧
    (reports 15).length < 16 ∧ ((line.setCell .a { SprayCell.reset with state := .faulted }).cell .a).state = .faulted ∧
    (let s := working (fun v => { v with state := .starved, starveTimer := some (timer 250), executing := none }) sprayed
     (s.cell .a).state = .starved ∧ (s.cell .a).starveTimer = some (timer 250) ∧ (s.cell .a).program = some (program 0 1) ∧
       (s.cell .a).buffer[(s.cell .a).exec] = none ∧ (program 0 1).next < (program 0 1).count ∧
       s.rec? (program 0 1).ix = some (carrier .sprayA)) :=
  ⟨⟨rfl, rfl, by decide⟩, rfl, rfl, by decide, by decide, rfl, ⟨rfl, rfl, rfl, by decide, by decide, rfl⟩⟩

/-! ## Witnesses: the store -/

/-- The line with an access in progress for a host request. -/
def accessing (op : AccessOp) (q : HostReq) : State :=
  { line with rsc := { line.rsc with port := some { who := .host, op := op, since := 999 }, hostReq := some q } }

/-- The line with a host request in execution. -/
def requesting (q : HostReq) : State := { line with rsc := { line.rsc with hostReq := some q } }

/-- The protection of R31 at its three bounds, and a write that it lets through. -/
theorem witness_StoreRequestsEnterExecution :
    let guarded (q b : Nat) : State := { line with rsc := { line.rsc with storeState := .guarded, qCount := q, lockBoundary := b } }
    line.takesRequest .host = true ∧ wellAsked .host (.storeRead 261944 200) = true ∧
    wellAsked .host (.storeWrite 512 [1]) = true ∧ ¬ LockedByRule line 512 [1] ∧ LockedByRule (guarded 0 8) 255 [1] ∧
    LockedByRule (guarded 1 8) 259 [0, 1] ∧ LockedByRule (guarded 0 9) 575 [1] ∧ ¬ LockedByRule (guarded 0 9) 576 [1] ∧
    wellAsked .host (.recipeCheck 64) = true ∧ entryOffset line.rsc.dir 2 = 0 ∧
    (let s (a b : Byte) : State := { line with rsc := { line.rsc with dir := (line.rsc.dir.set 5 a).set 6 b } }
     entryOffset (s 0x01 0xFF).rsc.dir 2 = 511 ∧ entryOffset (s 0x02 0x00).rsc.dir 2 = 512) ∧
    ({ line with rsc := { line.rsc with storeState := .blank } } : State).takesRequest .host = true := by
  refine ⟨rfl, by decide, by decide, fun h => absurd h.1 (by decide), ⟨rfl, .inl (by decide)⟩,
    ⟨rfl, .inr (.inl ⟨⟨259, by decide⟩, 1, by decide, 4, by decide⟩)⟩, ⟨rfl, .inr (.inr ⟨575, by decide⟩)⟩, ?_, by decide,
    by decide, by decide, rfl⟩
  rintro ⟨-, h | ⟨⟨a, h, -, -, h'⟩, -⟩ | ⟨a, h, -, -, h'⟩⟩
  · exact absurd h (by decide)
  · simp at h'; omega
  · simp at h'; omega

theorem witness_GrantsFollowThePrecedence :
    (accessing (.read 512 4) (.read 3 512 4 [])).rsc.port.isSome = true ∧
    (State.reset.rsc.port = none ∧ ∃ u, State.reset.rsc.startUp = some u) ∧
    (let s := sprayed.setCell .a { SprayCell.reset with
      state := .priming, program := some (program 0 1), fetch := .waiting }
     s.rsc.port = none ∧ s.rsc.startUp = none ∧ (s.cell .a).fetch = .waiting ∧ CellId.a ≠ s.rsc.lastFetch ∧
       (s.cell .a).program = some (program 0 1) ∧ (s.live? (program 0 1).ix).isSome = true) ∧
    (requesting (.write 3 500 [1] true)).rsc.hostReq = some (.write 3 500 [1] true) ∧
    (∃ k h w, (atLoad .new).loadNow = some (k, h, w)) ∧ line.loadNow = none ∧ line.rsc.hostReq = none ∧
    (requesting (.read 3 512 4 [])).rsc.hostReq = some (.read 3 512 4 []) ∧
    (let s := requesting (.write 3 527 [1] false)
     s.rsc.port = none ∧ s.rsc.startUp = none ∧ s.fetchTurn = none ∧ s.loadNow = none ∧
       (∃ q r, s.rsc.slots[(0 : SlotIx)] = .valid { recipe := 1, use := 1, lastUse := 0, extents := [⟨512, 16⟩] } q r) ∧
       (527 < 512 + 16 ∧ 512 < 527 + 1) ∧ ¬ (528 < 512 + 16)) :=
  ⟨rfl, ⟨rfl, _, rfl⟩, ⟨rfl, rfl, rfl, by decide, rfl, rfl⟩, rfl, ⟨_, _, _, rfl⟩, rfl, rfl, rfl,
    ⟨rfl, rfl, rfl, rfl, ⟨_, _, rfl⟩, by decide, by decide⟩⟩

theorem witness_AccessesEndOrTimeOut :
    (let s := accessing (.write 262143 [1]) (.write 3 262143 [1] false)
     s.rsc.port = some { who := .host, op := .write 262143 [1], since := 999 } ∧ 262143 + [(1 : Byte)].length ≤ 262144 ∧
       s.rsc.hostReq = some (.write 3 262143 [1] false)) ∧
    (let s := accessing (.read 262140 4) (.read 3 262140 (([] : List Byte).length + 4) [])
     s.rsc.port = some { who := .host, op := .read 262140 4, since := 999 } ∧ 262140 + 4 ≤ 262144 ∧
       s.rsc.hostReq = some (.read 3 262140 (([] : List Byte).length + 4) [])) ∧
    (let s := accessing (.read 512 64) (.read 3 512 65 [])
     s.rsc.hostReq = some (.read 3 512 65 []) ∧ ([] : List Byte).length + 64 < 65) ∧
    (accessing (.read 1024 16) (.check 3 (ChainWalk.begin 3 1024))).rsc.hostReq =
      some (.check 3 (ChainWalk.begin 3 1024)) ∧
    (256 < 256 + 1 ∧ 256 < 512) ∧ ¬ (256 < 255 + 1 ∧ 255 < 512) :=
  ⟨⟨rfl, by decide, rfl⟩, ⟨rfl, by decide, rfl⟩, ⟨rfl, by decide⟩, rfl, by decide⟩

/-- A read in progress for a requestor. -/
def reads (who : Requestor) (x n : Nat) (s : State) : State :=
  { s with rsc := { s.rsc with port := some { who := who, op := .read x n, since := 999 } } }

/-- Cell A with its fetch in progress. -/
def fetching (v : SprayCell → SprayCell) : State :=
  reads (.fetch .a) 600 12 (working (fun x => v { x with fetch := .inProgress }) sprayed)

/-- A record that waits for the load of recipe 3 in slot 1. -/
def loading (w : ChainWalk) : State :=
  reads .loader 262135 9 (withRec { atLoad .new with rsc := { (atLoad .new).rsc with walk := some w } }
    { carrier .load with status := .loading, recipe := 3, slot := none, plan := [] })

/-- A walk at its last section, the last 9 bytes of the store, with every required section found. -/
def atLastSection : ChainWalk :=
  { ChainWalk.begin 3 1024 with
    inSection := true, off := 262135, got := [], count := 5
    sections :=
      { material := some recipe.material, zones := some recipe.zones, spray := some (recipe.progA, recipe.progB)
        mask := recipe.mask, keepout := none, coverage := none, cure := some recipe.cure } }

/-- What a step of a walk comes to: 0 more, 1 done, 2 bad. -/
def stepKind : WalkStep → Nat
  | .more _ _ => 0
  | .done _ _ _ => 1
  | .bad _ _ => 2

/-- The load list with a further load behind the one in progress. -/
def loadingMore (w : ChainWalk) : State :=
  let s := loading w
  { s with rsc := { s.rsc with
    loadList := [1, 2], slots := s.rsc.slots.set 2 (.loading { recipe := 4, use := 1, lastUse := 0, extents := [] }) } }

/-- The end of start-up's header read, and of its directory read. -/
def starting (directory failed : Bool) (grant : Nat) : State :=
  reads .startUp 0 64 { line with rsc := { line.rsc with
    startUp := some { directory := directory, grant := grant, bytes := [], failed := failed, config := LiveConfig.default } } }

theorem witness_AccessesEndOrTimeOut_requestors :
    (let s := fetching id
     s.rsc.port = some { who := .fetch .a, op := .read 600 12, since := 999 } ∧ (s.cell .a).fetch = .inProgress ∧
       (s.cell .a).program = some (program 0 1) ∧ (s.cell .a).state = .running ∧ (s.cell .a).executing.isSome = true ∧
       s.rec? 0 = some (carrier .sprayA) ∧ (carrier .sprayA).status.isLive = true ∧ s.recipeOf 0 = some recipe ∧
       (s.cell .a).valveOpen = false) ∧
    ((fetching fun v => { v with fetch := .stale }).cell .a).fetch = .stale ∧
    (let s := fetching fun v => { v with state := .priming, executing := none, fetchIndex := 0, program := some (program 0 2) }
     (s.cell .a).state = .priming ∧ (s.cell .a).fetchIndex + 1 < 2 ∧ (s.cell .a).buffer[(s.cell .a).fill + 1] = none) ∧
    (let s := fetching fun v => { v with state := .priming, executing := none, fetchIndex := 0 }
     (s.cell .a).state = .priming ∧ (program 0 1).count ≤ (s.cell .a).fetchIndex + 1) ∧
    (let s := fetching fun v => { v with state := .starved, executing := none, fetchIndex := 0 }
     (s.cell .a).state = .starved ∧ (s.cell .a).fill = (s.cell .a).exec) ∧
    (let s := fetching fun v => { v with state := .starved, executing := none, fetchIndex := 0, fill := 1 }
     (s.cell .a).state = .starved ∧ (s.cell .a).fill ≠ (s.cell .a).exec ∧ (s.cell .a).buffer[(s.cell .a).exec] = none) ∧
    (let s := fetching fun v => { v with executing := none, skip := true }
     (s.cell .a).state = .running ∧ (s.cell .a).executing = none) ∧
    (reads .host 1024 16 (requesting (.check 3 (ChainWalk.begin 3 1024)))).rsc.hostReq =
      some (.check 3 (ChainWalk.begin 3 1024)) ∧
    (let s := reads .readBack 508 4 (requesting (.write 3 511 [1] true))
     s.rsc.hostReq = some (.write 3 511 [1] true) ∧ 508 = max 256 (511 / 4 * 4) ∧
       4 = min 512 ((511 + [(1 : Byte)].length + 3) / 4 * 4) - 508) :=
  ⟨⟨rfl, rfl, rfl, rfl, rfl, rfl, rfl, rfl, rfl⟩, rfl, ⟨rfl, by decide, by decide⟩, ⟨rfl, by decide⟩, ⟨rfl, rfl⟩,
    ⟨rfl, by decide, by decide⟩, ⟨rfl, rfl⟩, rfl, ⟨rfl, rfl, rfl⟩⟩

/-- A load alone in the list, and one with a further load behind it, which a good and a bad directory entry meets. -/
theorem witness_AccessesEndOrTimeOut_loader :
    (let s := loading atLastSection
     (∃ k h, s.loadNow = some (k, h, atLastSection) ∧ h.recipe = 3) ∧ s.rsc.loadList = [1] ∧
       ([1] : List SlotIx).Nodup ∧
       (∃ r, s.rec? 0 = some r ∧ r.status = .loading ∧ r.removalPending = false ∧ r.recipe = 3) ∧
       ∀ j q, j ≠ 0 → s.rec? j = some q → q.status = .loading → q.recipe ≠ 3 ∧ q.removalPending = false) ∧
    (let s := loadingMore atLastSection
     (∃ h, s.loadNow = some (1, h, atLastSection) ∧ h.recipe = 3) ∧ s.rsc.loadList = [1, 2] ∧
       ([1, 2] : List SlotIx).Nodup) ∧
    stepKind (atLastSection.take [9, 1, 0, 0, 0, 0, 0, 0, 0]) = 1 ∧
    stepKind (atLastSection.take [1, 2, 0, 0, 0, 0, 0, 0, 0]) = 2 ∧
    (nextLoadByRule (Vector.replicate 256 0) [2] (loadingMore atLastSection).rsc.slots).2.1 = none ∧
    (nextLoadByRule ((Vector.replicate 256 0).set 13 4) [2] (loadingMore atLastSection).rsc.slots).2.1 =
      some (ChainWalk.begin 4 1024) :=
  ⟨⟨⟨_, _, rfl, rfl⟩, rfl, by decide, ⟨_, rfl, rfl, rfl, rfl⟩, fun _ _ hj h => absurd (withRec_only h).1 hj⟩,
    ⟨⟨_, rfl, rfl⟩, rfl, by decide⟩, by decide, by decide, by decide, by decide⟩

/-- A header of zeros is that of a blank store, eight bytes with the CRC 0 that of another. -/
theorem witness_AccessesEndOrTimeOut_startUp :
    (∃ v, (starting false false 0).rsc.startUp = some v ∧ v.grant < 3) ∧
    (∃ v, (starting false false 3).rsc.startUp = some v ∧ v.grant = 3 ∧ v.directory = false ∧ v.failed = false ∧
      storeStateOf (v.bytes ++ List.replicate 64 0) = .blank) ∧
    (∃ v, (starting false true 3).rsc.startUp = some v ∧ v.grant = 3 ∧ v.directory = false ∧ v.failed = true) ∧
    (∃ v, (starting true false 3).rsc.startUp = some v ∧ v.grant = 3 ∧ v.directory = true) ∧
    storeStateOf [0x40, 0, 0, 0, 8, 0, 0xED, 0xA9] ≠ .blank :=
  ⟨⟨_, rfl, by decide⟩, ⟨_, rfl, rfl, rfl, rfl, by decide⟩, ⟨_, rfl, rfl, rfl, rfl⟩, ⟨_, rfl, rfl, rfl⟩,
    by decide +kernel⟩

/-! ## Witnesses: sensors, tags and moves -/

/-- The line with a tag read in progress. -/
def reading (s : State) (p : Place) (why : ReadFor) (n : Nat) : State :=
  { s with ltk := { s.ltk with reads := [{ place := p, why := why, attempt := n }] } }

/-- A carrier whose move is in flight. -/
def moving (src dst : Place) : State :=
  let s := withRec line { carrier src with position := .inTransit src dst }
  { s with ltk := { s.ltk with moves := [{ ix := 0, src := src, dst := dst, drive := .driven (timer 20000) }] } }

theorem witness_SensorLevelsAreTaken :
    line.present .load = false ∧ State.reset.starting = true ∧ line.recordAt .load = none ∧
    (∃ m ∈ (moving .load .mask).ltk.moves, m.src = .load) ∧ line.recordAt .unload = none ∧
    (∀ m ∈ line.ltk.moves, m.src ≠ .unload) ∧ Place.unload ≠ .load ∧
    (let s := reading line .load .arrival 2
     s.present .load = false ∧ (s.readAt .load).map TagReadJob.why = some .arrival ∧ s.starting = false ∧
       s.recordAt .load = none) ∧
    (let s := withRec line (carrier .mask)
     s.present .mask = false ∧ (∀ m ∈ s.ltk.moves, m.dst ≠ .mask) ∧ Place.hasSensor .mask = true ∧ s.starting = false ∧
       s.recordAt .mask = some 0) := by
  refine ⟨rfl, rfl, by decide, ⟨_, List.mem_singleton.2 rfl, rfl⟩, by decide, nofun, by decide,
    ⟨rfl, rfl, rfl, by decide⟩, rfl, nofun, rfl, rfl, by decide⟩

/-- R8: the read of a lifted carrier goes on, and its third failed attempt queues LOAD_ARRIVAL without a LOAD entry. -/
theorem test_lifted_arrival_is_reported :
    let s := (reading (line.setSensor .load true) .load .arrival 3).loadClear
    let t := s.readEnd .load none
    t.liu.reports.map Report.body = [.loadArrival none .unreadable] ∧ t.ltk.loadEntry = none ∧ t.ltk.reads = [] := by
  decide +kernel

/-- The third attempt, and the second; LOAD clear, and present. -/
theorem witness_TagReadsMatchAndCheck :
    ((reading line .load .arrival 3).readAt .load = some { place := .load, why := .arrival, attempt := 3 } ∧ 3 ≤ 3 ∧
      (∀ i, line.rec? i = none) ∧ (reading line .load .arrival 3).present .load = false ∧
      (reading (line.setSensor .load true) .load .arrival 3).present .load = true) ∧
    ((reading line .load .arrival 2).readAt .load = some { place := .load, why := .arrival, attempt := 2 } ∧ 2 < 3 ∧
      (withRec line (carrier .mask)).recordOfTag 7 = some 0 ∧
      (withRec line (carrier .mask)).rec? 0 = some (carrier .mask) ∧
      ∀ h, (carrier .mask).hold = some h → h.state ≠ .disposed) ∧
    ((reading line .mask (.check 0) 3).readAt .mask = some { place := .mask, why := .check 0, attempt := 3 } ∧
      (carrier .mask).status.isLive = true ∧ (carrier .mask).tagId = 7 ∧ (8 : TagId) ≠ 7 ∧
      line.liu.reports.length < 16 ∧ Place.isLiftPlace .mask = false) :=
  by decide +kernel

/-- A check at UNLOAD without and with a hold, and at a bench position. -/
theorem witness_TagReadsMatchAndCheck_bench :
    (let r : CarrierRecord := { carrier .unload with cureVerdict := .cured }
     let s := reading (withRec line r) .unload (.check 0) 1
     s.readAt .unload = some { place := .unload, why := .check 0, attempt := 1 } ∧ s.rec? 0 = some r ∧ r.hold = none ∧
       r.status = .active ∧ r.cureVerdict = .cured ∧ ({ carrier .unload with hold := some hold } : CarrierRecord).hold = some hold) ∧
    (let r : CarrierRecord := { carrier (.bench 3) with hold := some hold }
     let s := reading (withRec line r) (.bench 3) (.check 0) 1
     s.readAt (.bench 3) = some { place := .bench 3, why := .check 0, attempt := 1 } ∧ s.rec? 0 = some r ∧ r.hold = some hold) :=
  ⟨⟨by decide, rfl, rfl, rfl, rfl, rfl⟩, by decide, rfl, rfl⟩

theorem witness_ReentryBeginsTheNextPass :
    let h : Hold := { hold with state := .disposed, disposition := some (ruling .recure) }
    let r : CarrierRecord := { carrier .offline with hold := some h }
    let s := reading (withRec line r) .load .arrival 1
    s.readAt .load = some { place := .load, why := .arrival, attempt := 1 } ∧ s.recordOfTag 7 = some 0 ∧
    s.rec? 0 = some r ∧ r.status = .active ∧ r.hold = some h ∧ h.state = .disposed ∧
    h.disposition = some (ruling .recure) ∧ s.recipeOf 0 = some recipe ∧ (1 : Byte).toNat = (0 : RecIx).val + 1 :=
  ⟨rfl, by decide, rfl, rfl, rfl, rfl, rfl, rfl, rfl⟩

/-- The write of a re-entry at its third attempt, with LANE1 one short of the limit or both lanes at it. -/
theorem witness_ReentryBeginsTheNextPass_write :
    let j : TagWriteJob := { place := .load, value := 0, why := .reentry 0 (some .recure), attempt := 3 }
    let bound (n : Nat) : State := { withRec line (carrier .load) with
      ltk := { (withRec line (carrier .load)).ltk with writes := [j] }
      ctc := { line.ctc with lane1 := { Lane.reset with cls := some 3, bound := n }, lane2 := { Lane.reset with cls := some 1, bound := 8 } } }
    (bound 7).ltk.writes = [] ++ j :: [] ∧ (bound 7).rec? 0 = some (carrier .load) ∧ (bound 7).recipeOf 0 = some recipe ∧
    0 < recipe.progA.count ∧ ChosenByRule (bound 7) 3 8 .lane1 ∧ ∀ l, ¬ EligibleByRule (bound 8) 3 8 l := by
  refine ⟨rfl, rfl, rfl, by decide, ⟨⟨.inl rfl, by decide⟩, ?_⟩, fun l => ?_⟩
  · intro l hl h
    cases l with
    | lane1 => exact absurd rfl hl
    | lane2 => exact absurd h.2 (by decide)
  · cases l <;> exact fun h => absurd h.2 (by decide)

theorem witness_TagWritesAreTriedThreeTimes :
    let j (why : WriteFor) (n : Nat) : TagWriteJob := { place := .unload, value := 1, why := why, attempt := n }
    let s (k : TagWriteJob) : State :=
      { withRec line { carrier .unload with hold := some hold } with
        ltk := { (withRec line { carrier .unload with hold := some hold }).ltk with writes := [k] } }
    (s (j (.closing 0) 3)).ltk.writes = [] ++ j (.closing 0) 3 :: [] ∧ 3 ≤ (j (.closing 0) 3).attempt ∧
    (s (j (.holdMark 0 true) 2)).ltk.writes = [] ++ j (.holdMark 0 true) 2 :: [] ∧
    (j (.holdMark 0 true) 2).attempt < 3 ∧ (none : Option Byte) ≠ some 1 ∧
    (s (j (.holdMark 0 true) 2)).rec? 0 = some { carrier .unload with hold := some hold } ∧
    (withRec line { carrier .unload with status := .done .removed }).live? 0 = none ∧
    (atLoad .marked).ltk.loadEntry = some { tag := some ⟨9, 0⟩, result := .marked, takenBy := none } ∧
    (∀ i : RecIx, (atLoad .marked).rec? i = none) ∧ line.ltk.loadEntry = none :=
  ⟨rfl, by decide, rfl, by decide, by decide, rfl, rfl, rfl, by decide, rfl⟩

/-- LOAD releases an ACTIVE carrier to a free MASK; a carrier at MASK that INSPECT outranks gives way. -/
theorem witness_MovesBeginWhenAllowed :
    (let r : CarrierRecord := { carrier .load with plan := [.mask, .inspect] }
     let s := withRec line r
     s.rec? 0 = some r ∧ r.position = .standing .load ∧ MayMove s 0 r .load .mask ∧ ¬ GivesWay s 0 .load .mask) ∧
    (let r : CarrierRecord := { carrier .load with plan := [.wetq] }
     let q : CarrierRecord := { carrier .inspect with plan := [.wetq], tagId := 8 }
     let u := (withRec (lineIn .pause) r).setRec 1 (some q)
     let s := u.setHead .inspect { Head.reset with given := some { ix := 1, pass := 1 } }
     MayMove s 0 r .load .wetq ∧ GivesWay s 0 .load .wetq) ∧
    (let s := (withRec line (carrier .mask)).setQueue [0]
     s.hmg.queue = [0] ∧ LowestBench s 0 ∧ (carrier .mask).status.isLive = true ∧ s.lmf.mode = .run) ∧
    line.hmg.queue = [] ∧ (lineIn .stop).lmf.mode = .stop := by
  refine ⟨⟨rfl, rfl, ⟨rfl, rfl, by simp [PlanLeads], rfl, by decide, .inl rfl, ?_, nofun, rfl⟩, ?_⟩,
    ⟨⟨rfl, rfl, by simp [PlanLeads], rfl, by decide, .inr ⟨rfl, rfl⟩, Nat.zero_lt_succ 2⟩,
      ⟨1, _, .inspect, by decide, rfl,
        ⟨rfl, rfl, by simp [PlanLeads], rfl, by decide, .inr ⟨rfl, rfl⟩, Nat.zero_lt_succ 2⟩, by decide⟩⟩,
    ⟨rfl, ⟨⟨fun i r h _ => ?_, nofun, rfl⟩, fun m h => absurd h (Fin.not_lt_zero m)⟩, rfl, rfl⟩, rfl, rfl⟩
  · intro i r h _
    rw [(withRec_only h).2]
    exact nofun
  · rintro ⟨j, q, src, hj, h, -⟩
    exact hj (withRec_only h).1
  · rw [(withRec_only (r := carrier .mask) h).2]
    exact nofun

theorem witness_MovesEndAtTheirTarget :
    (let s := moving .load .mask
     s.moveOf 0 = some { ix := 0, src := .load, dst := .mask, drive := .driven (timer 20000) } ∧
       onLane .load = false ∧ onLane .mask = false ∧ ∃ r, s.rec? 0 = some r) ∧
    (let s : State := { moving .lane1 .unload with ctc := { line.ctc with exitHolder := some 0 } }
     s.ctc.exitHolder = some 0 ∧ Place.unload ≠ .wetq ∧
       s.moveOf 0 = some { ix := 0, src := .lane1, dst := .unload, drive := .driven (timer 20000) }) :=
  ⟨⟨rfl, rfl, rfl, _, rfl⟩, rfl, by decide, rfl⟩

theorem witness_TransportAndCarrierFaults :
    line.moveTimer 0 = none ∧ (moving .load .mask).moveTimer 0 = some (timer 20000) ∧
    (∃ r, (moving .load .mask).rec? 0 = some r) ∧ (moving .load .mask).liu.reports.length < 28 ∧
    (let s := (working id sprayed).setSensor .sprayA true
     s.recordAt .sprayA = some 0 ∧ s.rec? 0 = some (carrier .sprayA) ∧ s.present .sprayA = true ∧
       Place.isStation .sprayA = true ∧ cellPlace .a = .sprayA ∧ (s.cell .a).program = some (program 0 1)) ∧
    (let s := (withRec line (carrier .unload)).setSensor .unload true
     s.recordAt .unload = some 0 ∧ s.present .unload = true ∧ Place.isLiftPlace .unload = true) :=
  ⟨rfl, rfl, ⟨_, rfl⟩, by decide, ⟨by decide, rfl, rfl, rfl, rfl, rfl⟩, ⟨by decide, rfl, rfl⟩⟩

/-! ## Witnesses: the inspection heads -/

/-- The mask head at a walk over one point, or over one point twice. -/
def walking (m : WalkMode) (todo : List Nat) (st : PointState) (v : Head → Head) : State :=
  let e : WalkPoint :=
    { list := .mask, place := 0, point := cap, channel := 0, attempt := 2, state := st, verdict := none }
  (withRec line (carrier .mask)).setHead .mask (v { Head.reset with
    state := .walking
    walk := some
      { ix := 0, pass := 1, mode := m, points := [e, { e with channel := 1 }], group := [0], todo := todo, nextGroup := 1
        retries := 0, spurious := 255, started := 1000 } })

theorem witness_WalksStartAndTrigger :
    (let s := withRec line (carrier .mask)
     s.recordAt (headPlace .mask) = some 0 ∧ s.rec? 0 = some (carrier .mask) ∧ s.recipeOf 0 = some recipe ∧
       (s.head .mask).state = .idle ∧ s.lmf.mode = .run ∧ (carrier .mask).status = .active ∧
       (carrier .mask).tagCheck = .passed ∧ (s.head .mask).given ≠ some { ix := 0, pass := 1 } ∧
       (walkOf .mask recipe).2 ≠ [] ∧ (walkOf .inspect recipe).2 = []) ∧
    (lineIn .pause).lmf.mode ≠ .run ∧
    (let s := walking .full [0] .waiting fun v => { v with posTimer := some (timer 1000) }
     (∃ w e, (s.head .mask).walk = some w ∧ w.todo = [0] ∧ w.points[0]? = some e) ∧
       (s.head .mask).posTimer = some (timer 1000)) :=
  ⟨⟨by decide, rfl, rfl, rfl, rfl, rfl, rfl, by decide, by decide, rfl⟩, by decide, ⟨⟨_, _, rfl, rfl, rfl⟩, rfl⟩⟩

theorem witness_ResultsAreTakenAndRetried :
    (line.head .mask).walk = none ∧ (line.head .mask).groupTimer = none ∧
    (let s := walking .full [1] .triggered fun v => { v with pending := v.pending.set 0 (some 0) }
     (s.head .mask).pending[(0 : Fin 4)] = some 0 ∧ (s.head .mask).slots[(0 : Fin 4)] = none ∧
       (s.head .mask).state ≠ .evaluating ∧ (s.head .mask).pending[(3 : Fin 4)] = none ∧
       ∃ w, (s.head .mask).walk = some w ∧ w.mode = .full) ∧
    (let s := walking .firstFail [1] .triggered fun v => { v with
      pending := v.pending.set 0 (some 0), resultTimers := v.resultTimers.set 0 (some (timer 200)) }
     (∃ w e, (s.head .mask).walk = some w ∧ w.mode = .firstFail ∧ w.points[0]? = some e ∧ e.list = .mask ∧
       e.point.kind = .cap ∧ ((99 : BitVec 10).toNat < e.point.low ∧ e.point.high < (201 : BitVec 10).toNat) ∧
       e.attempt < 3 ∧ w.todo ≠ []) ∧ (s.head .mask).pending[(0 : Fin 4)] = some 0 ∧
       (s.head .mask).resultTimers[(0 : Fin 4)] = some (timer 200) ∧ (s.live? 0).isSome = true ∧ s.ctc.waiting = none) ∧
    (let s := walking .full [] .triggered fun v => { v with
      state := .evaluating, pending := v.pending.set 0 (some 0), groupTimer := some (timer 200) }
     ∃ w e, (s.head .mask).walk = some w ∧ w.mode = .full ∧ w.group = [0] ∧ w.points[0]? = some e ∧
       e.state = .triggered ∧ e.attempt < 3 ∧ (s.head .mask).groupTimer = some (timer 200)) :=
  ⟨rfl, rfl, ⟨rfl, rfl, by decide, rfl, _, rfl, rfl⟩,
    ⟨⟨_, _, rfl, rfl, rfl, rfl, rfl, by decide, by decide, by decide⟩, rfl, rfl, rfl, rfl⟩,
    ⟨_, _, rfl, rfl, rfl, rfl, rfl, by decide, rfl⟩⟩

/-- The fifth point waits while the first four are evaluated; the last of two points passes, or has had its third attempt;
a keep-out reading one above its threshold. -/
theorem witness_ResultsAreTakenAndRetried_ends :
    let e : WalkPoint := { list := .mask, place := 0, point := cap, channel := 0, attempt := 1, state := .landed, verdict := none }
    (let w : WalkTable :=
       { ix := 0, pass := 1, mode := .full, points := [{ e with state := .triggered }, { e with channel := 1 }, e, e, e]
         group := [0, 1], todo := [], nextGroup := 1, retries := 0, spurious := 0, started := 1000 }
     4 * w.nextGroup < w.points.length ∧ w.group.Nodup ∧
       ∀ j ∈ w.group, ∃ x, w.points[j]? = some x ∧ (x.channel = 0 ↔ j = 0) ∧ (j ≠ 0 → x.state = .landed) ∧
         ∀ j' ∈ w.group, ∀ x', w.points[j']? = some x' → x'.channel = x.channel → j' = j) ∧
    (let w : WalkTable :=
       { ix := 0, pass := 1, mode := .firstFail
         points := [{ e with state := .triggered, attempt := 3 }, { e with state := .judged, verdict := some .present }]
         group := [0, 1], todo := [], nextGroup := 1, retries := 0, spurious := 0, started := 1000 }
     (∀ j y, j ≠ 0 → w.points[j]? = some y → y.state = .judged ∧ y.verdict = some .present) ∧
       w.points.length ≤ 4 * w.nextGroup ∧ (∀ j ∈ w.group, j < w.points.length) ∧ 3 ≤ 3 ∧
       cap.low ≤ (100 : BitVec 10).toNat ∧ (200 : BitVec 10).toNat ≤ cap.high) ∧
    (let p : Point := { cap with kind := .keepout, low := 0, high := 50 }
     p.kind = .keepout ∧ p.high < (51 : BitVec 10).toNat) := by
  refine ⟨⟨by decide, by decide, fun j hj => ?_⟩, ⟨fun j y hj h => ?_, by decide, by decide, by decide, by decide, by decide⟩,
    rfl, by decide⟩
  · rcases List.mem_pair.1 hj with rfl | rfl <;> refine ⟨_, rfl, by decide, by decide, fun j' hj' x' h h' => ?_⟩ <;>
      rcases List.mem_pair.1 hj' with rfl | rfl <;> first | rfl | (cases h; exact absurd h' (by decide))
  · match j, hj with
    | 1, _ => cases h; exact ⟨rfl, rfl⟩
    | j + 2, _ => cases h

/-! ## Witnesses: the cure tunnel -/

/-- LANE1 with the record of index 0. -/
def onBelt (mm : Nat) (v : CarrierRecord → CarrierRecord) : State :=
  (withRec line (v { carrier .lane1 with
    lane := some .lane1, posInLane := some mm, plan := [.exit], tagCheck := .passed })).setLane .lane1
      { Lane.reset with cls := some 3, bound := 1, state := .running, order := [0], lastEntry := some 350 }

/-- A record on a belt stands in the order of its own lane alone. -/
theorem witness_RemoveMarkClearAndTraceTake_onBelt :
    let s := onBelt 300 id
    (∃ r, s.rec? 0 = some r ∧ r.status = .active ∧ ∀ l, (0 : RecIx) ∈ (s.lane l).order → r.lane = some l) ∧
    (0 : RecIx) ∈ (s.lane .lane1).order ∧ ∀ h, (s.head h).walk = none := by
  refine ⟨⟨_, rfl, rfl, fun l h => ?_⟩, by decide, fun h => by cases h <;> rfl⟩
  cases l with
  | lane1 => rfl
  | lane2 => cases h

theorem witness_CarriersEnterAndAdvance :
    (let r : CarrierRecord := { carrier .wetq with lane := some .lane1, plan := [.lane, .exit] }
     let u := (withRec line r).setLane .lane1 { Lane.reset with
       cls := some 3, bound := 1, state := .running, lastEntry := some 350 }
     let s : State := { u with
       ctc := { u.ctc with wetQueue := [0], lamp := { u.ctc.lamp with state := .ready } } }
     s.rec? 0 = some r ∧ r.status.isLive = true ∧ s.ctc.wetQueue = [0] ∧ r.lane = some .lane1 ∧
       (s.lane .lane1).state = .running ∧ s.ctc.lamp.state = .ready ∧ (s.lane .lane1).lastEntry = some 350 ∧ 350 ≤ 350 ∧
       (∀ m ∈ s.ltk.moves, onLane m.dst = false) ∧ s.lmf.mode = .run ∧ r.tagCheck ≠ .failed) ∧
    (let s := moving .wetq .lane1
     s.ltk.moves = [] ++ { ix := 0, src := .wetq, dst := lanePlace .lane1, drive := .driven (timer 20000) } :: []) ∧
    line.ctc.wetQueue = [] ∧
    (let s := onBelt 4799 id
     (s.lane .lane1).order.Nodup ∧ s.mmOf 0 + 1 = 4800 ∧ ((s.rec? 0).bind CarrierRecord.posInLane).isSome = true ∧
       ({ s with ctc := { s.ctc with exitHolder := some 1 } } : State).ctc.exitHolder.isSome = true) ∧
    (onBelt 4800 id).mmOf 0 + 1 ≠ 4800 := by
  refine ⟨⟨rfl, rfl, rfl, rfl, rfl, rfl, rfl, by decide, nofun, rfl, by decide⟩, rfl, rfl,
    ⟨by decide, by decide, rfl, rfl⟩, by decide⟩

/-- The fourth and the fifth low sample; the last mm of the UV zone and the first of zone 1. -/
theorem witness_SamplesAddDose :
    (let s := onBelt 199 id
     (s.ctc.lane1.order ++ s.ctc.lane2.order).Nodup ∧ (0 : RecIx) ∈ s.ctc.lane1.order ++ s.ctc.lane2.order ∧
       (∃ r, s.rec? 0 = some r ∧ r.status.isLive = true ∧ r.posInLane = some 199)) ∧
    (let lamp (n : Nat) : Lamp := { line.ctc.lamp with state := .ready, count := n }
     (lamp 4).state = .ready ∧ 4 ≤ (lamp 4).count ∧ (lamp 3).count < 4) ∧
    (let lamp (n : Nat) : Lamp := { line.ctc.lamp with state := .low, count := n }
     (lamp 4).state = .low ∧ 4 ≤ (lamp 4).count ∧ (lamp 3).count < 4) ∧
    (let s := onBelt 200 id
     (∃ r, s.rec? 0 = some r ∧ r.status.isLive = true ∧ r.posInLane = some 200) ∧ s.recipeOf 0 = some recipe) ∧
    (reports 7).length < 8 ∧
    (let zone (mm : Nat) : Nat := if mm < 1350 then 0 else if mm < 2500 then 1 else if mm < 3650 then 2 else 3
     zone 200 = 0 ∧ zone 1349 = 0 ∧ zone 1350 = 1 ∧ zone 2499 = 1 ∧ zone 2500 = 2 ∧ zone 3649 = 2 ∧ zone 3650 = 3 ∧
       zone 4800 = 3) :=
  ⟨⟨by decide, by decide, _, rfl, rfl, rfl⟩, by decide, by decide, ⟨⟨_, rfl, rfl, rfl⟩, rfl⟩, by decide, by decide⟩

theorem witness_LampWarmsUpAndFaults :
    (let s : State := { line with ctc := { line.ctc with
       measured := 39, lamp := { line.ctc.lamp with state := .warming, warmUp := some (timer 60000) } } }
     s.ctc.lamp.state = .warming ∧ s.ctc.lamp.warmUp = some (timer 60000) ∧ s.ctc.measured < s.rsc.live.lampMin ∧
       s.rsc.live.lampMin ≤ 40) ∧
    (line.setBallast true).ctc.lamp.ballastFault = true ∧ line.ctc.lamp.ballastFault = false ∧
    line.ctc.lamp.state ≠ .fault ∧
    ({ line with ctc := { line.ctc with lamp := { line.ctc.lamp with state := .fault } } } : State).ctc.lamp.state = .fault :=
  ⟨⟨rfl, rfl, by decide, by decide⟩, rfl, rfl, by decide, rfl⟩

/-- A front whose doses are short goes to the lowest bench position; without a front nothing is granted. -/
theorem witness_ExitTransfersGiveTheVerdict :
    (∀ l t, ¬ GrantedByRule line l t) ∧
    (let u := onBelt 4800 id
     let s := u.setLane .lane1 { u.lane .lane1 with arrival := some 990, state := .blocked }
     (∀ l i rest, (s.lane l).order = i :: rest → (s.rec? i).isSome = true ∧ (s.recipeOf i).isSome = true) ∧
       GrantedByRule s .lane1 990 ∧ (s.lane .lane1).order = [0] ∧ (0 : RecIx) ∉ ([] : List RecIx) ∧
       ExitTarget s 0 (.bench 0) ∧ (∃ r, s.rec? 0 = some r ∧ r.status = .active ∧ r.lane = some .lane1) ∧
       s.recipeOf 0 = some recipe ∧ s.ctc.waiting = none) := by
  refine ⟨fun l t h => ?_, ?_⟩
  · obtain ⟨-, -, ⟨i, rest, _, h, -⟩, -⟩ := h
    cases l <;> cases h
  · intro u s
    have free : ∀ n : BenchIx, FreeByRule s (.bench n) := fun n =>
      ⟨fun i r h _ => by
        have h' : u.rec? i = some r := h
        rw [(withRec_only h').2]
        exact nofun, nofun, by revert n; decide⟩
    have low : LowestBench s 0 := ⟨free 0, fun m h => absurd h (Fin.not_lt_zero m)⟩
    have target : ExitTarget s 0 (.bench 0) := by
      refine ⟨fun ⟨r, p, hr, hp, _, hc⟩ => ?_, fun _ => .inl ⟨rfl, 0, low, rfl⟩⟩
      cases hr
      cases hp
      exact absurd hc (by decide)
    refine ⟨fun l i rest h => ?_, ⟨rfl, by decide, ⟨0, [], .bench 0, rfl, rfl, target, free 0⟩, fun l t hl h => ?_⟩, rfl,
      by decide, target, ⟨_, rfl, rfl, rfl⟩, rfl, rfl⟩
    · cases l <;> cases h
      exact ⟨rfl, rfl⟩
    · obtain ⟨i, rest, _, h, -⟩ := h
      cases l with
      | lane1 => exact absurd rfl hl
      | lane2 => cases h

theorem witness_RatesInterpolateTheTable :
    rates.length = 16 ∧ (∀ r ∈ rates, r ≤ 1000) ∧ (399 : Int) < 400 ∧ (1900 : Int) ≤ 1900 ∧
      (400 : Int) = 400 + 100 * ((0 : Nat) : Int) + ((0 : Nat) : Int) ∧
      (1899 : Int) = 400 + 100 * ((14 : Nat) : Int) + ((99 : Nat) : Int) := by decide

theorem witness_CureChecksFilmAndVerdicts :
    (onBelt 4800 id).recipeOf 0 = some recipe ∧ (∃ r, (onBelt 4800 id).rec? 0 = some r) ∧
      ({ area := 100, low := 500, high := 500 } : ZoneSpec).low ≤ 500 ∧ recipe.material.solids ≤ 1000 ∧
      recipe.material.efficiency ≤ 100 := ⟨rfl, ⟨_, rfl⟩, by decide, by decide, by decide⟩

/-! ## Single steps -/

/-- R168, R190: the ends of both ranges. -/
theorem test_lineConfig :
    sent (exec (.lineConfig .host 1 4 2000) (lineIn .idle)) = some .ok ∧
    sent (exec (.lineConfig .host 1 5 2000) (lineIn .idle)) = some .badValue ∧
    sent (exec (.lineConfig .host 1 4 2001) (lineIn .idle)) = some .badValue ∧
    sent (exec (.lineConfig .host 1 4 2000) line) = some .wrongMode := by decide

/-- R12: ADMIT takes the carrier, and a second one finds the entry taken. -/
theorem test_admit :
    sent (exec (.admitCarrier .host 1 9 2 [0x41]) (atLoad .new)) = some .ok ∧
    sent (exec (.admitCarrier .host 1 9 2 [0x41]) (atLoad .marked)) = some .marked ∧
    sent (exec (.admitCarrier .host 1 8 2 [0x41]) (atLoad .new)) = some .notFound := by decide

/-- R50, R55, R58: a mask reading of 99 below a low count of 100 fails the mask. -/
theorem test_mask_reading :
    readingVerdict cap 99 = .absent ∧ readingVerdict cap 100 = .present ∧ readingVerdict cap 200 = .present ∧
      readingVerdict cap 201 = .misplaced := by decide

/-- R114: a pulse moves the front from 4,799 to 4,800 mm. -/
theorem test_pulse :
    (match exec (.encoderPulse .lane1) (onBelt 4798 id) with
      | .next t => t.mmOf 0
      | _ => 0) = 4799 := by decide

end Sys2Proof.Tests
end

section
/-! SUPPORT. What leaves the Line Tracker as it is, and which operations keep the tag ID of every record in use and the
LOAD entry (R5, R8). -/

namespace Sys2Proof.Machine

/-! ## What leaves the Line Tracker as it is -/

@[simp] theorem State.queueReport_ltk (s : State) (body : ReportBody) : (s.queueReport body).ltk = s.ltk :=
  (s.queueReport_keeps body).ltk rfl
@[simp] theorem State.expire_ltk (s : State) (t : Timer) : (s.expire t).ltk = s.ltk := (s.expire_keeps t).ltk rfl
@[simp] theorem State.noteFault_ltk (s : State) (code : FaultCode) (origin : Origin) (detail : FaultDetail) :
    (s.noteFault code origin detail).ltk = s.ltk :=
  (s.noteFault_keeps code origin detail).ltk rfl
@[simp] theorem State.holdChanged_ltk (s : State) (i : RecIx) (cause : HoldCause) :
    (s.holdChanged i cause).ltk = s.ltk :=
  (s.holdChanged_keeps i cause).ltk rfl
@[simp] theorem State.seat_ltk (s : State) (n : BenchIx) (i : RecIx) : (s.seat n i).ltk = s.ltk :=
  (s.seat_keeps n i).ltk rfl
@[simp] theorem State.unseat_ltk (s : State) (i : RecIx) : (s.unseat i).ltk = s.ltk := (s.unseat_keeps i).ltk rfl
@[simp] theorem State.dropMarks_ltk (s : State) (i : RecIx) : (s.dropMarks i).ltk = s.ltk :=
  (s.dropMarks_keeps i).ltk rfl
@[simp] theorem State.leaveStation_ltk (s : State) (src : Place) (i : RecIx) : (s.leaveStation src i).ltk = s.ltk :=
  (s.leaveStation_keeps src i).ltk rfl
@[simp] theorem State.laneReport_ltk (s : State) (l : LaneId) (cause : LaneCause) :
    (s.laneReport l cause).ltk = s.ltk :=
  (s.laneReport_keeps l cause).ltk rfl
@[simp] theorem State.deriveLane_ltk (s : State) (l : LaneId) (cause : LaneCause) :
    (s.deriveLane l cause).ltk = s.ltk :=
  (s.deriveLane_keeps l cause).ltk rfl
@[simp] theorem State.setClass_ltk (s : State) (l : LaneId) (c : Option Nat) (cause : LaneCause) :
    (s.setClass l c cause).ltk = s.ltk :=
  (s.setClass_keeps l c cause).ltk rfl
@[simp] theorem State.dropWaiting_ltk (s : State) (i : RecIx) : (s.dropWaiting i).ltk = s.ltk :=
  (s.dropWaiting_keeps i).ltk rfl
@[simp] theorem State.freeExit_ltk (s : State) (i : RecIx) : (s.freeExit i).ltk = s.ltk :=
  (s.freeExit_keeps i).ltk rfl
@[simp] theorem State.modHead_ltk (s : State) (h : HeadId) (f : Head → Head) : (s.modHead h f).ltk = s.ltk :=
  (s.modHead_keeps h f).ltk rfl
@[simp] theorem State.abandonWalk_ltk (s : State) (h : HeadId) : (s.abandonWalk h).ltk = s.ltk :=
  (s.abandonWalk_keeps h).ltk rfl
@[simp] theorem State.abandonWalkOf_ltk (s : State) (h : HeadId) (i : RecIx) : (s.abandonWalkOf h i).ltk = s.ltk :=
  (s.abandonWalkOf_keeps h i).ltk rfl
@[simp] theorem State.dropWalks_ltk (s : State) (i : RecIx) : (s.dropWalks i).ltk = s.ltk :=
  (s.dropWalks_keeps i).ltk rfl
@[simp] theorem State.beginGroup_ltk (s : State) (h : HeadId) (g : List Nat) : (s.beginGroup h g).ltk = s.ltk :=
  (s.beginGroup_keeps h g).ltk rfl
@[simp] theorem State.retryPoint_ltk (s : State) (h : HeadId) (ix : RecIx) (k : Nat) :
    (s.retryPoint h ix k).ltk = s.ltk :=
  (s.retryPoint_keeps h ix k).ltk rfl
@[simp] theorem State.judgePoint_ltk (s : State) (h : HeadId) (k : Nat) (verdict : PointVerdict) :
    (s.judgePoint h k verdict).ltk = s.ltk :=
  (s.judgePoint_keeps h k verdict).ltk rfl
@[simp] theorem State.judgeFull_ltk (s : State) (h : HeadId) (ix : RecIx) (k : Nat) (e : WalkPoint) :
    (s.judgeFull h ix k e).ltk = s.ltk :=
  (s.judgeFull_keeps h ix k e).ltk rfl
@[simp] theorem State.judgeGroup_ltk (s : State) (h : HeadId) (w : WalkTable) (x : List Nat) :
    (s.judgeGroup h w x).ltk = s.ltk :=
  (s.judgeGroup_keeps h w x).ltk rfl
@[simp] theorem State.passOver_ltk (s : State) (h : HeadId) (k : Nat) : (s.passOver h k).ltk = s.ltk :=
  (s.passOver_keeps h k).ltk rfl
@[simp] theorem State.spurious_ltk (s : State) (h : HeadId) (ix : RecIx) : (s.spurious h ix).ltk = s.ltk :=
  (s.spurious_keeps h ix).ltk rfl
@[simp] theorem State.positionerArrival_ltk (s : State) (h : HeadId) (answers : Bool) :
    (s.positionerArrival h answers).ltk = s.ltk :=
  (s.positionerArrival_keeps h answers).ltk rfl
@[simp] theorem State.positionTimeout_ltk (s : State) (h : HeadId) : (s.positionTimeout h).ltk = s.ltk :=
  (s.positionTimeout_keeps h).ltk rfl
@[simp] theorem State.clearHead_ltk (s : State) (h : HeadId) : (s.clearHead h).ltk = s.ltk :=
  (s.clearHead_keeps h).ltk rfl
@[simp] theorem State.modCell_ltk (s : State) (c : CellId) (f : SprayCell → SprayCell) :
    (s.modCell c f).ltk = s.ltk :=
  (s.modCell_keeps c f).ltk rfl
@[simp] theorem State.cellTo_ltk (s : State) (c : CellId) (st : CellState) (cause : CellCause) (i : Option RecIx) :
    (s.cellTo c st cause i).ltk = s.ltk :=
  (s.cellTo_keeps c st cause i).ltk rfl
@[simp] theorem State.markRun_ltk (s : State) (c : CellId) (i : RecIx) (pass : Nat) :
    (s.markRun c i pass).ltk = s.ltk :=
  (s.markRun_keeps c i pass).ltk rfl
@[simp] theorem State.beginSegment_ltk (s : State) (c : CellId) (e : Executing) : (s.beginSegment c e).ltk = s.ltk :=
  (s.beginSegment_keeps c e).ltk rfl
@[simp] theorem State.beginStroke_ltk (s : State) (c : CellId) (e : Executing) : (s.beginStroke c e).ltk = s.ltk :=
  (s.beginStroke_keeps c e).ltk rfl
@[simp] theorem State.startProgram_ltk (s : State) (c : CellId) : (s.startProgram c).ltk = s.ltk :=
  (s.startProgram_keeps c).ltk rfl
@[simp] theorem State.askFetch_ltk (s : State) (c : CellId) : (s.askFetch c).ltk = s.ltk :=
  (s.askFetch_keeps c).ltk rfl
@[simp] theorem State.homeReached_ltk (s : State) (c : CellId) : (s.homeReached c).ltk = s.ltk :=
  (s.homeReached_keeps c).ltk rfl
@[simp] theorem State.homeTimeout_ltk (s : State) (c : CellId) : (s.homeTimeout c).ltk = s.ltk :=
  (s.homeTimeout_keeps c).ltk rfl
@[simp] theorem State.seekEnd_ltk (s : State) (c : CellId) : (s.seekEnd c).ltk = s.ltk := (s.seekEnd_keeps c).ltk rfl
@[simp] theorem State.leadExpiry_ltk (s : State) (c : CellId) : (s.leadExpiry c).ltk = s.ltk :=
  (s.leadExpiry_keeps c).ltk rfl
@[simp] theorem State.valveClose_ltk (s : State) (c : CellId) : (s.valveClose c).ltk = s.ltk :=
  (s.valveClose_keeps c).ltk rfl
@[simp] theorem State.haltReport_ltk (s : State) (c : CellId) (x y z : Nat) : (s.haltReport c x y z).ltk = s.ltk :=
  (s.haltReport_keeps c x y z).ltk rfl
@[simp] theorem State.startHoming_ltk (s : State) (c : CellId) : (s.startHoming c).ltk = s.ltk :=
  (s.startHoming_keeps c).ltk rfl
@[simp] theorem State.putMode_ltk (s : State) (m : LineMode) (cause : ModeCause) : (s.putMode m cause).ltk = s.ltk :=
  (s.putMode_keeps m cause).ltk rfl
@[simp] theorem State.headsMode_ltk (s : State) (m : LineMode) : (s.headsMode m).ltk = s.ltk :=
  (s.headsMode_keeps m).ltk rfl
@[simp] theorem State.tunnelMode_ltk (s : State) : (s.tunnelMode).ltk = s.ltk := (s.tunnelMode_keeps).ltk rfl
@[simp] theorem State.releaseSlot_ltk (s : State) (k : SlotIx) : (s.releaseSlot k).ltk = s.ltk :=
  (s.releaseSlot_keeps k).ltk rfl
@[simp] theorem State.releaseUse_ltk (s : State) (i : RecIx) : (s.releaseUse i).ltk = s.ltk :=
  (s.releaseUse_keeps i).ltk rfl
@[simp] theorem State.leaveWetQueue_ltk (s : State) (i : RecIx) : (s.leaveWetQueue i).ltk = s.ltk :=
  (s.leaveWetQueue_keeps i).ltk rfl
@[simp] theorem State.retireBench_ltk (s : State) (i : RecIx) : (s.retireBench i).ltk = s.ltk :=
  (s.retireBench_keeps i).ltk rfl
@[simp] theorem State.popLoad_ltk (s : State) : (s.popLoad).ltk = s.ltk := (s.popLoad_keeps).ltk rfl
@[simp] theorem State.beginLoad_ltk (s : State) (k : SlotIx) (h : SlotHead) : (s.beginLoad k h).ltk = s.ltk :=
  (s.beginLoad_keeps k h).ltk rfl
@[simp] theorem State.addExtents_ltk (s : State) (k : SlotIx) (es : List Extent) : (s.addExtents k es).ltk = s.ltk :=
  (s.addExtents_keeps k es).ltk rfl
@[simp] theorem State.setSlot_ltk (s : State) (k : SlotIx) (v : Slot) : (s.setSlot k v).ltk = s.ltk :=
  (s.setSlot_keeps k v).ltk rfl
@[simp] theorem State.setHostReq_ltk (s : State) (r : Option HostReq) : (s.setHostReq r).ltk = s.ltk :=
  (s.setHostReq_keeps r).ltk rfl
@[simp] theorem State.endHostReq_ltk (s : State) (kind tag : Byte) (status : ReplyStatus) (data : List Byte) :
    (s.endHostReq kind tag status data).ltk = s.ltk :=
  (s.endHostReq_keeps kind tag status data).ltk rfl
@[simp] theorem State.hostTakes_ltk (s : State) (bytes : List Byte) : (s.hostTakes bytes).ltk = s.ltk :=
  (s.hostTakes_keeps bytes).ltk rfl
@[simp] theorem State.hostFails_ltk (s : State) : (s.hostFails).ltk = s.ltk := (s.hostFails_keeps).ltk rfl
@[simp] theorem State.readBackEnd_ltk (s : State) (tag : Byte) (offset : Nat) (bytes : List Byte) :
    (s.readBackEnd tag offset bytes).ltk = s.ltk :=
  (s.readBackEnd_keeps tag offset bytes).ltk rfl
@[simp] theorem State.handWrite_ltk (s : State) : (s.handWrite).ltk = s.ltk := (s.handWrite_keeps).ltk rfl
@[simp] theorem State.setStartUp_ltk (s : State) (u : Option StartUp) : (s.setStartUp u).ltk = s.ltk :=
  (s.setStartUp_keeps u).ltk rfl
@[simp] theorem State.openPort_ltk (s : State) (who : Requestor) (op : AccessOp) : (s.openPort who op).ltk = s.ltk :=
  (s.openPort_keeps who op).ltk rfl
@[simp] theorem State.grantHost_ltk (s : State) : (s.grantHost).ltk = s.ltk := (s.grantHost_keeps).ltk rfl
@[simp] theorem State.grantLoader_ltk (s : State) : (s.grantLoader).ltk = s.ltk := (s.grantLoader_keeps).ltk rfl
@[simp] theorem State.grantStartUp_ltk (s : State) : (s.grantStartUp).ltk = s.ltk := (s.grantStartUp_keeps).ltk rfl
@[simp] theorem State.closePort_ltk (s : State) : (s.closePort).ltk = s.ltk := (s.closePort_keeps).ltk rfl
@[simp] theorem State.evalShutter_ltk (s : State) : (s.evalShutter).ltk = s.ltk := (s.evalShutter_keeps).ltk rfl
@[simp] theorem State.lampSample_ltk (s : State) : (s.lampSample).ltk = s.ltk := (s.lampSample_keeps).ltk rfl
@[simp] theorem State.lampSet_ltk (s : State) (on : Bool) : (s.lampSet on).ltk = s.ltk := (s.lampSet_keeps on).ltk rfl
@[simp] theorem State.warmUpEnd_ltk (s : State) : (s.warmUpEnd).ltk = s.ltk := (s.warmUpEnd_keeps).ltk rfl
@[simp] theorem State.setBallast_ltk (s : State) (active : Bool) : (s.setBallast active).ltk = s.ltk :=
  (s.setBallast_keeps active).ltk rfl
@[simp] theorem State.ballastActive_ltk (s : State) : (s.ballastActive).ltk = s.ltk := (s.ballastActive_keeps).ltk rfl
@[simp] theorem State.clearTunnel_ltk (s : State) : (s.clearTunnel).ltk = s.ltk := (s.clearTunnel_keeps).ltk rfl
@[simp] theorem State.setLine_ltk (s : State) (nearFull lampMin : Nat) : (s.setLine nearFull lampMin).ltk = s.ltk :=
  (s.setLine_keeps nearFull lampMin).ltk rfl

/-! ## What reasons, films and programs leave of a record -/

/-- A record but for its hold part and what spraying writes: film, clamps, starves, spray-end time. -/
def CarrierRecord.core (r : CarrierRecord) : CarrierRecord :=
  { r with zones := [], sprayEnd := none, flowClamps := 0, starves := 0, hold := none }

/-- The Line Tracker with every record but for its hold part and its spraying. -/
def Ltk.core (v : Ltk) : Ltk := { v with table := v.table.map (Option.map CarrierRecord.core) }

/-- The record at an index when the cores are those of another state. -/
theorem State.rec?_of_core {s t : State} {i : RecIx} {r : CarrierRecord} (h : t.ltk.core = s.ltk.core)
    (hr : s.rec? i = some r) : ∃ r', t.rec? i = some r' ∧ r'.core = r.core := by
  have at_i : (t.rec? i).map CarrierRecord.core = (s.rec? i).map CarrierRecord.core := by
    simpa [Ltk.core, State.rec?] using congrArg (fun v : Ltk => v.table[i]) h
  rw [hr] at at_i
  exact Option.map_eq_some_iff.1 at_i

/-- A record set in the place of one with its core. -/
theorem State.setRec_core {s : State} {i : RecIx} {r r' : CarrierRecord} (hr : s.rec? i = some r)
    (h : r'.core = r.core) : (s.setRec i (some r')).ltk.core = s.ltk.core := by
  have same : (s.ltk.table.map (Option.map CarrierRecord.core)).set i (some r'.core)
      = s.ltk.table.map (Option.map CarrierRecord.core) := by
    refine Vector.ext fun j hj => ?_
    by_cases e : i.val = j
    · subst e
      have hi : s.ltk.table[i.val] = some r := hr
      simp [hi, h]
    · simp [Vector.getElem_set_ne, e]
  simp only [State.setRec, Ltk.core, Vector.map_set, Option.map_some, same]

@[simp] theorem State.modLive_core (s : State) (i : RecIx) (f : CarrierRecord → CarrierRecord)
    (hf : ∀ r, (f r).core = r.core) : (s.modLive i f).ltk.core = s.ltk.core := by
  unfold State.modLive
  split
  · exact State.setRec_core (State.live?_some ‹_›).1 (hf _)
  · rfl

@[simp] theorem State.raiseReason_core (s : State) (i : RecIx) (code : ReasonCode) (sev : Severity) :
    (s.raiseReason i code sev).ltk.core = s.ltk.core := by
  unfold State.raiseReason
  split
  · rfl
  · rename_i r hr
    have keep (h : Option Hold) : (s.setRec i (some { r with hold := h })).ltk.core = s.ltk.core :=
      State.setRec_core (State.live?_some hr).1 rfl
    split <;> simp [keep]

@[simp] theorem State.raiseCode_core (s : State) (i : RecIx) (code : ReasonCode) :
    (s.raiseCode i code).ltk.core = s.ltk.core := by simp [State.raiseCode]

@[simp] theorem State.raiseIf_core (s : State) (c : Bool) (i : RecIx) (code : ReasonCode) :
    (s.raiseIf c i code).ltk.core = s.ltk.core := by
  unfold State.raiseIf; split <;> simp

@[simp] theorem State.addDeposit_core (s : State) (i : RecIx) (z d : Nat) :
    (s.addDeposit i z d).ltk.core = s.ltk.core := s.modLive_core i _ fun _ => rfl

@[simp] theorem State.flagZone?_core (s : State) (i : RecIx) (z : Option Nat) :
    (s.flagZone? i z).ltk.core = s.ltk.core := by
  cases z with
  | none => rfl
  | some z => exact s.modLive_core i _ fun _ => rfl

@[simp] theorem State.evaluateFilm_core (s : State) (i : RecIx) : (s.evaluateFilm i).ltk.core = s.ltk.core := by
  have raised (t : State) : (t.raiseFilm i).ltk.core = t.ltk.core := by
    unfold State.raiseFilm; split <;> simp
  unfold State.evaluateFilm
  split
  · rfl
  · rw [raised]; exact s.modLive_core i _ fun _ => rfl

@[simp] theorem State.abandonRun_core (s : State) (c : CellId) (i : RecIx) (z : Option Nat) (raise : Bool) :
    (s.abandonRun c i z raise).ltk.core = s.ltk.core := by simp [State.abandonRun]

@[simp] theorem State.cutOff_core (s : State) (c : CellId) (i : RecIx) : (s.cutOff c i).ltk.core = s.ltk.core := by
  unfold State.cutOff
  split
  · split <;> simp
  · rfl

@[simp] theorem State.finishProgram_core (s : State) (c : CellId) (p : Program) (o : ProgramOutcome)
    (f : Option (FaultCode × Nat)) (next : CellState) (cause : CellCause) :
    (s.finishProgram c p o f next cause).ltk.core = s.ltk.core := by
  have ended (t : State) (v : Option LineTime) :
      (t.modLive p.ix fun r => { r with sprayEnd := v }).ltk.core = t.ltk.core := t.modLive_core p.ix _ fun _ => rfl
  unfold State.finishProgram; dsimp only; split <;> simp [ended]

@[simp] theorem State.abandonProgram_core (s : State) (c : CellId) (p : Program) (o : ProgramOutcome)
    (f : Option (FaultCode × Nat)) (z : Option Nat) (next : CellState) (cause : CellCause) :
    (s.abandonProgram c p o f z next cause).ltk.core = s.ltk.core := by simp [State.abandonProgram]

@[simp] theorem State.dropProgram_core (s : State) (c : CellId) (i : RecIx) (o : ProgramOutcome) (cause : CellCause) :
    (s.dropProgram c i o cause).ltk.core = s.ltk.core := by
  unfold State.dropProgram
  split
  · split <;> simp
  · rfl

/-! ## Tag IDs and LOAD entry of the Line Tracker -/

/-- The tag ID of every record in use, and the LOAD entry. -/
def Ltk.tags (v : Ltk) : (RecIx → Option TagId) × Option LoadEntry :=
  (fun i => (v.table[i]).map CarrierRecord.tagId, v.loadEntry)

theorem State.tags_fst (s : State) (i : RecIx) : s.ltk.tags.1 i = (s.rec? i).map CarrierRecord.tagId := rfl

theorem Ltk.tags_of_core {v w : Ltk} (h : v.core = w.core) : v.tags = w.tags := by
  have read (x : Ltk) : x.tags = (fun i => (x.core.table[i]).map CarrierRecord.tagId, x.core.loadEntry) := by
    refine Prod.ext (funext fun i => ?_) rfl
    simp only [Ltk.tags, Ltk.core, Fin.getElem_fin, Vector.getElem_map, Option.map_map]
    rfl
  rw [read, read, h]

@[simp] theorem State.setMoves_tags (s : State) (v : List Move) : (s.setMoves v).ltk.tags = s.ltk.tags := rfl
@[simp] theorem State.setSensor_tags (s : State) (p : Place) (b : Bool) : (s.setSensor p b).ltk.tags = s.ltk.tags := rfl
@[simp] theorem State.setReads_tags (s : State) (v : List TagReadJob) : (s.setReads v).ltk.tags = s.ltk.tags := rfl
@[simp] theorem State.setWrites_tags (s : State) (v : List TagWriteJob) : (s.setWrites v).ltk.tags = s.ltk.tags := rfl
@[simp] theorem State.askWrite_tags (s : State) (p : Place) (v : Byte) (w : WriteFor) :
    (s.askWrite p v w).ltk.tags = s.ltk.tags := rfl
@[simp] theorem State.dropMarkWrites_tags (s : State) (i : RecIx) : (s.dropMarkWrites i).ltk.tags = s.ltk.tags := rfl
@[simp] theorem State.setEntry_tags (s : State) (v : Option LoadEntry) :
    (s.setEntry v).ltk.tags = (s.ltk.tags.1, v) := rfl

theorem State.setRec_tags_fst (s : State) (i : RecIx) (v : Option CarrierRecord) (j : RecIx) :
    (s.setRec i v).ltk.tags.1 j = if j = i then v.map CarrierRecord.tagId else s.ltk.tags.1 j := by
  rw [State.tags_fst, State.setRec_rec]
  split <;> rfl

/-- A record set in the place of one with its tag ID. -/
theorem State.setRec_tags {s : State} {i : RecIx} {r r' : CarrierRecord} (hr : s.rec? i = some r)
    (ht : r'.tagId = r.tagId) : (s.setRec i (some r')).ltk.tags = s.ltk.tags := by
  refine Prod.ext (funext fun j => ?_) rfl
  rw [State.setRec_tags_fst]
  split
  · rename_i e; subst e; rw [State.tags_fst, hr]; exact congrArg some ht
  · rfl

@[simp] theorem State.modRec_tags (s : State) (i : RecIx) (f : CarrierRecord → CarrierRecord)
    (hf : ∀ r, (f r).tagId = r.tagId) : (s.modRec i f).ltk.tags = s.ltk.tags := by
  unfold State.modRec
  split
  · exact State.setRec_tags ‹_› (hf _)
  · rfl

@[simp] theorem State.modLive_tags (s : State) (i : RecIx) (f : CarrierRecord → CarrierRecord)
    (hf : ∀ r, (f r).tagId = r.tagId) : (s.modLive i f).ltk.tags = s.ltk.tags := by
  unfold State.modLive
  split
  · exact State.setRec_tags (State.live?_some ‹_›).1 (hf _)
  · rfl

@[simp] theorem State.modHold_tags (s : State) (i : RecIx) (f : Hold → Hold) :
    (s.modHold i f).ltk.tags = s.ltk.tags := by simp [State.modHold]

/-! ## Operations that keep every tag ID and the LOAD entry -/

@[simp] theorem State.raiseReason_tags (s : State) (i : RecIx) (code : ReasonCode) (sev : Severity) :
    (s.raiseReason i code sev).ltk.tags = s.ltk.tags :=
  Ltk.tags_of_core (s.raiseReason_core i code sev)

@[simp] theorem State.raiseCode_tags (s : State) (i : RecIx) (code : ReasonCode) :
    (s.raiseCode i code).ltk.tags = s.ltk.tags :=
  Ltk.tags_of_core (s.raiseCode_core i code)

@[simp] theorem State.raiseIf_tags (s : State) (c : Bool) (i : RecIx) (code : ReasonCode) :
    (s.raiseIf c i code).ltk.tags = s.ltk.tags :=
  Ltk.tags_of_core (s.raiseIf_core c i code)

@[simp] theorem State.raiseAll_tags (s : State) (i : RecIx) (cs : List ReasonCode) :
    (s.raiseAll i cs).ltk.tags = s.ltk.tags := by
  induction cs generalizing s with
  | nil => rfl
  | cons c cs ih => simp [State.raiseAll, ih]

@[simp] theorem State.enterQueue_tags (s : State) (i : RecIx) (stage : Stage) :
    (s.enterQueue i stage).ltk.tags = s.ltk.tags := by
  unfold State.enterQueue; dsimp only; split <;> simp [State.setQueue]

@[simp] theorem State.addDeposit_tags (s : State) (i : RecIx) (z d : Nat) :
    (s.addDeposit i z d).ltk.tags = s.ltk.tags :=
  Ltk.tags_of_core (s.addDeposit_core i z d)

@[simp] theorem State.flagZone?_tags (s : State) (i : RecIx) (z : Option Nat) :
    (s.flagZone? i z).ltk.tags = s.ltk.tags :=
  Ltk.tags_of_core (s.flagZone?_core i z)

@[simp] theorem State.evaluateFilm_tags (s : State) (i : RecIx) : (s.evaluateFilm i).ltk.tags = s.ltk.tags :=
  Ltk.tags_of_core (s.evaluateFilm_core i)

@[simp] theorem State.dropMove_tags (s : State) (i : RecIx) : (s.dropMove i).ltk.tags = s.ltk.tags := rfl
@[simp] theorem State.haltMoves_tags (s : State) : s.haltMoves.ltk.tags = s.ltk.tags := rfl
@[simp] theorem State.redriveMoves_tags (s : State) : s.redriveMoves.ltk.tags = s.ltk.tags := rfl
@[simp] theorem State.timeOutMove_tags (s : State) (i : RecIx) : (s.timeOutMove i).ltk.tags = s.ltk.tags := rfl
@[simp] theorem State.dropRead_tags (s : State) (p : Place) : (s.dropRead p).ltk.tags = s.ltk.tags := rfl
@[simp] theorem State.dropChecks_tags (s : State) (i : RecIx) : (s.dropChecks i).ltk.tags = s.ltk.tags := rfl
@[simp] theorem State.nextAttempt_tags (s : State) (p : Place) : (s.nextAttempt p).ltk.tags = s.ltk.tags := rfl
@[simp] theorem State.popWrite_tags (s : State) (p : Place) : (s.popWrite p).ltk.tags = s.ltk.tags := rfl
@[simp] theorem State.startRead_tags (s : State) (p : Place) (why : ReadFor) :
    (s.startRead p why).ltk.tags = s.ltk.tags := rfl

@[simp] theorem State.startCheck_tags (s : State) (i : RecIx) (p : Place) :
    (s.startCheck i p).ltk.tags = s.ltk.tags := by simp [State.startCheck]

/-- A fold of operations each of which keeps the tag IDs and the LOAD entry. -/
theorem State.foldl_tags {α : Type} (f : State → α → State) (hf : ∀ t a, (f t a).ltk.tags = t.ltk.tags) (xs : List α)
    (s : State) : (xs.foldl f s).ltk.tags = s.ltk.tags := by
  induction xs generalizing s with
  | nil => rfl
  | cons x xs ih => exact (ih _).trans (hf s x)

@[simp] theorem State.recheckFailed_tags (s : State) : s.recheckFailed.ltk.tags = s.ltk.tags := by
  refine State.foldl_tags _ (fun t i => ?_) _ _
  split
  · split
    · split <;> simp
    · rfl
  · rfl

/-! The tunnel. -/

@[simp] theorem State.bindTo_tags (s : State) (w : WaitingBinding) (l : LaneId) :
    (s.bindTo w l).ltk.tags = s.ltk.tags := by
  unfold State.bindTo
  split
  · rfl
  · rename_i r hr
    have hr' : ((s.setLane l { s.lane l with bound := (s.lane l).bound + 1 }).setClass l (some w.cls) .bound).rec? w.ix
        = some r := by
      simp only [State.rec?, State.setClass_ltk, State.setLane_ltk]; exact (State.live?_some hr).1
    rw [State.queueReport_ltk]
    refine (State.setRec_tags hr' ?_).trans ?_
    · rfl
    · simp

@[simp] theorem State.tryBind_tags (s : State) (w : WaitingBinding) : (s.tryBind w).ltk.tags = s.ltk.tags := by
  unfold State.tryBind; split <;> simp [State.setWaiting]

@[simp] theorem State.requestBinding_tags (s : State) (i : RecIx) (kind : LimitKind) :
    (s.requestBinding i kind).ltk.tags = s.ltk.tags := by
  unfold State.requestBinding; split <;> simp

@[simp] theorem State.retryBinding_tags (s : State) : s.retryBinding.ltk.tags = s.ltk.tags := by
  unfold State.retryBinding; split <;> simp

@[simp] theorem State.unbind_tags (s : State) (i : RecIx) (cause : LaneCause) :
    (s.unbind i cause).ltk.tags = s.ltk.tags := by
  unfold State.unbind
  split
  · rfl
  · split
    · rfl
    · dsimp only; split <;> simp

/-! The inspection heads. -/

@[simp] theorem State.divert_tags (s : State) (i : RecIx) (stage : Stage) :
    (s.divert i stage).ltk.tags = s.ltk.tags := by simp [State.divert]

@[simp] theorem State.decideMask_tags (s : State) (i : RecIx) : (s.decideMask i).ltk.tags = s.ltk.tags := by
  unfold State.decideMask
  split
  · split <;> simp
  · rfl

@[simp] theorem State.decideInspect_tags (s : State) (i : RecIx) : (s.decideInspect i).ltk.tags = s.ltk.tags := by
  unfold State.decideInspect
  split
  · split
    · split <;> simp
    · rfl
  · rfl

@[simp] theorem State.endMask_tags (s : State) (w : WalkTable) : (s.endMask w).ltk.tags = s.ltk.tags := by
  unfold State.endMask; dsimp only; split <;> simp [State.raiseMask]

@[simp] theorem State.endInspect_tags (s : State) (w : WalkTable) : (s.endInspect w).ltk.tags = s.ltk.tags := by
  simp [State.endInspect, State.raiseInspect]

@[simp] theorem State.endWalk_tags (s : State) (h : HeadId) (w : WalkTable) :
    (s.endWalk h w).ltk.tags = s.ltk.tags := by cases h <;> simp [State.endWalk]

@[simp] theorem State.afterGroup_tags (s : State) (h : HeadId) : (s.afterGroup h).ltk.tags = s.ltk.tags := by
  unfold State.afterGroup
  split
  · rfl
  · split
    · dsimp only; split <;> simp
    · simp

@[simp] theorem State.judge_tags (s : State) (h : HeadId) : (s.judge h).ltk.tags = s.ltk.tags := by
  unfold State.judge; split <;> simp

@[simp] theorem State.completeGroup_tags (s : State) (h : HeadId) : (s.completeGroup h).ltk.tags = s.ltk.tags := by
  unfold State.completeGroup
  split
  · split <;> simp
  · rfl

@[simp] theorem State.settlePoint_tags (s : State) (h : HeadId) (k : Nat) (v : PointVerdict) :
    (s.settlePoint h k v).ltk.tags = s.ltk.tags := by
  unfold State.settlePoint
  dsimp only
  split
  · simp
  · split <;> simp

@[simp] theorem State.startWalk_tags (s : State) (h : HeadId) : (s.startWalk h).ltk.tags = s.ltk.tags := by
  unfold State.startWalk
  split
  · rfl
  · dsimp only; split <;> simp

@[simp] theorem State.judgeIfLanded_tags (s : State) (h : HeadId) : (s.judgeIfLanded h).ltk.tags = s.ltk.tags := by
  unfold State.judgeIfLanded
  split
  · split <;> simp
  · rfl

@[simp] theorem State.channelResult_tags (s : State) (h : HeadId) (c : Fin 4) (x : BitVec 10) :
    (s.channelResult h c x).ltk.tags = s.ltk.tags := by
  unfold State.channelResult
  split
  · rfl
  · split
    · unfold State.resultFull; split <;> simp
    · unfold State.resultFirstFail
      split
      · rfl
      · split <;> simp

@[simp] theorem State.groupWaitExpiry_tags (s : State) (h : HeadId) : (s.groupWaitExpiry h).ltk.tags = s.ltk.tags := by
  unfold State.groupWaitExpiry; split <;> simp

@[simp] theorem State.resultLate_tags (s : State) (h : HeadId) (ix : RecIx) (k : Nat) (e : WalkPoint) :
    (s.resultLate h ix k e).ltk.tags = s.ltk.tags := by
  unfold State.resultLate; split <;> simp

@[simp] theorem State.resultTimerExpiry_tags (s : State) (h : HeadId) (c : Fin 4) :
    (s.resultTimerExpiry h c).ltk.tags = s.ltk.tags := by
  unfold State.resultTimerExpiry
  split
  · split <;> simp
  · rfl

/-! The spray cells. -/

@[simp] theorem State.abandonRun_tags (s : State) (c : CellId) (i : RecIx) (z : Option Nat) (raise : Bool) :
    (s.abandonRun c i z raise).ltk.tags = s.ltk.tags :=
  Ltk.tags_of_core (s.abandonRun_core c i z raise)

@[simp] theorem State.cutOff_tags (s : State) (c : CellId) (i : RecIx) : (s.cutOff c i).ltk.tags = s.ltk.tags :=
  Ltk.tags_of_core (s.cutOff_core c i)

@[simp] theorem State.finishProgram_tags (s : State) (c : CellId) (p : Program) (o : ProgramOutcome)
    (f : Option (FaultCode × Nat)) (next : CellState) (cause : CellCause) :
    (s.finishProgram c p o f next cause).ltk.tags = s.ltk.tags :=
  Ltk.tags_of_core (s.finishProgram_core c p o f next cause)

@[simp] theorem State.abandonProgram_tags (s : State) (c : CellId) (p : Program) (o : ProgramOutcome)
    (f : Option (FaultCode × Nat)) (z : Option Nat) (next : CellState) (cause : CellCause) :
    (s.abandonProgram c p o f z next cause).ltk.tags = s.ltk.tags :=
  Ltk.tags_of_core (s.abandonProgram_core c p o f z next cause)

@[simp] theorem State.faultProgram_tags (s : State) (c : CellId) (p : Program) (code : FaultCode) (k : Nat)
    (z : Option Nat) : (s.faultProgram c p code k z).ltk.tags = s.ltk.tags := by simp [State.faultProgram]

@[simp] theorem State.segmentFault_tags (s : State) (c : CellId) (p : Program) (code : FaultCode) (k : Nat)
    (z : Option Nat) : (s.segmentFault c p code k z).ltk.tags = s.ltk.tags := by simp [State.segmentFault]

@[simp] theorem State.endProgram_tags (s : State) (c : CellId) (p : Program) :
    (s.endProgram c p).ltk.tags = s.ltk.tags := by simp [State.endProgram]

@[simp] theorem State.formSegment_tags (s : State) (c : CellId) (p : Program) (m : Material) (k : SegKind)
    (q : GantryPos) (g : Segment) : (s.formSegment c p m k q g).ltk.tags = s.ltk.tags := by
  unfold State.formSegment; dsimp only; split <;> simp

@[simp] theorem State.executeSegment_tags (s : State) (c : CellId) (p : Program) (k : Nat) (g : Segment) :
    (s.executeSegment c p k g).ltk.tags = s.ltk.tags := by
  unfold State.executeSegment
  split
  · split <;> simp
  · simp

@[simp] theorem State.discardSegment_tags (s : State) (c : CellId) (i : RecIx) (g : Segment) :
    (s.discardSegment c i g).ltk.tags = s.ltk.tags := by simp [State.discardSegment]

@[simp] theorem State.starve_tags (s : State) (c : CellId) (i : RecIx) : (s.starve c i).ltk.tags = s.ltk.tags := by
  simp [State.starve]

@[simp] theorem State.bringNext_tags (s : State) (c : CellId) (fuel : Nat) :
    (s.bringNext c fuel).ltk.tags = s.ltk.tags := by
  induction fuel generalizing s with
  | zero => rfl
  | succ fuel ih =>
    unfold State.bringNext
    split
    · rfl
    · split
      · split
        · simp
        · split <;> simp
      · dsimp only
        split
        · split <;> simp [ih]
        · split <;> simp [ih]

@[simp] theorem State.nextSegment_tags (s : State) (c : CellId) : (s.nextSegment c).ltk.tags = s.ltk.tags := by
  simp [State.nextSegment]

@[simp] theorem State.afterLanding_tags (s : State) (c : CellId) : (s.afterLanding c).ltk.tags = s.ltk.tags := by
  unfold State.afterLanding
  split
  case h_1 => split <;> simp
  case h_2 => split <;> simp
  case h_3 => split <;> simp
  case h_4 => rfl

@[simp] theorem State.landFetch_tags (s : State) (c : CellId) (bytes : List Byte) :
    (s.landFetch c bytes).ltk.tags = s.ltk.tags := by
  unfold State.landFetch; split <;> simp

@[simp] theorem State.failFetch_tags (s : State) (c : CellId) : (s.failFetch c).ltk.tags = s.ltk.tags := by
  unfold State.failFetch; dsimp only; split <;> simp

@[simp] theorem State.cellStop_tags (s : State) (c : CellId) : (s.cellStop c).ltk.tags = s.ltk.tags := by
  unfold State.cellStop
  split
  · simp
  · split <;> simp

@[simp] theorem State.cellEmergency_tags (s : State) (c : CellId) : (s.cellEmergency c).ltk.tags = s.ltk.tags := by
  unfold State.cellEmergency; split <;> simp

@[simp] theorem State.dropProgram_tags (s : State) (c : CellId) (i : RecIx) (o : ProgramOutcome) (cause : CellCause) :
    (s.dropProgram c i o cause).ltk.tags = s.ltk.tags :=
  Ltk.tags_of_core (s.dropProgram_core c i o cause)

@[simp] theorem State.motionEnd_tags (s : State) (c : CellId) : (s.motionEnd c).ltk.tags = s.ltk.tags := by
  have credit (i : RecIx) (e : Executing) : (s.credit i e).ltk.tags = s.ltk.tags := by
    unfold State.credit; split <;> simp
  unfold State.motionEnd
  split
  · split <;> simp [credit]
  · rfl

@[simp] theorem State.gantryTimeout_tags (s : State) (c : CellId) : (s.gantryTimeout c).ltk.tags = s.ltk.tags := by
  unfold State.gantryTimeout; split <;> simp

@[simp] theorem State.starveLimit_tags (s : State) (c : CellId) : (s.starveLimit c).ltk.tags = s.ltk.tags := by
  unfold State.starveLimit; split <;> simp

@[simp] theorem State.valveFault_tags (s : State) (c : CellId) : (s.valveFault c).ltk.tags = s.ltk.tags := by
  unfold State.valveFault
  split
  · rfl
  · split <;> simp

/-! The line mode. -/

@[simp] theorem State.trackerMode_tags (s : State) (m prev : LineMode) :
    (s.trackerMode m prev).ltk.tags = s.ltk.tags := by
  cases m with
  | pause => simp only [State.trackerMode]; split <;> simp
  | _ => simp [State.trackerMode]

@[simp] theorem State.cellsMode_tags (s : State) (m : LineMode) : (s.cellsMode m).ltk.tags = s.ltk.tags := by
  cases m <;> simp [State.cellsMode]

@[simp] theorem State.cellsEmergency_tags (s : State) : s.cellsEmergency.ltk.tags = s.ltk.tags := by
  simp [State.cellsEmergency]

@[simp] theorem State.setMode_tags (s : State) (m : LineMode) (cause : ModeCause) :
    (s.setMode m cause).ltk.tags = s.ltk.tags := by
  unfold State.setMode; split <;> simp

@[simp] theorem State.emergency_tags (s : State) : s.emergency.ltk.tags = s.ltk.tags := by
  unfold State.emergency; split <;> simp

@[simp] theorem State.raiseFault_tags (s : State) (code : FaultCode) (origin : Origin) (d : FaultDetail) :
    (s.raiseFault code origin d).ltk.tags = s.ltk.tags := by
  unfold State.raiseFault State.faultMode
  split
  · simp
  · simp
  · split <;> simp

end Sys2Proof.Machine
end

section
/-! SUPPORT. No two records in use hold one tag ID (R5, R9): the law, and the operations of the Line Tracker and of the store
controller that keep it. -/

namespace Sys2Proof.Machine

@[simp] theorem State.arriveBench_tags (s : State) (n : BenchIx) (i : RecIx) :
    (s.arriveBench n i).ltk.tags = s.ltk.tags := by
  unfold State.arriveBench; split <;> simp

@[simp] theorem State.checkFailed_tags (s : State) (i : RecIx) (p : Place) :
    (s.checkFailed i p).ltk.tags = s.ltk.tags := by simp [State.checkFailed]

@[simp] theorem State.holdMarkEnd_tags (s : State) (i : RecIx) (live ok : Bool) :
    (s.holdMarkEnd i live ok).ltk.tags = s.ltk.tags := by
  unfold State.holdMarkEnd
  split
  · split <;> simp
  · rfl

@[simp] theorem State.beginPass_tags (s : State) (i : RecIx) (d : Disposition) :
    (s.beginPass i d).ltk.tags = s.ltk.tags := by
  unfold State.beginPass
  split
  · rename_i hr _
    rw [State.requestBinding_tags]
    exact State.setRec_tags (State.live?_some hr).1 rfl
  · rfl

@[simp] theorem State.reentryWritten_tags (s : State) (i : RecIx) (d : Option Disposition) :
    (s.reentryWritten i d).ltk.tags = s.ltk.tags := by cases d <;> simp [State.reentryWritten]

@[simp] theorem CarrierRecord.reentered_tagId (r : CarrierRecord) : r.reentered.tagId = r.tagId := by
  unfold CarrierRecord.reentered CarrierRecord.closeHold; split <;> rfl

@[simp] theorem State.reenter_tags (s : State) (i : RecIx) : (s.reenter i).ltk.tags = s.ltk.tags := by
  unfold State.reenter
  split
  · rename_i r hr
    split
    · rfl
    · simpa using State.setRec_tags hr r.reentered_tagId
  · rfl

@[simp] theorem State.loseCarrier_tags (s : State) (i : RecIx) (p : Place) :
    (s.loseCarrier i p).ltk.tags = s.ltk.tags := by
  unfold State.loseCarrier; dsimp only; split <;> simp

@[simp] theorem State.carrierMissing_tags (s : State) (p : Place) : (s.carrierMissing p).ltk.tags = s.ltk.tags := by
  unfold State.carrierMissing
  split
  · split <;> simp
  · rfl

@[simp] theorem State.carrierLifted_tags (s : State) (p : Place) : (s.carrierLifted p).ltk.tags = s.ltk.tags := by
  unfold State.carrierLifted
  split
  · split <;> simp
  · rfl

@[simp] theorem State.sourceClear_tags (s : State) (p : Place) : (s.sourceClear p).ltk.tags = s.ltk.tags := by
  unfold State.sourceClear; split <;> simp

@[simp] theorem State.landMove_tags (s : State) (i : RecIx) (p : Place) : (s.landMove i p).ltk.tags = s.ltk.tags := by
  simp [State.landMove]

@[simp] theorem State.settleAt_tags (s : State) (i : RecIx) (p : Place) : (s.settleAt i p).ltk.tags = s.ltk.tags := by
  cases p <;> simp [State.settleAt]

@[simp] theorem State.moveEnd_tags (s : State) (i : RecIx) : (s.moveEnd i).ltk.tags = s.ltk.tags := by
  unfold State.moveEnd
  split
  · split <;> simp
  · rfl

@[simp] theorem State.moveTimeout_tags (s : State) (i : RecIx) : (s.moveTimeout i).ltk.tags = s.ltk.tags := by
  unfold State.moveTimeout; split <;> simp

@[simp] theorem State.grantFetch_tags (s : State) (c : CellId) : (s.grantFetch c).ltk.tags = s.ltk.tags := by
  unfold State.grantFetch
  split
  · simp
  · split <;> simp

@[simp] theorem State.grant_tags (s : State) : s.grant.ltk.tags = s.ltk.tags := by
  unfold State.grant
  split
  · rfl
  · split <;> simp

@[simp] theorem State.laneEntryEnd_tags (s : State) (l : LaneId) : (s.laneEntryEnd l).ltk.tags = s.ltk.tags := by
  unfold State.laneEntryEnd
  split
  · unfold State.enterLane
    split
    · rfl
    · simp [State.joinLane]
  · rfl

@[simp] theorem State.advanceLane_tags (s : State) (l : LaneId) : (s.advanceLane l).ltk.tags = s.ltk.tags := by
  simpa [State.advanceLane] using State.foldl_tags _ (fun t i => t.modRec_tags i advance fun _ => rfl) _ s

theorem uvDoseStep_tagId (v : Nat) (r : CarrierRecord) : (uvDoseStep v r).tagId = r.tagId := by
  unfold uvDoseStep
  split
  · split <;> rfl
  · rfl

theorem thermalDoseStep_tagId (rates : List Nat) (zs : Vector ZoneSense 4) (r : CarrierRecord) :
    (thermalDoseStep rates zs r).tagId = r.tagId := by
  have step (z : ZoneSense) : (thermalStep rates z r).tagId = r.tagId := by
    unfold thermalStep; dsimp only; split <;> split <;> rfl
  unfold thermalDoseStep
  split
  · split
    · exact step _
    · rfl
  · rfl

@[simp] theorem State.uvSample_tags (s : State) (raw : Option (BitVec 12)) : (s.uvSample raw).ltk.tags = s.ltk.tags := by
  unfold State.uvSample State.uvDoses
  rw [State.foldl_tags _ fun t i => t.modLive_tags i _ (uvDoseStep_tagId _)]
  simp

@[simp] theorem State.sampleZone_tags (s : State) (adc : Vector (Option Int) 8) (z : ZoneIx) :
    (s.sampleZone adc z).ltk.tags = s.ltk.tags := by
  have raised (b : Prop) [Decidable b] (t : State) (code : FaultCode) (d : FaultDetail) :
      (if b then t.raiseFault code .ctc d else t).ltk.tags = t.ltk.tags := by split <;> simp
  simp [State.sampleZone, State.zoneFaults, raised]

@[simp] theorem State.thermalSample_tags (s : State) (adc : Vector (Option Int) 8) :
    (s.thermalSample adc).ltk.tags = s.ltk.tags := by
  unfold State.thermalSample State.thermalDoses
  rw [State.foldl_tags _ fun t i => t.modLive_tags i _ (thermalDoseStep_tagId _ _),
    State.foldl_tags _ fun t z => t.sampleZone_tags adc z]
  rfl

@[simp] theorem State.exitEnd_tags (s : State) : s.exitEnd.ltk.tags = s.ltk.tags := by
  unfold State.exitEnd
  split
  · rfl
  · split <;> simp

@[simp] theorem State.setClaim_tags (s : State) (i : RecIx) (c : Option Link) :
    (s.setClaim i c).ltk.tags = s.ltk.tags := by simp [State.setClaim]

@[simp] theorem State.benchSilence_tags (s : State) : s.benchSilence.ltk.tags = s.ltk.tags := by
  have drop (t : State) (i : RecIx) : (t.dropClaim i).ltk.tags = t.ltk.tags := by
    unfold State.dropClaim
    split
    · split
      · split <;> simp
      · rfl
    · rfl
  unfold State.benchSilence
  split
  · rw [State.foldl_tags _ drop]; simp
  · rfl

/-! ## The law (R5, R9) -/

/-- No two records in use hold one tag ID; no record holds the tag ID of a NEW entry that none has taken; the record that
has taken the entry holds its tag ID. -/
structure TagLaw (v : (RecIx → Option TagId) × Option LoadEntry) : Prop where
  unique : ∀ i j t, v.1 i = some t → v.1 j = some t → i = j
  fresh : ∀ e t i, v.2 = some e → e.tag = some t → e.result = .new → e.takenBy = none → v.1 i ≠ some t.id
  taken : ∀ e t i x, v.2 = some e → e.tag = some t → e.takenBy = some i → v.1 i = some x → x = t.id

/-- The LOAD entry set to one that the law allows. -/
theorem TagLaw.entry {v : (RecIx → Option TagId) × Option LoadEntry} (h : TagLaw v) (e : Option LoadEntry)
    (he : ∀ e' t, e = some e' → e'.tag = some t →
      (e'.result = .new → e'.takenBy = none → ∀ i, v.1 i ≠ some t.id) ∧
      (∀ i x, e'.takenBy = some i → v.1 i = some x → x = t.id)) : TagLaw (v.1, e) where
  unique := h.unique
  fresh e' t i h1 h2 h3 h4 := (he e' t h1 h2).1 h3 h4 i
  taken e' t i x h1 h2 h3 h4 := (he e' t h1 h2).2 i x h3 h4

/-- An entry without a tag, or none. -/
theorem TagLaw.noTag {v : (RecIx → Option TagId) × Option LoadEntry} (h : TagLaw v) (e : Option LoadEntry)
    (he : ∀ e', e = some e' → e'.tag = none) : TagLaw (v.1, e) :=
  h.entry e fun e' t h1 h2 => by rw [he e' h1] at h2; cases h2

/-- A record FREE. -/
theorem State.free_tagLaw {s : State} (h : TagLaw s.ltk.tags) (i : RecIx) : TagLaw (s.setRec i none).ltk.tags := by
  have less : ∀ j t, (s.setRec i none).ltk.tags.1 j = some t → s.ltk.tags.1 j = some t := by
    intro j t hj
    rw [State.setRec_tags_fst] at hj
    split at hj
    · cases hj
    · exact hj
  exact
    { unique := fun j k t hj hk => h.unique j k t (less j t hj) (less k t hk)
      fresh := fun e t j h1 h2 h3 h4 hj => h.fresh e t j h1 h2 h3 h4 (less j _ hj)
      taken := fun e t j x h1 h2 h3 hj => h.taken e t j x h1 h2 h3 (less j _ hj) }

/-- A fold of operations each of which keeps the law. -/
theorem State.foldl_tagLaw {α : Type} {f : State → α → State}
    (hf : ∀ t a, TagLaw t.ltk.tags → TagLaw (f t a).ltk.tags) (xs : List α) {s : State} (h : TagLaw s.ltk.tags) :
    TagLaw (xs.foldl f s).ltk.tags := by
  induction xs generalizing s with
  | nil => exact h
  | cons x xs ih => exact ih (hf s x h)

/-! ## The Line Tracker keeps the law -/

theorem State.setEntry_none_tagLaw {s : State} (h : TagLaw s.ltk.tags) : TagLaw (s.setEntry none).ltk.tags :=
  h.noTag none fun _ e => nomatch e

theorem State.leaveLoad_tagLaw {s : State} (h : TagLaw s.ltk.tags) (src : Place) (i : RecIx) :
    TagLaw (s.leaveLoad src i).ltk.tags := by
  cases src with
  | load =>
    unfold State.leaveLoad
    dsimp only
    split
    · split
      · exact State.setEntry_none_tagLaw h
      · exact h
    · exact h
  | _ => exact h

theorem State.beginMove_tagLaw {s : State} (h : TagLaw s.ltk.tags) (i : RecIx) (src dst : Place) :
    TagLaw (s.beginMove i src dst).ltk.tags :=
  State.leaveLoad_tagLaw (by simpa using h) src i

theorem State.dropTakenEntry_tagLaw {s : State} (h : TagLaw s.ltk.tags) (i : RecIx) :
    TagLaw (s.dropTakenEntry i).ltk.tags := by
  unfold State.dropTakenEntry
  split
  · split
    · exact State.setEntry_none_tagLaw h
    · exact h
  · exact h

theorem State.clearEntry_tagLaw {s : State} (h : TagLaw s.ltk.tags) : TagLaw s.clearEntry.ltk.tags := by
  unfold State.clearEntry
  split
  · split
    · exact State.setEntry_none_tagLaw h
    · exact h
  · exact h

theorem State.retire_tagLaw {s : State} (h : TagLaw s.ltk.tags) (i : RecIx) (o : DoneOutcome) :
    TagLaw (s.retire i o).ltk.tags := by
  simp only [State.retire, State.retireStations, State.retireTunnel, State.retireTracker, State.retireBench_ltk,
    State.unbind_tags, State.freeExit_ltk, State.leaveWetQueue_ltk, State.dropWaiting_ltk, State.dropMarks_ltk,
    State.dropProgram_tags, State.dropWalks_ltk, State.releaseUse_ltk, State.dropMarkWrites_tags]
  exact State.dropTakenEntry_tagLaw (by simpa using h) i

theorem State.loadSucceeded_tagLaw {s : State} (h : TagLaw s.ltk.tags) (i : RecIx) (k : SlotIx) (q : Bool) (p : Recipe) :
    TagLaw (s.loadSucceeded i k q p).ltk.tags := by
  unfold State.loadSucceeded
  split
  · exact h
  · rename_i r hr
    split
    · exact State.retire_tagLaw (by simpa using h) i _
    · rw [State.requestBinding_tags]
      refine (State.setRec_tags (State.loading?_eq_some.1 hr).1 ?_) ▸ h
      rfl

/-- The entry given back by a record that is FREE by now: no record holds the tag ID that it held. -/
theorem State.returnEntry_tagLaw {s : State} (h : TagLaw s.ltk.tags) (i : RecIx)
    (hf : ∀ e t j, s.ltk.loadEntry = some e → e.tag = some t → e.takenBy = some i → s.ltk.tags.1 j ≠ some t.id) :
    TagLaw (s.returnEntry i).ltk.tags := by
  unfold State.returnEntry
  split
  · rename_i e he
    split
    · rename_i hi
      refine h.entry _ fun e' t h1 h2 => ?_
      split at h1
      · cases h1
        exact ⟨fun _ _ j => hf e t j he h2 hi, fun _ _ h3 _ => nomatch h3⟩
      · cases h1
    · exact h
  · exact h

theorem State.loadFailed_tagLaw {s : State} (h : TagLaw s.ltk.tags) (i : RecIx) (why : LoadFailure) :
    TagLaw (s.loadFailed i why).ltk.tags := by
  unfold State.loadFailed
  split
  · exact h
  · rename_i r hr
    split
    · exact State.retire_tagLaw h i _
    · have held : s.ltk.tags.1 i = some r.tagId := by rw [State.tags_fst, (State.loading?_eq_some.1 hr).1]; rfl
      have freed : TagLaw (((s.queueReport (.admitFailed r.tagId why)).setRec i none).dropChecks i).ltk.tags := by
        rw [State.dropChecks_tags]
        exact State.free_tagLaw (by simpa using h) i
      refine State.returnEntry_tagLaw freed i fun e t j he ht hi hj => ?_
      replace he : s.ltk.loadEntry = some e := by simpa [State.dropChecks] using he
      rw [State.dropChecks_tags, State.setRec_tags_fst, State.queueReport_ltk] at hj
      split at hj
      · cases hj
      · rename_i hne
        exact hne (h.unique j i _ hj (held.trans (congrArg some (h.taken e t i _ he ht hi held))))

theorem State.recordOfTag_eq_none {s : State} {t : TagId} :
    s.recordOfTag t = none ↔ ∀ i r, s.rec? i = some r → r.tagId ≠ t := by
  simp only [State.recordOfTag, List.find?_eq_none, recIxs, List.mem_finRange, true_implies]
  refine forall_congr' fun i => ?_
  cases s.rec? i <;> simp

theorem State.recordOfTag_eq_some {s : State} {t : TagId} {i : RecIx} (h : s.recordOfTag t = some i) :
    ∃ r, s.rec? i = some r ∧ r.tagId = t := by
  have := List.find?_some h
  split at this
  · exact ⟨_, ‹_›, by simpa using this⟩
  · cases this

/-- What the match of a tag says of the records: NEW means that none holds the tag ID, REENTRY names one that does. -/
theorem State.matchTag_follows (s : State) (t : TagRead) :
    ((s.matchTag t).1 = .new → ∀ i, s.ltk.tags.1 i ≠ some t.id) ∧
    ∀ i, (s.matchTag t).1 = .reentry → (s.matchTag t).2 = some i → s.ltk.tags.1 i = some t.id := by
  unfold State.matchTag
  split
  · rename_i i hi
    obtain ⟨r, hr, ht⟩ := State.recordOfTag_eq_some hi
    have held : s.ltk.tags.1 i = some t.id := by rw [State.tags_fst, hr, ← ht]; rfl
    split
    · split
      · exact ⟨nofun, fun j _ hj => Option.some.inj hj ▸ held⟩
      · exact ⟨nofun, nofun⟩
    · exact ⟨nofun, nofun⟩
  · rename_i hn
    have free : ∀ i, s.ltk.tags.1 i ≠ some t.id := by
      intro i hi
      obtain ⟨r, hr, ht⟩ := Option.map_eq_some_iff.1 hi
      exact State.recordOfTag_eq_none.1 hn i r hr ht
    split <;> simp [free]

theorem State.takeMatch_tagLaw {s : State} (h : TagLaw s.ltk.tags) (t : TagRead) : TagLaw (s.takeMatch t).ltk.tags := by
  obtain ⟨hnew, hre⟩ := s.matchTag_follows t
  have entered (taken : Option RecIx) (ht : taken = if (s.matchTag t).1 = .reentry then (s.matchTag t).2 else none) :
      TagLaw ((s.setEntry (some { tag := some t, result := (s.matchTag t).1, takenBy := taken })).queueReport
        (.loadArrival (some t) (s.matchTag t).1)).ltk.tags := by
    simp only [State.queueReport_ltk, State.setEntry_tags]
    refine h.entry _ fun e' t' h1 h2 => ?_
    cases h1; cases h2
    refine ⟨fun h3 _ => hnew h3, fun i x h3 hx => ?_⟩
    simp only at h3
    rw [ht] at h3
    split at h3
    · rename_i hr; exact Option.some.inj (hx.symm.trans (hre i hr h3))
    · cases h3
  unfold State.takeMatch
  dsimp only
  split
  · rename_i i hi
    rw [State.reenter_tags]
    exact entered _ rfl
  · exact entered _ rfl

theorem State.rematch_tagLaw {s : State} (h : TagLaw s.ltk.tags) (was : MatchResult) (id : TagId) :
    TagLaw (s.rematch was id).ltk.tags := by
  unfold State.rematch
  split
  · split
    · split
      · exact State.takeMatch_tagLaw h _
      · exact h
    · exact h
  · exact h

theorem State.completePass_tagLaw {s : State} (h : TagLaw s.ltk.tags) (i : RecIx) :
    TagLaw (s.completePass i).ltk.tags := by
  unfold State.completePass
  split
  · exact h
  · split
    · exact h
    · split
      · rw [State.queueReport_ltk]; exact State.retire_tagLaw h i _
      · exact h

theorem State.checkPassed_tagLaw {s : State} (h : TagLaw s.ltk.tags) (i : RecIx) (p : Place) :
    TagLaw (s.checkPassed i p).ltk.tags := by
  have passed : TagLaw ((s.dropRead p).modRec i fun r => { r with tagCheck := .passed }).ltk.tags := by simpa using h
  cases p with
  | unload => exact State.completePass_tagLaw passed i
  | bench n => exact (State.arriveBench_tags _ n i).symm ▸ passed
  | _ => exact passed

theorem State.unreadable_tagLaw {s : State} (h : TagLaw s.ltk.tags) : TagLaw s.unreadable.ltk.tags := by
  simp only [State.unreadable, State.queueReport_ltk, State.setEntry_tags]
  exact h.noTag _ fun e he => by cases he; rfl

theorem State.arrivalTold_tagLaw {s : State} (h : TagLaw s.ltk.tags) : TagLaw s.arrivalTold.ltk.tags := by
  unfold State.arrivalTold
  split
  · exact h
  · exact State.clearEntry_tagLaw h

theorem State.checkAttempt_tagLaw {s : State} (h : TagLaw s.ltk.tags) (i : RecIx) (j : TagReadJob)
    (x : Option TagRead) : TagLaw (s.checkAttempt i j x).ltk.tags := by
  unfold State.checkAttempt
  split
  · exact h
  · split
    · exact State.checkPassed_tagLaw h i _
    · simpa using h
  · split
    · exact h
    · simpa using h

theorem State.readEnd_tagLaw {s : State} (h : TagLaw s.ltk.tags) (p : Place) (x : Option TagRead) :
    TagLaw (s.readEnd p x).ltk.tags := by
  unfold State.readEnd
  split
  · exact h
  · split
    · exact State.arrivalTold_tagLaw (State.takeMatch_tagLaw (by simpa using h) _)
    · split
      · exact h
      · exact State.arrivalTold_tagLaw (State.unreadable_tagLaw h)
    · exact State.checkAttempt_tagLaw h _ _ _

theorem State.entryUnmarked_tagLaw {s : State} (h : TagLaw s.ltk.tags) (id : TagId) :
    TagLaw (s.entryUnmarked id).ltk.tags := by
  unfold State.entryUnmarked
  split
  · rename_i e he
    split
    · rename_i t ht
      split
      · refine h.entry _ fun e' t' h1 h2 => ?_
        cases h1; cases h2
        exact ⟨fun h3 h4 i => h.fresh e t i he ht h3 h4, fun i x h3 hx => h.taken e t i x he ht h3 hx⟩
      · exact h
    · exact h
  · exact h

theorem State.writeDone_tagLaw {s : State} (h : TagLaw s.ltk.tags) (why : WriteFor) :
    TagLaw (s.writeDone why).ltk.tags := by
  cases why with
  | markClear id => exact State.rematch_tagLaw (State.entryUnmarked_tagLaw h id) _ _
  | _ => simpa [State.writeDone] using h

theorem State.writeFailed_tagLaw {s : State} (h : TagLaw s.ltk.tags) (why : WriteFor) :
    TagLaw (s.writeFailed why).ltk.tags := by
  cases why with
  | markClear id => unfold State.writeFailed; dsimp only; split <;> simpa using h
  | _ => simpa [State.writeFailed] using h

theorem State.writeEnd_tagLaw {s : State} (h : TagLaw s.ltk.tags) (p : Place) (b : Option Byte) :
    TagLaw (s.writeEnd p b).ltk.tags := by
  unfold State.writeEnd
  split
  · exact h
  · split
    · exact State.writeDone_tagLaw (by simpa using h) _
    · dsimp only
      split
      · simpa using h
      · exact State.writeFailed_tagLaw (by simpa using h) _

theorem State.beginArrival_tagLaw {s : State} (h : TagLaw s.ltk.tags) : TagLaw s.beginArrival.ltk.tags := by
  refine State.setEntry_none_tagLaw (s := s.endArrivalRead) ?_
  unfold State.endArrivalRead
  split
  · split <;> simpa using h
  · exact h

theorem State.loadPresent_tagLaw {s : State} (h : TagLaw s.ltk.tags) : TagLaw s.loadPresent.ltk.tags := by
  unfold State.loadPresent
  split
  · exact h
  · dsimp only
    split
    · exact h
    · exact State.beginArrival_tagLaw h

theorem State.loadClear_tagLaw {s : State} (h : TagLaw s.ltk.tags) : TagLaw s.loadClear.ltk.tags := by
  unfold State.loadClear
  split
  · exact h
  · exact State.clearEntry_tagLaw h

theorem State.setBack_tagLaw {s : State} (h : TagLaw s.ltk.tags) (p : Place) : TagLaw (s.setBack p).ltk.tags := by
  unfold State.setBack
  split
  · exact h
  · dsimp only
    split
    · exact h
    · split
      · exact h
      · cases p with
        | load => exact State.beginArrival_tagLaw h
        | _ => exact h

theorem State.doneLifted_tagLaw {s : State} (h : TagLaw s.ltk.tags) (p : Place) : TagLaw (s.doneLifted p).ltk.tags := by
  unfold State.doneLifted
  split
  · exact h
  · cases p with
    | load => exact State.loadClear_tagLaw h
    | _ => exact h

theorem State.moveBegin_tagLaw {s : State} (h : TagLaw s.ltk.tags) (i : RecIx) : TagLaw (s.moveBegin i).ltk.tags := by
  unfold State.moveBegin
  split
  · split
    · exact h
    · exact State.beginMove_tagLaw h _ _ _
  · exact h

theorem State.benchMoveStart_tagLaw {s : State} (h : TagLaw s.ltk.tags) : TagLaw s.benchMoveStart.ltk.tags := by
  unfold State.benchMoveStart
  split
  · split
    · split
      · split
        · exact State.beginMove_tagLaw (by simpa [State.setQueue] using h) _ _ _
        · exact h
      · exact h
    · exact h
  · exact h

theorem State.entryStart_tagLaw {s : State} (h : TagLaw s.ltk.tags) : TagLaw s.entryStart.ltk.tags := by
  unfold State.entryStart
  split
  · exact State.beginMove_tagLaw (by simpa using h) _ _ _
  · exact h

theorem State.exitStart_tagLaw {s : State} (h : TagLaw s.ltk.tags) (l : LaneId) : TagLaw (s.exitStart l).ltk.tags := by
  unfold State.exitStart
  split
  · dsimp only
    rw [State.unbind_tags]
    split
    · simp only [State.queueReport_ltk, State.modRec_tags, State.modHold_tags, State.raiseAll_tags, implies_true]
      exact State.beginMove_tagLaw (by simpa using h) _ _ _
    · simp only [State.modRec_tags, State.modHold_tags, State.raiseAll_tags, implies_true]
      exact State.beginMove_tagLaw (by simpa using h) _ _ _
  · exact h

theorem State.encoderPulse_tagLaw {s : State} (h : TagLaw s.ltk.tags) (l : LaneId) :
    TagLaw (s.encoderPulse l).ltk.tags := by
  have h₁ : TagLaw (s.advanceLane l).ltk.tags := by simpa using h
  unfold State.encoderPulse
  dsimp only
  split
  · unfold State.exitArrival
    dsimp only
    split
    · exact State.exitStart_tagLaw (by simpa using h₁) l
    · simpa using h₁
  · exact h₁

theorem State.exitGrant_tagLaw {s : State} (h : TagLaw s.ltk.tags) : TagLaw s.exitGrant.ltk.tags := by
  unfold State.exitGrant
  split
  · exact State.exitStart_tagLaw h _
  · exact h

/-! ## The store controller keeps the law -/

theorem State.failLoad_tagLaw {s : State} (h : TagLaw s.ltk.tags) (k : SlotIx) (n : Nat) (why : LoadFailure) :
    TagLaw (s.failLoad k n why).ltk.tags :=
  State.foldl_tagLaw (fun _ i ht => State.loadFailed_tagLaw ht i why) _ (by simpa using h)

theorem State.finishLoad_tagLaw {s : State} (h : TagLaw s.ltk.tags) (k : SlotIx) (v : SlotHead) (o : Nat) (p : Recipe) :
    TagLaw (s.finishLoad k v o p).ltk.tags :=
  State.foldl_tagLaw (fun _ i ht => State.loadSucceeded_tagLaw ht i k _ p) _ (by simpa using h)

theorem State.startLoads_tagLaw {s : State} (h : TagLaw s.ltk.tags) (fuel : Nat) :
    TagLaw (s.startLoads fuel).ltk.tags := by
  induction fuel generalizing s with
  | zero => exact h
  | succ fuel ih =>
    unfold State.startLoads
    split
    · exact h
    · split
      · exact h
      · split
        · split
          · exact ih (State.failLoad_tagLaw h _ _ _)
          · simpa using h
        · exact ih (by simpa using h)
        · exact ih (by simpa using h)

theorem State.requestLoad_tagLaw {s : State} (h : TagLaw s.ltk.tags) (i : RecIx) (n : Nat) :
    TagLaw (s.requestLoad i n).ltk.tags := by
  unfold State.requestLoad
  split
  · split
    · exact State.loadSucceeded_tagLaw (by simpa using h) _ _ _ _
    · exact h
    · exact h
  · split <;> simpa using h
  · exact State.startLoads_tagLaw (by simpa using h) _
  · exact State.loadFailed_tagLaw h _ _

theorem State.loaderTakes_tagLaw {s : State} (h : TagLaw s.ltk.tags) (bytes : List Byte) :
    TagLaw (s.loaderTakes bytes).ltk.tags := by
  unfold State.loaderTakes
  split
  · exact h
  · split
    · simpa using h
    · exact State.startLoads_tagLaw (State.finishLoad_tagLaw h _ _ _ _) _
    · exact State.startLoads_tagLaw (State.failLoad_tagLaw h _ _ _) _

theorem State.loaderFails_tagLaw {s : State} (h : TagLaw s.ltk.tags) : TagLaw s.loaderFails.ltk.tags := by
  unfold State.loaderFails
  split
  · exact h
  · exact State.startLoads_tagLaw (State.failLoad_tagLaw h _ _ _) _

theorem State.endStartUp_tagLaw {s : State} (h : TagLaw s.ltk.tags) (v : LiveConfig) :
    TagLaw (s.endStartUp v).ltk.tags := by
  have calm (t : State) (ht : TagLaw t.ltk.tags) : TagLaw (if t.lmf.estop then t.emergency else t).ltk.tags := by
    split <;> simpa using ht
  unfold State.endStartUp
  extract_lets s₁ s₂ s₃
  have told : TagLaw s₃.ltk.tags := calm s₂ (by simpa [s₂, s₁] using h)
  split
  · exact State.beginArrival_tagLaw told
  · exact told

theorem State.startUpTakes_tagLaw {s : State} (h : TagLaw s.ltk.tags) (bytes : Option (List Byte)) :
    TagLaw (s.startUpTakes bytes).ltk.tags := by
  unfold State.startUpTakes
  split
  · exact h
  · dsimp only
    split
    · simpa using h
    · split
      · exact State.endStartUp_tagLaw (by simpa using h) _
      · unfold State.takeHeader
        extract_lets st s₁
        split
        · exact State.endStartUp_tagLaw (by simpa [s₁] using h) _
        · simpa [s₁] using h

theorem State.handRead_tagLaw {s : State} (h : TagLaw s.ltk.tags) (who : Requestor) (bytes : List Byte) :
    TagLaw (s.handRead who bytes).ltk.tags := by
  cases who with
  | startUp => exact State.startUpTakes_tagLaw h _
  | fetch c => simpa [State.handRead] using h
  | readBack => unfold State.handRead; dsimp only; split <;> simpa using h
  | loader => exact State.loaderTakes_tagLaw h _
  | host => simpa [State.handRead] using h

theorem State.handError_tagLaw {s : State} (h : TagLaw s.ltk.tags) (who : Requestor) :
    TagLaw (s.handError who).ltk.tags := by
  cases who with
  | startUp => exact State.startUpTakes_tagLaw h _
  | fetch c => simpa [State.handError] using h
  | readBack => unfold State.handError; dsimp only; split <;> simpa using h
  | loader => exact State.loaderFails_tagLaw h
  | host => simpa [State.handError] using h

@[simp] theorem State.spoil_ltk (s : State) (op : AccessOp) : (s.spoil op).ltk = s.ltk := by cases op <;> rfl

theorem State.accessEnd_tagLaw {s : State} (h : TagLaw s.ltk.tags) (a : Access) : TagLaw (s.accessEnd a).ltk.tags := by
  unfold State.accessEnd
  split
  · exact State.handRead_tagLaw (by simpa using h) _ _
  · simpa using h

theorem State.accessError_tagLaw {s : State} (h : TagLaw s.ltk.tags) (a : Access) :
    TagLaw (s.accessError a).ltk.tags :=
  State.handError_tagLaw (by
    simpa [(State.reach_keeps s a.since Config.accessMs).ltk rfl] using h) _

end Sys2Proof.Machine
end

section
/-! PROOF. Every request and every command keeps the law of the tag IDs (R5, R9). -/

namespace Sys2Proof.Machine

/-! ## The requests keep the law -/

theorem State.admissible_eq_some {s : State} {id : TagId} {e : LoadEntry} (h : s.admissible id = some e) :
    s.ltk.loadEntry = some e ∧ e.takenBy = none ∧ (e.result = .new ∨ e.result = .marked) ∧
      ∃ t, e.tag = some t ∧ t.id = id := by
  unfold State.admissible at h
  split at h
  · split at h
    · split at h
      · rename_i he _ t ht hc
        cases h
        exact ⟨he, hc.2.2, hc.2.1, t, ht, hc.1⟩
      · cases h
    · cases h
  · cases h

/-- A record made for the carrier of a NEW entry that none has taken, which it takes (R6, R12). -/
theorem State.admitTo_tagLaw {s : State} (h : TagLaw s.ltk.tags) {i : RecIx} {e : LoadEntry} {t : TagRead}
    {r : CarrierRecord} (he : s.ltk.loadEntry = some e) (ht : e.tag = some t) (hn : e.result = .new)
    (hf : e.takenBy = none) (hr : r.tagId = t.id) : TagLaw (s.admitTo i e r).ltk.tags := by
  have free : ∀ j, s.ltk.tags.1 j ≠ some t.id := fun j => h.fresh e t j he ht hn hf
  refine State.requestLoad_tagLaw ?_ i _
  rw [State.setEntry_tags]
  constructor
  case unique =>
    intro j k x hj hk
    simp only [State.setRec_tags_fst, Option.map_some, hr] at hj hk
    split at hj <;> split at hk
    · simp_all
    · exact absurd (hk.trans hj.symm) (free k)
    · exact absurd (hj.trans hk.symm) (free j)
    · exact h.unique j k x hj hk
  case fresh =>
    intro e' t' j h1 _ _ h4
    cases h1; cases h4
  case taken =>
    intro e' t' j x h1 h2 h3 hx
    cases h1; cases h3
    simp only [State.setRec_tags_fst, Option.map_some, hr, if_true] at hx
    exact (Option.some.inj hx).symm.trans (congrArg TagRead.id (Option.some.inj (ht.symm.trans h2)))

/-- A table without records and no entry. -/
theorem TagLaw.empty : TagLaw (fun _ => none, none) :=
  ⟨fun _ _ _ e => (nomatch e), fun _ _ _ e => (nomatch e), fun _ _ _ _ e => (nomatch e)⟩

theorem State.unless_tagLaw {s : State} (h : TagLaw s.ltk.tags) (c : Bool) (st : ReplyStatus) {a : Answer}
    (ha : TagLaw a.1.ltk.tags) : TagLaw (s.unless c st a).1.ltk.tags := by
  unfold State.unless
  split
  · exact ha
  · exact h

theorem State.withRec_tagLaw {s : State} (h : TagLaw s.ltk.tags) (b : Byte) {f : RecIx → Answer}
    (hf : ∀ i, TagLaw (f i).1.ltk.tags) : TagLaw (s.withRec b f).1.ltk.tags := by
  unfold State.withRec
  split
  · exact hf _
  · exact h

theorem State.withCode_tagLaw {α : Type} {s : State} (h : TagLaw s.ltk.tags) (v : Option α) {f : α → Answer}
    (hf : ∀ a, TagLaw (f a).1.ltk.tags) : TagLaw (s.withCode v f).1.ltk.tags := by
  unfold State.withCode
  split
  · exact hf _
  · exact h

theorem State.doModeSet_tagLaw {s : State} (h : TagLaw s.ltk.tags) (m : LineMode) :
    TagLaw (s.doModeSet m).1.ltk.tags := by
  have set (x : LineMode) : TagLaw ((s.setMode x .lineModeSet).ok []).1.ltk.tags := by simpa [State.ok] using h
  unfold State.doModeSet
  split
  · exact State.unless_tagLaw h _ _ (set .run)
  · exact h
  · exact h
  · exact State.unless_tagLaw h _ _ (set .idle)
  · exact h
  · exact h
  · exact h
  all_goals exact set _

theorem State.doResume_tagLaw {s : State} (h : TagLaw s.ltk.tags) : TagLaw s.doResume.1.ltk.tags := by
  unfold State.doResume
  split
  · exact h
  · split
    · exact h
    · simpa [State.ok] using h

theorem State.doLineClear_tagLaw {s : State} (h : TagLaw s.ltk.tags) : TagLaw s.doLineClear.1.ltk.tags := by
  have cleared : TagLaw s.clearBlocks.ltk.tags := by
    have empty : s.clearBlocks.ltk.tags = (fun _ => none, none) := by
      refine Prod.ext (funext fun i => ?_) ?_ <;> simp [State.clearBlocks, Ltk.lineClear, Ltk.tags]
    rw [empty]
    exact TagLaw.empty
  unfold State.doLineClear
  split
  · exact h
  · dsimp only [State.ok]
    split
    · exact State.beginArrival_tagLaw (by simpa using cleared)
    · exact cleared

theorem State.doAdmit_tagLaw {s : State} (h : TagLaw s.ltk.tags) (id : TagId) (n : Nat) (serial : List Byte) :
    TagLaw (s.doAdmit id n serial).1.ltk.tags := by
  unfold State.doAdmit
  split
  · exact h
  · split
    · exact h
    · rename_i e he
      obtain ⟨hl, hf, hn, t, ht, rfl⟩ := State.admissible_eq_some he
      split
      · exact h
      · rename_i hm
        split
        · exact h
        · split
          · exact h
          · split
            · exact h
            · exact State.admitTo_tagLaw h hl ht (hn.resolve_right hm) hf rfl

theorem State.doRemove_tagLaw {s : State} (h : TagLaw s.ltk.tags) (i : RecIx) : TagLaw (s.doRemove i).1.ltk.tags := by
  unfold State.doRemove
  split
  · exact h
  · split
    · simpa [State.ok] using h
    all_goals exact State.retire_tagLaw h i _

theorem State.doTraceTake_tagLaw {s : State} (h : TagLaw s.ltk.tags) (i : RecIx) :
    TagLaw (s.doTraceTake i).1.ltk.tags := by
  unfold State.doTraceTake
  split
  · exact State.unless_tagLaw h _ _ (State.rematch_tagLaw (State.free_tagLaw h i) _ _)
  · exact h

theorem State.doHoldPlace_tagLaw {s : State} (h : TagLaw s.ltk.tags) (i : RecIx) (v : Severity) :
    TagLaw (s.doHoldPlace i v).1.ltk.tags := by
  unfold State.doHoldPlace
  split
  · split
    · simpa [State.ok] using h
    · simpa [State.ok] using h
    · exact h
    · exact h
  · exact h

theorem State.doHoldRead_tagLaw {s : State} (h : TagLaw s.ltk.tags) (l : Link) (i : RecIx) :
    TagLaw (s.doHoldRead l i).1.ltk.tags := by
  unfold State.doHoldRead
  split
  · exact h
  · cases l with
    | host => exact h
    | bench => dsimp only [State.ok, State.instructionRead]; split <;> simpa using h

theorem State.doHoldClaim_tagLaw {s : State} (h : TagLaw s.ltk.tags) (l : Link) (i : RecIx) :
    TagLaw (s.doHoldClaim l i).1.ltk.tags := by
  unfold State.doHoldClaim
  split
  · exact h
  · split
    · simpa [State.ok] using h
    · exact State.unless_tagLaw h _ _ h

theorem State.doHoldUnclaim_tagLaw {s : State} (h : TagLaw s.ltk.tags) (l : Link) (i : RecIx) :
    TagLaw (s.doHoldUnclaim l i).1.ltk.tags := by
  unfold State.doHoldUnclaim
  split
  · exact h
  · exact State.unless_tagLaw h _ _ (by simpa [State.ok] using h)

theorem State.doInstructionPost_tagLaw {s : State} (h : TagLaw s.ltk.tags) (i : RecIx) (text : List Byte) :
    TagLaw (s.doInstructionPost i text).1.ltk.tags := by
  unfold State.doInstructionPost
  split
  · exact h
  · exact State.unless_tagLaw h _ _ (by simpa [State.ok] using h)

theorem State.doFindingPost_tagLaw {s : State} (h : TagLaw s.ltk.tags) (i : RecIx) (text : List Byte) :
    TagLaw (s.doFindingPost i text).1.ltk.tags := by
  unfold State.doFindingPost
  split
  · exact h
  · split
    · exact h
    · exact h
    · exact State.unless_tagLaw h _ _ (by simpa [State.ok] using h)

theorem State.doFindingRead_tagLaw {s : State} (h : TagLaw s.ltk.tags) (i : RecIx) :
    TagLaw (s.doFindingRead i).1.ltk.tags := by
  unfold State.doFindingRead
  split
  · exact h
  · split
    · exact h
    · simpa [State.ok] using h

theorem State.holdSeen_some {s : State} {l : Link} {i : RecIx} {r : CarrierRecord} {h : Hold}
    (e : s.holdSeen l i = some (r, h)) : s.rec? i = some r ∧ r.hold = some h := by
  unfold State.holdSeen at e
  split at e
  · split at e
    · split at e
      · cases e; exact ⟨‹_›, ‹_›⟩
      · cases e
    · cases e
  · cases e

theorem State.holdOpenTo_some {s : State} {l : Link} {i : RecIx} {r : CarrierRecord} {h : Hold}
    (e : s.holdOpenTo l i = some (r, h)) : s.rec? i = some r ∧ r.hold = some h := by
  unfold State.holdOpenTo at e
  split at e
  · exact State.holdSeen_some e
  · cases e

theorem State.rework_tagLaw {s : State} (hs : TagLaw s.ltk.tags) {i : RecIx} {r : CarrierRecord}
    (hr : s.rec? i = some r) (h : Hold) (d : Disposition) (l : Link) : TagLaw (s.rework i r h d l).ltk.tags := by
  unfold State.rework
  dsimp only
  refine State.rematch_tagLaw ?_ _ _
  rw [State.holdChanged_ltk, State.setRec_tags hr (by split <;> rfl)]
  exact hs

theorem State.closeOut_tagLaw {s : State} (hs : TagLaw s.ltk.tags) {i : RecIx} {r : CarrierRecord}
    (hr : s.rec? i = some r) (h : Hold) (d : Disposition) (l : Link) (o : DoneOutcome) :
    TagLaw (s.closeOut i r h d l o).ltk.tags := by
  have closed (g : List HistoryEntry) (b : ReportBody) :
      TagLaw (((s.setRec i (some { r with hold := none, history := g })).queueReport b).retire i o).ltk.tags := by
    refine State.retire_tagLaw ?_ i o
    rw [State.queueReport_ltk, State.setRec_tags hr (r' := { r with hold := none, history := g }) rfl]
    exact hs
  unfold State.closeOut
  dsimp only
  split
  · rw [State.askWrite_tags]; exact closed _ _
  · exact closed _ _

theorem State.doHoldDispose_tagLaw {s : State} (h : TagLaw s.ltk.tags) (l : Link) (i : RecIx) (d : Disposition) :
    TagLaw (s.doHoldDispose l i d).1.ltk.tags := by
  unfold State.doHoldDispose
  split
  · exact h
  · rename_i e
    obtain ⟨hr, -⟩ := State.holdOpenTo_some e
    split
    · exact h
    · split
      · exact h
      · exact State.closeOut_tagLaw h hr _ _ _ _
      · exact State.rework_tagLaw h hr _ _ _

theorem State.doCellHome_tagLaw {s : State} (h : TagLaw s.ltk.tags) (c : CellId) :
    TagLaw (s.doCellHome c).1.ltk.tags := by
  unfold State.doCellHome
  split
  · exact h
  · split
    · simpa [State.ok] using h
    all_goals exact h

theorem State.doCellAbort_tagLaw {s : State} (h : TagLaw s.ltk.tags) (c : CellId) :
    TagLaw (s.doCellAbort c).1.ltk.tags := by
  unfold State.doCellAbort
  split
  · simpa [State.ok] using h
  · exact h

theorem State.doCellClear_tagLaw {s : State} (h : TagLaw s.ltk.tags) (c : CellId) :
    TagLaw (s.doCellClear c).1.ltk.tags := by
  unfold State.doCellClear
  split
  · exact h
  · simpa [State.ok] using h

theorem State.doStoreWrite_tagLaw {s : State} (h : TagLaw s.ltk.tags) (tag : Byte) (o : Nat) (data : List Byte) :
    TagLaw (s.doStoreWrite tag o data).1.ltk.tags := by
  unfold State.doStoreWrite
  split
  · exact h
  · simpa using h

theorem State.doRecipeCheck_tagLaw {s : State} (h : TagLaw s.ltk.tags) (tag : Byte) (n : Nat) :
    TagLaw (s.doRecipeCheck tag n).1.ltk.tags := by
  unfold State.doRecipeCheck
  dsimp only
  split
  · exact h
  · split
    · exact h
    · split
      · exact h
      · simpa using h

theorem State.dispatch_tagLaw {s : State} (h : TagLaw s.ltk.tags) (l : Link) (tag : Byte) (r : Request) :
    TagLaw (s.dispatch l tag r).1.ltk.tags := by
  cases r with
  | identify => exact h
  | lineStatus => exact h
  | lineModeSet m => exact State.withCode_tagLaw h _ fun m => State.doModeSet_tagLaw h m
  | resume => exact State.doResume_tagLaw h
  | lineConfig x m => exact State.unless_tagLaw h _ _ (by simpa [State.ok] using h)
  | lineClear => exact State.doLineClear_tagLaw h
  | faultRead => exact h
  | faultAck c => exact h
  | admitCarrier id n serial => exact State.doAdmit_tagLaw h id _ serial
  | remove i => exact State.withRec_tagLaw h _ fun i => State.doRemove_tagLaw h i
  | markClear id =>
    simp only [State.dispatch, State.doMarkClear]
    split
    · exact h
    · exact State.unless_tagLaw h _ _ h
  | carrierRead i => exact State.withRec_tagLaw h _ fun _ => h
  | traceTake i => exact State.withRec_tagLaw h _ fun i => State.doTraceTake_tagLaw h i
  | holdPlace i v =>
    exact State.withRec_tagLaw h _ fun i => State.withCode_tagLaw h _ fun v => State.doHoldPlace_tagLaw h i v
  | holdRead i => exact State.withRec_tagLaw h _ fun i => State.doHoldRead_tagLaw h l i
  | holdClaim i => exact State.withRec_tagLaw h _ fun i => State.doHoldClaim_tagLaw h l i
  | holdUnclaim i => exact State.withRec_tagLaw h _ fun i => State.doHoldUnclaim_tagLaw h l i
  | instructionPost i text => exact State.withRec_tagLaw h _ fun i => State.doInstructionPost_tagLaw h i text
  | findingPost i text => exact State.withRec_tagLaw h _ fun i => State.doFindingPost_tagLaw h i text
  | findingRead i => exact State.withRec_tagLaw h _ fun i => State.doFindingRead_tagLaw h i
  | benchList => exact h
  | holdDispose i d =>
    exact State.withRec_tagLaw h _ fun i => State.withCode_tagLaw h _ fun d => State.doHoldDispose_tagLaw h l i d
  | cellHome c => exact State.withCode_tagLaw h _ fun c => State.doCellHome_tagLaw h c
  | cellAbort c => exact State.withCode_tagLaw h _ fun c => State.doCellAbort_tagLaw h c
  | cellClear c => exact State.withCode_tagLaw h _ fun c => State.doCellClear_tagLaw h c
  | headClear v => exact State.withCode_tagLaw h _ fun v => by simpa [State.doHeadClear, State.ok] using h
  | lampSet v => exact State.withCode_tagLaw h _ fun v => by simpa [State.doLampSet, State.ok] using h
  | storeRead o n => exact h
  | storeWrite o data => exact State.doStoreWrite_tagLaw h tag _ data
  | recipeCheck n => exact State.doRecipeCheck_tagLaw h tag _
  | slotList => exact h

/-! ## Taking a request -/

@[simp] theorem State.sendReply_ltk (s : State) (l : Link) (r : Reply) : (s.sendReply l r).ltk = s.ltk := by
  cases l <;> rfl

theorem State.screen_tagLaw {s : State} (h : TagLaw s.ltk.tags) (l : Link) (kind tag : Byte) (r : Option Request) :
    TagLaw (s.screen l kind tag r).ltk.tags := by
  have screened : TagLaw (s.screenRequest l kind tag r).1.ltk.tags := by
    unfold State.screenRequest
    split
    · exact h
    · split
      · exact h
      · split
        · exact h
        · split
          · exact h
          · split
            · exact h
            · exact State.dispatch_tagLaw h l tag _
  unfold State.screen
  split
  · exact h
  · unfold Answer.deliver
    split
    · rw [State.sendReply_ltk]; exact screened
    · exact screened

theorem State.take_tagLaw {s : State} (h : TagLaw s.ltk.tags) (l : Link) (f : Frame) (r : Option Request) :
    TagLaw (s.take l f r).ltk.tags := by
  unfold State.take
  split
  · exact h
  · cases l with
    | bench =>
      dsimp only
      split
      · exact h
      · exact State.screen_tagLaw (s := s.benchHeard) h _ _ _ _
    | host =>
      dsimp only
      split
      · exact h
      · split
        · exact h
        · exact State.screen_tagLaw h _ _ _ _

theorem State.screenHeld_tagLaw {s : State} (h : TagLaw s.ltk.tags) : TagLaw s.screenHeld.ltk.tags := by
  unfold State.screenHeld
  split
  · split
    · exact h
    · exact State.screen_tagLaw (s := s.setHeld none) h _ _ _ _
  · exact h

@[simp] theorem State.setRx_ltk (s : State) (l : Link) (v : Rx) : (s.setRx l v).ltk = s.ltk := by cases l <;> rfl

theorem State.receive_tagLaw {s : State} (h : TagLaw s.ltk.tags) (l : Link) (bytes : List Byte) :
    TagLaw (s.receive l bytes).ltk.tags := by
  refine State.foldl_tagLaw (fun t b ht => ?_) bytes h
  unfold State.receiveByte
  split
  · exact ht
  · dsimp only
    split
    · exact State.take_tagLaw (by simpa using ht) _ _ _
    · simpa using ht

@[simp] theorem State.discard_ltk (s : State) (l : Link) (bytes : List Byte) (framing : Bool) :
    (s.discard l bytes framing).ltk = s.ltk := by
  unfold State.discard
  split
  · rfl
  · dsimp only; split <;> simp

@[simp] theorem State.rxGap_ltk (s : State) (l : Link) : (s.rxGap l).ltk = s.ltk := by
  unfold State.rxGap
  split
  · rw [State.setRx_ltk, (State.reach_keeps _ _ _).ltk rfl]
  · rfl

/-! ## Every command keeps the law -/

@[simp] theorem State.settle_ltk (s : State) : s.settle.ltk = s.ltk := by
  have tx (t : State) : t.startTx.ltk = t.ltk := by
    unfold State.startTx
    split
    · rfl
    · split <;> rfl
  simp [State.settle, tx]

theorem State.estopEvent_tagLaw {s : State} (h : TagLaw s.ltk.tags) : TagLaw s.estopEvent.ltk.tags := by
  unfold State.estopEvent
  split
  · exact h
  · split
    · exact h
    · simpa [State.estopActive] using h

theorem State.ballastEvent_tagLaw {s : State} (h : TagLaw s.ltk.tags) : TagLaw s.ballastEvent.ltk.tags := by
  unfold State.ballastEvent; split <;> simpa using h

theorem Ltk.reset_tags (v : Sensors) : (Ltk.reset v).tags = (fun _ => none, none) :=
  Prod.ext (funext fun i => by simp [Ltk.reset, Ltk.tags]) rfl

/-- What a command goes on to keeps the law. -/
def KeepsTagLaw (o : Host.Outcome State Fault Refusal) : Prop := ∀ t, o = .next t → TagLaw t.ltk.tags

theorem State.goesOn_tagLaw {s : State} (h : TagLaw s.ltk.tags) : KeepsTagLaw s.goesOn := fun t e => by
  cases e; rw [State.settle_ltk]; exact h

theorem State.endAccess_tagLaw {s : State} (h : TagLaw s.ltk.tags) {f : State → Access → State}
    (hf : ∀ a, TagLaw (f s a).ltk.tags) : KeepsTagLaw (s.endAccess f) := by
  unfold State.endAccess
  split
  · split
    · exact State.goesOn_tagLaw (hf _)
    · exact fun _ e => nomatch e
  · exact State.goesOn_tagLaw h

theorem exec_tagLaw {s : State} (h : TagLaw s.ltk.tags) (c : Instr) : KeepsTagLaw (exec c s) := by
  cases c with
  | por fast => exact State.goesOn_tagLaw (by
      show TagLaw (Ltk.reset s.ltk.sensors).tags
      rw [Ltk.reset_tags]; exact TagLaw.empty)
  | emergencyStop => exact State.goesOn_tagLaw (State.estopEvent_tagLaw h)
  | frameValid l bytes => exact State.goesOn_tagLaw (State.receive_tagLaw h l bytes)
  | heldFrameScreen => exact State.goesOn_tagLaw (State.screenHeld_tagLaw h)
  | storeAccessEnd => exact State.endAccess_tagLaw h fun a => State.accessEnd_tagLaw h a
  | storeAccessTimeout => exact State.endAccess_tagLaw h fun a => State.accessError_tagLaw h a
  | loadArrival => exact State.goesOn_tagLaw (State.loadPresent_tagLaw h)
  | tagReadAttemptEnd p x => exact State.goesOn_tagLaw (State.readEnd_tagLaw h p x)
  | tagWriteAttemptEnd p b => exact State.goesOn_tagLaw (State.writeEnd_tagLaw h p b)
  | loadEntryClear => exact State.goesOn_tagLaw (State.loadClear_tagLaw h)
  | moveBegin i => exact State.goesOn_tagLaw (State.moveBegin_tagLaw h i)
  | benchMoveStart => exact State.goesOn_tagLaw (State.benchMoveStart_tagLaw h)
  | carrierSetBack p => exact State.goesOn_tagLaw (State.setBack_tagLaw h p)
  | doneCarrierLifted p => exact State.goesOn_tagLaw (State.doneLifted_tagLaw h p)
  | entryTransferStart => exact State.goesOn_tagLaw (State.entryStart_tagLaw h)
  | encoderPulse l => exact State.goesOn_tagLaw (State.encoderPulse_tagLaw h l)
  | exitTransferStart => exact State.goesOn_tagLaw (State.exitGrant_tagLaw h)
  | ballastFault => exact State.goesOn_tagLaw (State.ballastEvent_tagLaw h)
  | emergencyStopRelease | hostTxDone | benchTxDone => exact State.goesOn_tagLaw h
  | frameDiscard l bytes f => exact State.goesOn_tagLaw (by simpa using h)
  | rxGapTimeout l => exact State.goesOn_tagLaw (by simpa using h)
  | benchSilenceExpiry | storeGrant | sourceCleared | moveEnd | exitTransferEnd | transportTimeout | carrierMissing
  | carrierLifted | walkStart | channelResult | positionerArrival | inspectPositionTimeout | groupWaitExpiry
  | resultTimerExpiry | homeReached | programStart | homeTimeout | seekEnd | gantryHaltReport | leadTimerExpiry
  | valveCloseTimer | motionEnd | valveFault | gantryTimeout | starveLimit | laneEntryEnd | uvSample | thermalSample
  | warmUpEnd | ballastFaultInactive => exact State.goesOn_tagLaw (by simpa using h)
  | identify | lineStatus | lineModeSet | resume | lineConfig | lineClear
  | faultRead | faultAck | admitCarrier | remove | markClear | carrierRead
  | traceTake | holdPlace | holdRead | holdClaim | holdUnclaim
  | instructionPost | findingPost | findingRead | benchList | holdDispose
  | cellHome | cellAbort | cellClear | headClear | lampSet | storeRead
  | storeWrite | recipeCheck | slotList => exact State.goesOn_tagLaw (State.take_tagLaw h _ _ _)

theorem step_tagLaw {s t : State} (h : TagLaw s.ltk.tags) (e : step s = .next t) : TagLaw t.ltk.tags := by
  unfold step at e
  split at e
  · rename_i c rest _
    exact exec_tagLaw (s := { s with pending := rest }) h c t e
  · cases e; exact h

/-- The law in the words of the statement: of records and of the LOAD entry. -/
theorem tagLaw_iff (s : State) : TagLaw s.ltk.tags ↔
    (∀ i j r q, s.rec? i = some r → s.rec? j = some q → r.tagId = q.tagId → i = j) ∧
    (∀ e t, s.ltk.loadEntry = some e → e.tag = some t →
      (e.result = .new → e.takenBy = none → ∀ i r, s.rec? i = some r → r.tagId ≠ t.id) ∧
      (∀ i r, e.takenBy = some i → s.rec? i = some r → r.tagId = t.id)) := by
  have held {i r} (hr : s.rec? i = some r) : s.ltk.tags.1 i = some r.tagId := by rw [State.tags_fst, hr]; rfl
  have holder {i x} (hx : s.ltk.tags.1 i = some x) : ∃ r, s.rec? i = some r ∧ r.tagId = x :=
    Option.map_eq_some_iff.1 hx
  constructor
  · intro h
    refine ⟨fun i j r q hr hq e => h.unique i j q.tagId (e ▸ held hr) (held hq), fun e t he ht => ⟨?_, ?_⟩⟩
    · exact fun hn hf i r hr hi => h.fresh e t i he ht hn hf (hi ▸ held hr)
    · exact fun i r hi hr => h.taken e t i _ he ht hi (held hr)
  · rintro ⟨hu, he⟩
    constructor
    case unique =>
      intro i j t hi hj
      obtain ⟨r, hr, rfl⟩ := holder hi
      obtain ⟨q, hq, e⟩ := holder hj
      exact hu i j r q hr hq e.symm
    case fresh =>
      intro e t i h1 h2 h3 h4 hi
      obtain ⟨r, hr, e'⟩ := holder hi
      exact (he e t h1 h2).1 h3 h4 i r hr e'
    case taken =>
      intro e t i x h1 h2 h3 hx
      obtain ⟨r, hr, rfl⟩ := holder hx
      exact (he e t h1 h2).2 i r h3 hr

/-- Settles O28: the law holds at reset, where no record is in use, and every command keeps it. -/
theorem noTwoRecordsHoldOneTag : Obligations.NoTwoRecordsHoldOneTag := by
  refine ⟨(tagLaw_iff _).1 ?_, fun s t h e => (tagLaw_iff t).1 (step_tagLaw ((tagLaw_iff s).2 h) e)⟩
  rw [show State.reset.ltk = Ltk.reset Sensors.clear from rfl, Ltk.reset_tags]
  exact TagLaw.empty

end Sys2Proof.Machine
end

section
/-! PROOF. What the presence sensors report (R1, R2, R8, R24, R172). -/

namespace Sys2Proof.Machine

/-- A command that goes on from one of two equal states. -/
theorem State.goesOn_congr {s t : State} (h : s = t) : s.goesOn = .next t.settle := by rw [h]; rfl

/-- A report is queued alike, whatever the Line Tracker holds. -/
theorem State.queueReport_withLtk (s : State) (v : Ltk) (b : ReportBody) :
    ({ s with ltk := v } : State).queueReport b = { s.queueReport b with ltk := v } := by
  unfold State.queueReport
  split
  · rfl
  · split <;> rfl

theorem State.any_src {s : State} {p : Place} :
    (s.ltk.moves.any fun m => decide (m.src = p)) = true ↔ ∃ m ∈ s.ltk.moves, m.src = p := by simp

theorem State.clearEntry_eq (s : State) :
    s.clearEntry = { s with ltk := { s.ltk with loadEntry := s.ltk.loadEntry.filter fun e => e.takenBy.isSome } } := by
  unfold State.clearEntry
  split
  · rename_i e he
    rcases hk : e.takenBy with _ | k
    · simp [State.setEntry, he, hk, Option.filter]
    · simp only [Option.isNone_some, he, Option.filter, hk, Option.isSome_some, if_true]
      rw [if_neg (by simp), ← he]
  · rename_i he
    rw [he, Option.filter_none, ← he]

/-- The arrival taken at LOAD (R8), with the LOAD_ARRIVAL of an earlier one whose read is still in progress. -/
theorem State.beginArrival_eq (s : State) (v : Ltk) (hv : v.reads = s.ltk.reads) :
    ({ s with ltk := v } : State).beginArrival =
      { (if (s.readAt .load).map TagReadJob.why = some .arrival then s.queueReport (.loadArrival none .unreadable)
          else s) with
        ltk := { v with
          loadEntry := none
          reads := v.reads.filter (fun j => decide (j.place ≠ .load))
            ++ [{ place := .load, why := .arrival, attempt := 1 }] } } := by
  have hat : ({ s with ltk := v } : State).readAt .load = s.readAt .load := by simp only [State.readAt, hv]
  unfold State.beginArrival State.endArrivalRead
  rw [hat]
  rcases s.readAt .load with _ | j
  · rfl
  · by_cases hw : j.why = .arrival
    · simp only [hw, if_true, Option.map_some, State.queueReport_withLtk]; rfl
    · simp only [hw, if_false, Option.map_some, Option.some.injEq]; rfl

/-- Settles O42, clause by clause: each sensor event takes its level and starts or drops what its rule says. -/
theorem sensorLevelsAreTaken : Obligations.SensorLevelsAreTaken := by
  intro s p level reading
  refine ⟨fun hp => ?arrival, fun hr => ?clear, fun hm => ?source, fun hr hm hne => ?lifted,
    fun hp hm hs hst i hi => ?setBack⟩
  case arrival =>
    intro alone taken told
    refine State.goesOn_congr ?_
    unfold State.loadPresent
    rw [hp, if_neg (by simp)]
    dsimp only [State.setSensor_starting]
    by_cases ha : alone
    · have hb : (s.starting || (s.recordAt .load).isSome) = true := by simpa [alone] using ha
      rw [if_pos hb]
      simp only [taken, told, ha, not_true, false_and, if_true, if_false]
      rfl
    · have hb : ¬ (s.starting || (s.recordAt .load).isSome) = true := by simpa [alone] using ha
      rw [if_neg hb]
      simp only [taken, told, ha, not_false_iff, true_and, if_false]
      exact State.beginArrival_eq s (level .load true) rfl
  case clear =>
    refine State.goesOn_congr ?_
    unfold State.loadClear
    rw [hr, if_neg (by simp), State.clearEntry_eq]
    rfl
  case source =>
    refine State.goesOn_congr ?_
    unfold State.sourceClear
    rw [if_pos (State.any_src.2 hm)]
    rfl
  case lifted =>
    refine State.goesOn_congr ?_
    have stay : ¬ ((s.recordAt p).isSome || s.ltk.moves.any fun m => decide (m.src = p)) = true := by
      simpa [hr] using hm
    unfold State.doneLifted
    rw [if_neg stay]
    cases p with
    | load => exact absurd rfl hne
    | _ => rfl
  case setBack =>
    refine State.goesOn_congr ?_
    have stay : ¬ (s.present p || s.ltk.moves.any (fun m => decide (m.dst = p)) || !p.hasSensor) = true := by
      simpa [hp, hs] using hm
    unfold State.setBack
    rw [if_neg stay]
    dsimp only
    rw [if_neg (by simp [hst]), hi]
    rfl

end Sys2Proof.Machine
end

section
/-! PROOF. When a move of the Line Tracker begins (R1, R2, R17 to R19, R22, R147, R148). -/

namespace Sys2Proof.Machine

/-! ## The rules of R2 and R18 -/

theorem State.live?_eq_some {s : State} {i : RecIx} {r : CarrierRecord} :
    s.live? i = some r ↔ s.rec? i = some r ∧ r.status.isLive = true := by
  refine ⟨State.live?_some, fun ⟨hr, hl⟩ => ?_⟩
  simp [State.live?, hr, hl]

theorem State.mem_recordsAt {s : State} {p : Place} {i : RecIx} :
    i ∈ s.recordsAt p ↔ ∃ r, s.rec? i = some r ∧ r.status.isLive = true ∧ r.position = .standing p := by
  simp only [State.recordsAt, recIxs, List.mem_filter, List.mem_finRange, true_and]
  constructor
  · intro h
    split at h
    · rename_i r hr
      obtain ⟨hr, hl⟩ := State.live?_some hr
      exact ⟨r, hr, hl, of_decide_eq_true h⟩
    · cases h
  · rintro ⟨r, hr, hl, hp⟩
    simp [State.live?_eq_some.2 ⟨hr, hl⟩, hp]

theorem Place.isBench_iff (p : Place) : p.isBench = true ↔ ∃ n, p = .bench n := by
  cases p <;> simp [Place.isBench]

/-- A position is free in the model as R1 and R19 say. -/
theorem State.isFree_iff (s : State) (p : Place) : s.isFree p = true ↔ FreeByRule s p := by
  have stand : (s.recordsAt p).isEmpty = true ↔
      ∀ i r, s.rec? i = some r → r.status.isLive = true → r.position ≠ .standing p := by
    rw [List.isEmpty_iff, List.eq_nil_iff_forall_not_mem]
    simp only [State.mem_recordsAt, not_exists, not_and, ne_eq]
  have move : (s.ltk.moves.any fun m => m.occupies p) = false ↔
      ∀ m ∈ s.ltk.moves, m.dst ≠ p ∧ (m.src = p → ∀ n, m.dst ≠ .bench n) := by
    simp only [List.any_eq_false, Move.occupies, Bool.or_eq_true, Bool.and_eq_true, decide_eq_true_eq, not_or, not_and,
      Place.isBench_iff, not_exists, ne_eq]
  simp only [State.isFree, Bool.and_eq_true, Bool.not_eq_true', stand, move, FreeByRule, and_assoc]

theorem State.lowestFreeBench_iff (s : State) (n : BenchIx) : s.lowestFreeBench = some n ↔ LowestBench s n := by
  rw [State.lowestFreeBench, benchIxs, ← Fin.find?_eq_find?_finRange, Fin.find?_eq_some_iff, LowestBench]
  simp only [← State.isFree_iff, Bool.not_eq_true]

theorem planLeads_iff (plan : List RouteEntry) (dst : Place) :
    PlanLeads plan dst ↔ plan.head?.bind RouteEntry.place? = some dst := by
  rcases plan with _ | ⟨e, plan⟩
  · simp [PlanLeads]
  · cases e <;> cases dst <;> simp [PlanLeads, RouteEntry.place?]

theorem names_iff (m : Option RunMark) (i : RecIx) (r : CarrierRecord) :
    names m i r = true ↔ m = some { ix := i, pass := r.pass } := by simp [names]

theorem State.cellReleases_iff (s : State) (c : CellId) (i : RecIx) (r : CarrierRecord) :
    s.cellReleases c i r = true ↔
      (s.cell c).runMark = some { ix := i, pass := r.pass } ∧ ∀ p, (s.cell c).program = some p → p.ix ≠ i := by
  unfold State.cellReleases
  rw [Bool.and_eq_true, names_iff]
  rcases (s.cell c).program with _ | p <;> simp

theorem State.released_iff (s : State) (p : Place) (i : RecIx) (r : CarrierRecord) :
    s.released p i r = true ↔ ReleasedByRule s i r p := by
  cases p <;> simp [State.released, ReleasedByRule, names_iff, State.cellReleases_iff, State.cell]

theorem State.cellOpen_iff (s : State) (c : CellId) (r : CarrierRecord) :
    s.cellOpen c r = true ↔ (s.cell c).state = .ready ∧ r.maskVerdict = .ok := by
  rw [State.cellOpen, Bool.and_eq_true, decide_eq_true_iff, decide_eq_true_iff]

theorem State.admits_iff (s : State) (dst : Place) (r : CarrierRecord) :
    s.admits dst r = true ↔ AdmittedByRule s r dst := by
  cases dst <;> simp [State.admits, AdmittedByRule, State.isFree_iff, State.cellOpen_iff, State.cell, State.wetSpace]

theorem allows_iff {plan : List RouteEntry} {dst : Place} (h : PlanLeads plan dst) (m : LineMode) :
    m.allows dst = true ↔ ModeLets m dst := by
  cases m with
  | run => simp [LineMode.allows, ModeLets]
  | pause => cases dst <;> simp_all [LineMode.allows, ModeLets, PlanLeads]
  | stop => simp [LineMode.allows, ModeLets]
  | idle => simp [LineMode.allows, ModeLets]

/-- A move can begin in the model as R2, R18 and R22 say. -/
theorem State.moveReady_iff (s : State) (i : RecIx) (src dst : Place) :
    s.moveReady i = some (src, dst) ↔ ∃ r, s.rec? i = some r ∧ MayMove s i r src dst := by
  unfold State.moveReady MayMove
  constructor
  · intro h
    split at h
    · cases h
    · rename_i r hr
      split at h
      · rename_i src' dst' hsrc hdst
        split at h
        · rename_i hc
          obtain ⟨rfl, rfl⟩ := Prod.mk.inj (Option.some.inj h)
          obtain ⟨hact, hrel, htag, hmode, hadm⟩ := hc
          have hplan := (planLeads_iff _ _).2 hdst
          exact ⟨r, (State.live?_some hr).1, hact, hsrc, hplan, (s.released_iff _ _ _).1 hrel, htag,
            (allows_iff hplan _).1 hmode, (s.admits_iff _ _).1 hadm⟩
        · cases h
      · cases h
  · rintro ⟨r, hr, hact, hsrc, hplan, hrel, htag, hmode, hadm⟩
    have hl : s.live? i = some r := State.live?_eq_some.2 ⟨hr, by rw [hact]; rfl⟩
    rw [hl]
    dsimp only
    rw [hsrc, (planLeads_iff _ _).1 hplan]
    exact if_pos ⟨hact, (s.released_iff _ _ _).2 hrel, htag, (allows_iff hplan _).2 hmode, (s.admits_iff _ _).2 hadm⟩

theorem placeRank_eq (p : Place) : placeRank p = sourceOrder.idxOf p := by cases p <;> rfl

/-- A record gives way in the model as R18 says. -/
theorem State.outranked_iff (s : State) (i : RecIx) (src dst : Place) :
    s.outranked i src dst = true ↔ GivesWay s i src dst := by
  simp only [State.outranked, GivesWay, List.any_eq_true, recIxs, List.mem_finRange, true_and, ← placeRank_eq]
  refine exists_congr fun j => ?_
  constructor
  · intro h
    split at h
    · rename_i src' dst' hm
      simp only [Bool.and_eq_true, decide_eq_true_eq] at h
      obtain ⟨⟨hne, rfl⟩, hlt⟩ := h
      obtain ⟨q, hq, hmay⟩ := (s.moveReady_iff _ _ _).1 hm
      exact ⟨q, src', hne, hq, hmay, hlt⟩
    · cases h
  · rintro ⟨q, src', hne, hq, hmay, hlt⟩
    rw [(s.moveReady_iff _ _ _).2 ⟨q, hq, hmay⟩]
    simp [hne, hlt]

/-! ## A move begun -/

theorem dropMark_ne (i : RecIx) (m : Option RunMark) (n : Nat) : dropMark i m ≠ some { ix := i, pass := n } := by
  rcases m with _ | m
  · simp [dropMark]
  · unfold dropMark
    dsimp only
    split
    · simp
    · rintro e; cases e; contradiction

/-- The mark of the station that a record leaves no longer names it (R61, R91). -/
theorem State.leaveStation_marks (s : State) (src : Place) (i : RecIx) :
    (src = .mask → ∀ n, (s.leaveStation src i).ine.mask.given ≠ some { ix := i, pass := n }) ∧
    (src = .inspect → ∀ n, (s.leaveStation src i).ine.inspect.given ≠ some { ix := i, pass := n }) ∧
    (src = .sprayA → ∀ n, (s.leaveStation src i).scc.a.runMark ≠ some { ix := i, pass := n }) ∧
    (src = .sprayB → ∀ n, (s.leaveStation src i).scc.b.runMark ≠ some { ix := i, pass := n }) := by
  refine ⟨?_, ?_, ?_, ?_⟩ <;> rintro rfl n <;> exact dropMark_ne _ _ _

theorem State.leaveLoad_eq (s : State) (src : Place) (i : RecIx) :
    ∃ e, s.leaveLoad src i = s.setEntry e := by
  have same : s = s.setEntry s.ltk.loadEntry := rfl
  cases src with
  | load =>
    unfold State.leaveLoad
    dsimp only
    split
    · split
      · exact ⟨_, rfl⟩
      · exact ⟨_, same⟩
    · exact ⟨_, same⟩
  | _ => exact ⟨_, same⟩

theorem State.modRec_eq {s : State} {i : RecIx} {r : CarrierRecord} (h : s.rec? i = some r)
    (f : CarrierRecord → CarrierRecord) : s.modRec i f = s.setRec i (some (f r)) := by
  simp [State.modRec, h]

/-- What a move begun sets: the record IN_TRANSIT, the move in flight with its 20 s timer, the mark of the station that it
leaves dropped (R2, R61, R91). -/
theorem State.beginMove_follows (s : State) (i : RecIx) (r : CarrierRecord) (src dst : Place) (hr : s.rec? i = some r) :
    let u := s.beginMove i src dst
    (u.ltk.moves =
        s.ltk.moves ++ [{ ix := i, src := src, dst := dst, drive := .driven { since := s.now, ms := 20000 } }] ∧
      u.ltk.table = s.ltk.table.set i (some { r with position := .inTransit src dst }) ∧
      u.ltk.sensors = s.ltk.sensors ∧ u.rsc = s.rsc ∧ u.ctc = s.ctc ∧ u.lmf = s.lmf ∧ u.liu = s.liu ∧
      (src = .mask → ∀ n, u.ine.mask.given ≠ some { ix := i, pass := n }) ∧
      (src = .inspect → ∀ n, u.ine.inspect.given ≠ some { ix := i, pass := n }) ∧
      (src = .sprayA → ∀ n, u.scc.a.runMark ≠ some { ix := i, pass := n }) ∧
      (src = .sprayB → ∀ n, u.scc.b.runMark ≠ some { ix := i, pass := n })) ∧ u.hmg = s.hmg := by
  intro u
  let t : State := (s.setRec i (some { r with position := .inTransit src dst })).setMoves
    (s.ltk.moves ++ [{ ix := i, src := src, dst := dst, drive := .driven { since := s.now, ms := 20000 } }])
  have begun : u = (t.leaveStation src i).leaveLoad src i := by
    simp only [u, t, State.beginMove, State.modRec_eq hr]; rfl
  obtain ⟨e, he⟩ := (t.leaveStation src i).leaveLoad_eq src i
  have kept := t.leaveStation_keeps src i
  rw [begun, he]
  have ltk : (t.leaveStation src i).ltk = t.ltk := kept.ltk rfl
  have sensors : (t.leaveStation src i).ltk.sensors = t.ltk.sensors := congrArg Ltk.sensors ltk
  have lmf : (t.leaveStation src i).lmf = t.lmf := by
    cases src <;> simp [State.leaveStation, State.dropGiven, State.dropRunMark]
  have liu : (t.leaveStation src i).liu = t.liu := by
    cases src <;> simp [State.leaveStation, State.dropGiven, State.dropRunMark]
  exact ⟨⟨congrArg Ltk.moves ltk, congrArg Ltk.table ltk, sensors, kept.rsc rfl, kept.ctc rfl, lmf, liu,
    t.leaveStation_marks src i⟩, kept.hmg rfl⟩

/-- Without a head of the Bench Queue that can move, no bench move starts. -/
theorem State.benchMoveStart_stays (s : State)
    (h : ∀ j rest n q src, s.hmg.queue = j :: rest → s.lowestFreeBench = some n → s.live? j = some q →
      q.position = .standing src → ¬ (s.lmf.mode.allows (.bench n) = true ∧ q.tagCheck ≠ .failed)) :
    s.benchMoveStart = s := by
  unfold State.benchMoveStart
  split
  · rename_i hq hn
    split
    · rename_i hl
      split
      · exact if_neg (h _ _ _ _ _ hq hn hl ‹_›)
      · rfl
    · rfl
  · rfl

/-- Settles O46: the conditions of the model's two starts are those of the rules, and both begin the same move. -/
theorem movesBeginWhenAllowed : Obligations.MovesBeginWhenAllowed := by
  intro s i r src hr hsrc moving
  refine ⟨fun dst hmay hway => ?begins, fun hway => ?waits, fun rest n hq hn hl htag hmode => ?bench, fun hno => ?benchWaits⟩
  case begins =>
    have ready : s.moveBegin i = s.beginMove i src dst := by
      unfold State.moveBegin
      rw [(s.moveReady_iff i src dst).2 ⟨r, hr, hmay⟩]
      exact if_neg fun h => hway ((s.outranked_iff _ _ _).1 h)
    exact ⟨_, State.goesOn_congr ready, s.beginMove_follows i r src dst hr⟩
  case waits =>
    refine State.goesOn_congr ?_
    unfold State.moveBegin
    split
    · rename_i src' dst hm
      obtain ⟨q, hq, hmay⟩ := (s.moveReady_iff _ _ _).1 hm
      cases hr.symm.trans hq
      cases hsrc.symm.trans hmay.2.1
      exact if_pos ((s.outranked_iff _ _ _).2 (hway dst hmay))
    · rfl
  case bench =>
    have allowed : s.lmf.mode.allows (.bench n) = true := by rcases hmode with h | h <;> rw [h] <;> rfl
    have ready : s.benchMoveStart = (s.setQueue rest).beginMove i src (.bench n) := by
      unfold State.benchMoveStart
      rw [hq, (s.lowestFreeBench_iff n).2 hn]
      dsimp only
      rw [State.live?_eq_some.2 ⟨hr, hl⟩]
      dsimp only
      rw [hsrc]
      exact if_pos ⟨allowed, htag⟩
    obtain ⟨hmoves, hhmg⟩ := (s.setQueue rest).beginMove_follows i r src (.bench n) hr
    exact ⟨_, State.goesOn_congr ready, hmoves, hhmg⟩
  case benchWaits =>
    refine State.goesOn_congr (s.benchMoveStart_stays fun j rest' n q src' hq hn hl _ ⟨hallow, htag⟩ => ?_)
    rcases hno with h | h | h | h | ⟨rest, h, hfail⟩
    · rw [h] at hq; cases hq
    · exact h n ((s.lowestFreeBench_iff n).1 hn).1
    · rw [h] at hallow; cases hallow
    · rw [h] at hallow; cases hallow
    · cases h.symm.trans hq
      cases hr.symm.trans (State.live?_some hl).1
      exact htag hfail

end Sys2Proof.Machine
end

section
/-! PROOF. How a move ends at its target (R3, R22, R110, R126, R146). -/

namespace Sys2Proof.Machine

@[simp] theorem State.setRec_setRec (s : State) (i : RecIx) (r r' : Option CarrierRecord) :
    (s.setRec i r).setRec i r' = s.setRec i r' := by simp [State.setRec]

/-- The tag check begun for a record that has arrived (R22). -/
theorem State.startCheck_eq {s : State} {i : RecIx} {r : CarrierRecord} (h : s.rec? i = some r) (p : Place) :
    s.startCheck i p = { s with ltk := { s.ltk with
      table := s.ltk.table.set i (some { r with tagCheck := .none })
      reads := s.ltk.reads.filter (fun j => decide (j.place ≠ p)) ++ [{ place := p, why := .check i, attempt := 1 }] } } := by
  rw [State.startCheck, State.modRec_eq h]; rfl

/-- What the target of a move takes: a tag check where there is a reader, the bench position, the wet queue (R22, R110,
R146). -/
theorem State.settleAt_eq {s : State} {i : RecIx} {r : CarrierRecord} (h : s.rec? i = some r) (p : Place) :
    s.settleAt i p = { s with
      ltk :=
        if p.hasReader = true ∧ p ≠ .load then
          { s.ltk with
            table := s.ltk.table.set i (some { r with tagCheck := .none })
            reads := s.ltk.reads.filter (fun j => decide (j.place ≠ p)) ++ [{ place := p, why := .check i, attempt := 1 }] }
        else s.ltk
      ctc := if p = .wetq then { s.ctc with wetQueue := s.ctc.wetQueue ++ [i] } else s.ctc
      hmg := match p with
        | .bench n => { s.hmg with bench := s.hmg.bench.set n (some i) }
        | _ => s.hmg } := by
  cases p with
  | mask | sprayA | sprayB | inspect | unload => exact State.startCheck_eq h _
  | bench n => exact State.startCheck_eq (s := s.seat n i) h _
  | wetq | load | lane1 | lane2 | offline => rfl

theorem State.landMove_eq {s : State} {i : RecIx} {r : CarrierRecord} (h : s.rec? i = some r) (p : Place) :
    s.landMove i p =
      ((s.dropMove i).setSensor p true).setRec i (some { r with position := .standing p }) :=
  State.modRec_eq (s := (s.dropMove i).setSensor p true) h fun r => { r with position := .standing p }

/-- Settles O47: both ends land the record and let the target take it. -/
theorem movesEndAtTheirTarget : Obligations.MovesEndAtTheirTarget := by
  intro s i r m hr hm landed
  have settled (plan : List RouteEntry) (c : Ctc) :
      let w : State := { ((s.dropMove i).setSensor m.dst true).setRec i
        (some { r with position := .standing m.dst, plan := plan }) with ctc := c }
      landed plan (w.settleAt i m.dst) ∧
        (w.settleAt i m.dst).ctc = if m.dst = .wetq then { c with wetQueue := c.wetQueue ++ [i] } else c := by
    intro w
    have hw : w.rec? i = some { r with position := .standing m.dst, plan := plan } := State.setRec_rec_self _ _ _
    rw [State.settleAt_eq hw]
    by_cases hread : m.dst.hasReader = true ∧ m.dst ≠ .load
    · simp only [landed, if_pos hread]
      exact ⟨⟨rfl, rfl, Vector.set_set .., rfl, rfl, rfl, rfl, rfl, rfl, rfl, rfl, rfl⟩, rfl⟩
    · simp only [landed, if_neg hread]
      exact ⟨⟨rfl, rfl, rfl, rfl, rfl, rfl, rfl, rfl, rfl, rfl, rfl, rfl⟩, rfl⟩
  constructor
  · intro hsrc hdst
    refine ⟨_, State.goesOn_congr ?_, settled r.plan.tail s.ctc⟩
    unfold State.moveEnd
    rw [hm]
    dsimp only
    rw [if_neg (by simp [hsrc, hdst]), State.landMove_eq hr, State.modRec_eq (State.setRec_rec_self _ _ _),
      State.setRec_setRec]
    rfl
  · intro hex hne
    obtain ⟨hland, hctc⟩ := settled r.plan { s.ctc with exitHolder := none }
    rw [if_neg hne] at hctc
    refine ⟨_, State.goesOn_congr ?_, hland, hctc⟩
    unfold State.exitEnd
    rw [hex]
    dsimp only
    rw [hm]
    dsimp only
    rw [State.landMove_eq hr, State.freeExit, if_pos (by exact hex)]
    rfl

end Sys2Proof.Machine
end

section
/-! SUPPORT. How much an operation tells, and what a fault that pauses the line does (R3, R165, R170). -/

namespace Sys2Proof.Machine

/-! ## How many reports an operation queues -/

/-- A fault of class NONFATAL has been noted. -/
def FaultRecord.Flagged (r : FaultRecord) : Prop := r.nonfatal = true ∧ ∃ e, r.lastNonfatal = some e

/-- From `s` to `t` at most `n` reports are queued; while the Report Queue has room for them the fault record stays as it
is, and a NONFATAL fault that it notes is not taken out (R183, R185). -/
structure Tells (n : Nat) (s t : State) : Prop where
  reports : t.liu.reports.length ≤ s.liu.reports.length + n
  record : s.liu.reports.length + n ≤ 32 → t.lmf.record = s.lmf.record
  flagged : s.lmf.record.Flagged → t.lmf.record.Flagged

theorem Tells.refl (s : State) : Tells 0 s s := ⟨le_refl _, fun _ => rfl, id⟩

theorem Tells.trans {n m : Nat} {s t u : State} (h : Tells n s t) (k : Tells m t u) : Tells (n + m) s u where
  reports := by have := h.reports; have := k.reports; omega
  record hr := (k.record (by have := h.reports; omega)).trans (h.record (by omega))
  flagged f := k.flagged (h.flagged f)

theorem Tells.mono {n m : Nat} {s t : State} (h : Tells n s t) (hm : n ≤ m) : Tells m s t where
  reports := h.reports.trans (by omega)
  record hr := h.record (by omega)
  flagged := h.flagged

/-- An operation that changes neither the Report Queue nor the fault record. -/
theorem Keeps.tells {b : Blocks} {s t : State} (h : Keeps b s t) (hb : b.rep = false) : Tells 0 s t where
  reports := by rw [(h.queue hb).1]; exact le_refl _
  record _ := h.record hb
  flagged f := by rw [h.record hb]; exact f

theorem FaultRecord.note_flagged (r : FaultRecord) (e : FaultEntry) (h : e.code.cls = .nonfatal) :
    (r.note e).lastNonfatal = some e ∧ (r.note e).Flagged := by
  simp [FaultRecord.note, h, FaultRecord.Flagged]

theorem State.queueReport_tells (s : State) (b : ReportBody) : Tells 1 s (s.queueReport b) := by
  by_cases h : s.liu.reports.length < Config.reportQueueMax
  · unfold State.queueReport
    rw [if_pos h]
    exact ⟨by simp, fun _ => rfl, id⟩
  · have full : ¬ s.liu.reports.length + 1 ≤ 32 := fun e => h (by simp only [Config.reportQueueMax]; omega)
    unfold State.queueReport
    rw [if_neg h]
    split
    · exact ⟨Nat.le_succ _, fun e => absurd e full, id⟩
    · exact ⟨Nat.le_succ _, fun e => absurd e full, fun _ => (FaultRecord.note_flagged _ _ rfl).2⟩

/-- A NONFATAL fault noted (R170): the flag, and its entry the last one unless REPORT_LOST follows it. -/
theorem State.noteFault_flagged (s : State) (code : FaultCode) (o : Origin) (d : FaultDetail) (h : code.cls = .nonfatal) :
    (s.noteFault code o d).lmf.record.Flagged ∧ (s.noteFault code o d).liu.reports.length ≤ s.liu.reports.length + 1 ∧
      (s.liu.reports.length < 32 →
        (s.noteFault code o d).lmf.record.lastNonfatal = some (s.faultEntry code o d)) := by
  obtain ⟨hlast, hflag⟩ := FaultRecord.note_flagged s.lmf.record (s.faultEntry code o d) h
  have told := (s.setRecord (s.lmf.record.note (s.faultEntry code o d))).queueReport_tells
    (.fault code.cls (s.faultEntry code o d))
  exact ⟨told.flagged hflag, told.reports, fun hr => (congrArg _ (told.record hr)).trans hlast⟩

@[simp] theorem State.setLane_tells (s : State) (l : LaneId) (v : Lane) : Tells 0 s (s.setLane l v) where
  reports := by simp
  record := by simp
  flagged := by simp

theorem State.deriveLane_tells (s : State) (l : LaneId) (cause : LaneCause) : Tells 1 s (s.deriveLane l cause) := by
  unfold State.deriveLane
  dsimp only
  split
  · exact (s.setLane_tells l _).mono (by omega)
  · exact (s.setLane_tells l _).trans (State.queueReport_tells _ _)

theorem State.tunnelMode_tells (s : State) : Tells 2 s s.tunnelMode :=
  ((s.deriveLane_tells .lane1 .lineMode).trans (State.deriveLane_tells _ .lane2 .lineMode)).trans
    ((State.evalShutter_keeps _).tells rfl)

theorem State.putMode_tells (s : State) (m : LineMode) (cause : ModeCause) : Tells 1 s (s.putMode m cause) :=
  have told := State.queueReport_tells { s with lmf := { s.lmf with mode := m } }
    (.lineMode m s.lmf.mode s.now cause)
  ⟨told.reports, told.record, told.flagged⟩

/-! ## A fault that takes RUN to PAUSE (R165) -/

theorem State.putMode_mode (s : State) (m : LineMode) (cause : ModeCause) : (s.putMode m cause).lmf.mode = m :=
  (State.queueReport_keeps { s with lmf := { s.lmf with mode := m } } (.lineMode m s.lmf.mode s.now cause)).mode rfl

/-- The line mode's becoming PAUSE out of RUN: the Line Tracker, the heads and the cells do nothing. -/
theorem State.setMode_pause_eq (s : State) (cause : ModeCause) (h : s.lmf.mode = .run) :
    s.setMode .pause cause = (s.putMode .pause cause).tunnelMode := by
  unfold State.setMode
  rw [if_neg (by rw [h]; exact fun e => nomatch e), h]
  rfl

/-- TRANSPORT_TIMEOUT or TAG_MISMATCH raised (R165, R170): noted, and RUN left for PAUSE; records, heads and cells stay. -/
theorem State.raiseFault_pauses (s : State) (code : FaultCode) (o : Origin) (d : FaultDetail)
    (hc : code = .transportTimeout ∨ code = .tagMismatch) :
    let u := s.raiseFault code o d
    u.ltk = s.ltk ∧ u.ine = s.ine ∧ u.scc = s.scc ∧ u.rsc = s.rsc ∧ u.hmg = s.hmg ∧ u.lmf.clock = s.lmf.clock ∧
      u.lmf.mode = (if s.lmf.mode = .run then .pause else s.lmf.mode) ∧ u.lmf.record.Flagged ∧
      u.liu.reports.length ≤ s.liu.reports.length + 4 ∧
      (s.liu.reports.length < 28 → u.lmf.record.lastNonfatal = some (s.faultEntry code o d)) := by
  dsimp only
  have hcls : code.cls = .nonfatal := by rcases hc with rfl | rfl <;> rfl
  obtain ⟨hflag, hlen, hlast⟩ := s.noteFault_flagged code o d hcls
  have noted := s.noteFault_keeps code o d
  have mode : (s.noteFault code o d).lmf.mode = s.lmf.mode := noted.mode rfl
  by_cases hrun : s.lmf.mode = .run
  · have hu : s.raiseFault code o d = ((s.noteFault code o d).putMode .pause (.fault code)).tunnelMode := by
      simp only [State.raiseFault, State.faultMode, hcls]
      rw [if_pos ⟨hc, mode.trans hrun⟩, State.setMode_pause_eq _ _ (mode.trans hrun)]
    rw [hu, if_pos hrun]
    generalize hn : s.noteFault code o d = n at *
    have put := n.putMode_keeps .pause (.fault code)
    have tunnel := (n.putMode .pause (.fault code)).tunnelMode_keeps
    have kept : Keeps { ctc := true, rep := true, mode := true } s _ := ((noted.mono rfl).step put rfl).step tunnel rfl
    have told : Tells 3 n (n.putMode .pause (.fault code)).tunnelMode :=
      (n.putMode_tells _ _).trans (State.tunnelMode_tells _)
    have count := told.reports
    exact ⟨kept.ltk rfl, kept.ine rfl, kept.scc rfl, kept.rsc rfl, kept.hmg rfl, kept.clock rfl,
      (tunnel.mode rfl).trans (n.putMode_mode _ _),
      told.flagged hflag, by omega, fun h => by rw [told.record (by omega)]; exact hlast (by omega)⟩
  · have hu : s.raiseFault code o d = s.noteFault code o d := by
      simp only [State.raiseFault, State.faultMode, hcls]
      exact if_neg fun h => hrun (mode.symm.trans h.2)
    rw [hu, if_neg hrun]
    exact ⟨noted.ltk rfl, noted.ine rfl, noted.scc rfl, noted.rsc rfl, noted.hmg rfl, noted.clock rfl, mode, hflag,
      by omega, fun h => hlast (by omega)⟩

end Sys2Proof.Machine
end

section
/-! PROOF. Transport timeouts, missing and lifted carriers (R3, R24, R57, R165). -/

namespace Sys2Proof.Machine

/-! ## Reports of a program that is abandoned -/

theorem Tells.of_eq {s t : State} (hu : t.liu = s.liu) (hm : t.lmf = s.lmf) : Tells 0 s t where
  reports := by rw [hu]; exact le_refl _
  record _ := by rw [hm]
  flagged f := by rw [hm]; exact f

theorem State.setRec_tells (s : State) (i : RecIx) (r : Option CarrierRecord) : Tells 0 s (s.setRec i r) :=
  Tells.of_eq rfl rfl

theorem State.modLive_tells (s : State) (i : RecIx) (f : CarrierRecord → CarrierRecord) : Tells 0 s (s.modLive i f) := by
  unfold State.modLive
  split
  · exact s.setRec_tells i _
  · exact Tells.refl s

theorem State.raiseReason_tells (s : State) (i : RecIx) (code : ReasonCode) (sev : Severity) :
    Tells 1 s (s.raiseReason i code sev) := by
  unfold State.raiseReason
  split
  · exact (Tells.refl s).mono (by omega)
  · split
    · exact (s.setRec_tells i _).trans (State.queueReport_tells _ _)
    · exact (s.setRec_tells i _).trans (State.queueReport_tells _ _)

theorem State.raiseIf_tells (s : State) (c : Bool) (i : RecIx) (code : ReasonCode) : Tells 1 s (s.raiseIf c i code) := by
  unfold State.raiseIf
  split
  · exact s.raiseReason_tells i code _
  · exact (Tells.refl s).mono (by omega)

theorem State.evaluateFilm_tells (s : State) (i : RecIx) : Tells 3 s (s.evaluateFilm i) := by
  have raised (t : State) : Tells 3 t (t.raiseFilm i) := by
    unfold State.raiseFilm
    split
    · exact (Tells.refl t).mono (by omega)
    · exact ((t.raiseIf_tells _ _ _).trans (State.raiseIf_tells _ _ _ _)).trans (State.raiseIf_tells _ _ _ _)
  unfold State.evaluateFilm
  split
  · exact (Tells.refl s).mono (by omega)
  · exact ((s.modLive_tells i _).trans (raised _)).mono (by omega)

theorem State.cellTo_tells (s : State) (c : CellId) (st : CellState) (why : CellCause) (i : Option RecIx) :
    Tells 1 s (s.cellTo c st why i) := by
  have set (f : SprayCell → SprayCell) : Tells 0 s (s.modCell c f) := (s.modCell_keeps c f).tells rfl
  unfold State.cellTo
  dsimp only
  split
  · exact (set _).trans (State.queueReport_tells _ _)
  · exact (set _).mono (by omega)

theorem State.abandonRun_tells (s : State) (c : CellId) (i : RecIx) (z : Option Nat) (raise : Bool) :
    Tells 1 s (s.abandonRun c i z raise) :=
  ((((s.modCell_keeps c _).tells rfl).trans ((State.flagZone?_keeps _ i _).tells rfl)).trans
    ((State.flagZone?_keeps _ i z).tells rfl)).trans (State.raiseIf_tells _ raise i .filmUnknown)

theorem State.finishProgram_tells (s : State) (c : CellId) (p : Program) (o : ProgramOutcome)
    (f : Option (FaultCode × Nat)) (next : CellState) (cause : CellCause) :
    Tells 5 s (s.finishProgram c p o f next cause) := by
  have film : Tells 3 s (if (s.markRun c p.ix p.pass).lastProgram p.ix then
      ((s.markRun c p.ix p.pass).modLive p.ix fun r => { r with sprayEnd := some s.now }).evaluateFilm p.ix
      else s.markRun c p.ix p.pass) := by
    have marked : Tells 0 s (s.markRun c p.ix p.pass) := (s.markRun_keeps c p.ix p.pass).tells rfl
    split
    · exact ((marked.trans (State.modLive_tells _ _ _)).trans (State.evaluateFilm_tells _ _)).mono (by omega)
    · exact marked.mono (by omega)
  exact (((film.trans (State.queueReport_tells _ _)).trans ((State.modCell_keeps _ c _).tells rfl)).trans
    (State.cellTo_tells _ c next cause (some p.ix))).mono (by omega)

theorem State.abandonProgram_tells (s : State) (c : CellId) (p : Program) (o : ProgramOutcome)
    (f : Option (FaultCode × Nat)) (z : Option Nat) (next : CellState) (cause : CellCause) :
    Tells 6 s (s.abandonProgram c p o f z next cause) :=
  (((((s.cutOff_keeps c p.ix).tells rfl).trans ((State.modCell_keeps _ c _).tells rfl)).trans
    (State.abandonRun_tells _ c p.ix z _)).trans ((State.modCell_keeps _ c _).tells rfl)).trans
      (State.finishProgram_tells _ c p o f next cause)

theorem State.dropProgram_tells (s : State) (c : CellId) (i : RecIx) (o : ProgramOutcome) (cause : CellCause) :
    Tells 6 s (s.dropProgram c i o cause) := by
  unfold State.dropProgram
  split
  · split
    · exact s.abandonProgram_tells c _ o none none .ready cause
    · exact (Tells.refl s).mono (by omega)
  · exact (Tells.refl s).mono (by omega)

/-! ## The cell of a program that is abandoned -/

theorem State.cell_of_scc {s t : State} (h : t.scc = s.scc) (c : CellId) : t.cell c = s.cell c := by
  cases c <;> simp [State.cell, h]

theorem State.finishProgram_cell (s : State) (c : CellId) (p : Program) (o : ProgramOutcome)
    (f : Option (FaultCode × Nat)) (next : CellState) (cause : CellCause) :
    let v := (s.finishProgram c p o f next cause).cell c
    v.program = none ∧ v.state = next ∧ v.valveOpen = (s.cell c).valveOpen := by
  have marked : ((s.markRun c p.ix p.pass).cell c).valveOpen = (s.cell c).valveOpen := by
    simp [State.markRun, State.modCell]
  have film : ((if (s.markRun c p.ix p.pass).lastProgram p.ix then
      ((s.markRun c p.ix p.pass).modLive p.ix fun r => { r with sprayEnd := some s.now }).evaluateFilm p.ix
      else s.markRun c p.ix p.pass).cell c).valveOpen = (s.cell c).valveOpen := by
    split
    · rw [State.cell_of_scc ((State.evaluateFilm_keeps _ _).scc rfl), ← marked]
      unfold State.modLive
      split <;> simp
    · exact marked
  dsimp only [State.finishProgram]
  rw [State.cellTo_cell]
  refine ⟨?_, rfl, ?_⟩ <;> simp only [State.modCell, State.setCell_cell_self, SprayCell.stopTimers,
    State.queueReport_cell]
  exact film

/-- An abandoned program leaves its cell without a program, in the state that follows, its valve shut (R84). -/
theorem State.abandonProgram_cell (s : State) (c : CellId) (p : Program) (o : ProgramOutcome)
    (f : Option (FaultCode × Nat)) (z : Option Nat) (next : CellState) (cause : CellCause) :
    let v := (s.abandonProgram c p o f z next cause).cell c
    v.program = none ∧ v.state = next ∧ v.valveOpen = false := by
  intro v
  obtain ⟨h1, h2, h3⟩ := State.finishProgram_cell
    (((((s.cutOff c p.ix).modCell c fun v => v.haltFor next).abandonRun c p.ix z (decide (o ≠ .removed))).modCell c
      SprayCell.emptied)) c p o f next cause
  refine ⟨h1, h2, h3.trans ?_⟩
  have shut (v : SprayCell) : (v.haltFor next).valveOpen = false := by
    unfold SprayCell.haltFor SprayCell.faultHalt SprayCell.shutAndHalt
    split
    · rfl
    · split <;> rfl
  simp only [State.modCell, State.setCell_cell_self, SprayCell.emptied, State.abandonRun]
  rw [State.cell_of_scc ((State.raiseIf_keeps _ _ _ _).scc rfl), State.cell_of_scc ((State.flagZone?_keeps _ _ _).scc rfl),
    State.cell_of_scc ((State.flagZone?_keeps _ _ _).scc rfl)]
  simp [shut]

/-! ## The faults of carriers and moves -/

theorem State.loseCarrier_tells (s : State) (i : RecIx) (p : Place) : Tells 6 s (s.loseCarrier i p) := by
  have walks : Tells 0 s (s.dropWalks i) := (s.dropWalks_keeps i).tells rfl
  unfold State.loseCarrier
  dsimp only
  split
  · exact walks.trans (State.dropProgram_tells _ _ _ _ _)
  · exact walks.mono (by omega)

@[simp] theorem State.loseCarrier_core (s : State) (i : RecIx) (p : Place) :
    (s.loseCarrier i p).ltk.core = s.ltk.core := by
  unfold State.loseCarrier; dsimp only; split <;> simp

/-- The program of a record at a cell is abandoned as its carrier is lost (R91). -/
theorem State.loseCarrier_cell (s : State) (c : CellId) (v : Program) (h : (s.cell c).program = some v) :
    let w := (s.loseCarrier v.ix (cellPlace c)).cell c
    w.program = none ∧ w.state = .ready ∧ w.valveOpen = false := by
  have hat : cellAt (cellPlace c) = some c := by cases c <;> rfl
  have hp : ((s.dropWalks v.ix).cell c).program = some v := by
    rw [State.cell_of_scc ((s.dropWalks_keeps v.ix).scc rfl)]; exact h
  have lost : s.loseCarrier v.ix (cellPlace c) =
      (s.dropWalks v.ix).abandonProgram c v .carrierLost none none .ready .carrierLost := by
    simp [State.loseCarrier, hat, State.dropProgram, hp]
  rw [lost]
  exact State.abandonProgram_cell _ _ _ _ _ _ _ _

/-- TRANSPORT_TIMEOUT of a driven move (R3, R165). -/
theorem State.moveTimeout_follows (s : State) (i : RecIx) (r : CarrierRecord) (t : Timer) (hr : s.rec? i = some r)
    (ht : s.moveTimer i = some t) :
    let u := s.moveTimeout i
    u.ltk = { s.ltk with moves := s.ltk.moves.map fun m => if m.ix = i then { m with drive := .timedOut } else m } ∧
      u.lmf.mode = (if s.lmf.mode = .run then .pause else s.lmf.mode) ∧ u.lmf.record.nonfatal = true ∧
      (∃ e, u.lmf.record.lastNonfatal = some e ∧
        (s.liu.reports.length < 28 → e.code = .transportTimeout ∧ e.origin = .ltk ∧ e.detail.ix = some i)) ∧
      u.lmf.clock = (if (s.now - t.since).toNat < t.ms then t.since + BitVec.ofNat 32 t.ms else s.now) ∧
      u.ine = s.ine ∧ u.scc = s.scc ∧ u.rsc = s.rsc ∧ u.hmg = s.hmg := by
  have timed : s.moveTimeout i = ((s.expire t).timeOutMove i).raiseFault .transportTimeout .ltk
      { ix := some i, position := some r.position } := by simp [State.moveTimeout, ht, hr]
  have late : (s.expire t).lmf.clock =
      if (s.now - t.since).toNat < t.ms then t.since + BitVec.ofNat 32 t.ms else s.now := by
    unfold State.expire State.reach State.since
    split <;> rfl
  have kept := s.expire_keeps t
  dsimp only
  rw [timed]
  obtain ⟨hltk, hine, hscc, hrsc, hhmg, hclock, hmode, hflag, -, hlast⟩ :=
    ((s.expire t).timeOutMove i).raiseFault_pauses .transportTimeout .ltk { ix := some i, position := some r.position }
      (.inl rfl)
  have hmode' : ((s.expire t).timeOutMove i).lmf.mode = s.lmf.mode := kept.mode rfl
  have hlen : ((s.expire t).timeOutMove i).liu.reports = s.liu.reports := (kept.queue rfl).1
  rw [hmode'] at hmode
  refine ⟨?_, hmode, hflag.1, ?_, hclock.trans late, hine.trans (kept.ine rfl), hscc.trans (kept.scc rfl),
    hrsc.trans (kept.rsc rfl), hhmg.trans (kept.hmg rfl)⟩
  · rw [hltk, State.timeOutMove, State.setMoves, kept.ltk rfl]
  · obtain ⟨-, e, he⟩ := hflag
    refine ⟨e, he, fun h => ?_⟩
    cases he.symm.trans (hlast (by rw [hlen]; exact h))
    exact ⟨rfl, rfl, rfl⟩

theorem State.holdChanged_of_some {s : State} {i : RecIx} {r : CarrierRecord} {h : Hold} (hr : s.rec? i = some r)
    (hh : r.hold = some h) (cause : HoldCause) :
    s.holdChanged i cause = s.queueReport (.holdChanged (holdReport i r h cause)) := by
  unfold State.holdChanged
  rw [hr]
  dsimp only
  rw [hh]

theorem State.holdChanged_of_none {s : State} {i : RecIx} {r : CarrierRecord} (hr : s.rec? i = some r)
    (hh : r.hold = none) (cause : HoldCause) : s.holdChanged i cause = s := by
  unfold State.holdChanged
  rw [hr]
  dsimp only
  rw [hh]

/-- Settles O48: a transport timeout and a missing carrier raise a fault that leaves RUN for PAUSE; a lifted carrier does
not. -/
theorem transportAndCarrierFaults : Obligations.TransportAndCarrierFaults := by
  refine ⟨fun s i => ⟨fun hn => State.goesOn_congr ?_, fun r t hr ht => ⟨_, rfl, s.moveTimeout_follows i r t hr ht⟩⟩,
    fun s p i r hi hr hp => ⟨fun hs => ?_, fun hl => ?_⟩⟩
  · simp [State.moveTimeout, hn]
  · let t : State := ((s.setSensor p false).dropRead p).setRec i (some { r with tagCheck := .failed })
    let d : FaultDetail := { ix := some i, position := some (.standing p) }
    have missing : s.carrierMissing p = (t.raiseFault .tagMismatch .ltk d).loseCarrier i p := by
      unfold State.carrierMissing
      rw [hi]
      dsimp only
      rw [if_pos (by simp [hs, hp]), State.modRec_eq (s := (s.setSensor p false).dropRead p) hr]
    obtain ⟨hltk, -, hscc, -, -, -, hmode, hflag, hcount, hlast⟩ := t.raiseFault_pauses .tagMismatch .ltk d (.inr rfl)
    have lost := (t.raiseFault .tagMismatch .ltk d).loseCarrier_keeps i p
    have told := (t.raiseFault .tagMismatch .ltk d).loseCarrier_tells i p
    have core := (t.raiseFault .tagMismatch .ltk d).loseCarrier_core i p
    rw [hltk] at core
    refine ⟨_, State.goesOn_congr missing, congrArg Ltk.sensors core, ?_, (lost.mode rfl).trans hmode,
      (told.flagged hflag).1, fun h => ?_, ?_⟩
    · obtain ⟨r', hr', hcore⟩ := State.rec?_of_core core (State.setRec_rec_self _ i _)
      have hfailed : r'.core = { r.core with tagCheck := .failed } := hcore
      have hcheck := congrArg CarrierRecord.tagCheck hfailed
      have hplace := congrArg CarrierRecord.position hfailed
      have hstatus := congrArg CarrierRecord.status hfailed
      exact ⟨r', hr', hcheck, hplace, hstatus⟩
    · have hlen : t.liu.reports = s.liu.reports := rfl
      rw [hlen] at hcount hlast
      exact ⟨_, by rw [told.record (by omega)]; exact hlast (by omega), rfl⟩
    · rintro c rfl v hv rfl
      exact State.loseCarrier_cell _ c v (by rw [State.cell_of_scc hscc]; exact hv)
  · intro r' u
    refine State.goesOn_congr ?_
    unfold State.carrierLifted
    rw [hi]
    dsimp only
    rw [if_pos (by simp [hl, hp]), State.modRec_eq (s := (s.setSensor p false).dropRead p) hr]
    have seen : u.rec? i = some r' := State.setRec_rec_self _ i _
    change u.holdChanged i .offline = _
    split
    · exact State.holdChanged_of_some seen ‹_› .offline
    · exact State.holdChanged_of_none seen ‹_› .offline

end Sys2Proof.Machine
end

section
/-! SUPPORT. Bindings of carriers to lanes, and a record that becomes DONE (R7, R16, R107 to R109). -/

namespace Sys2Proof.Machine

/-! ## What a rebinding of carriers changes -/

@[simp] theorem State.queueReport_ctc (s : State) (b : ReportBody) : (s.queueReport b).ctc = s.ctc :=
  (s.queueReport_keeps b).ctc rfl

@[simp] theorem State.laneReport_ctc (s : State) (l : LaneId) (cause : LaneCause) : (s.laneReport l cause).ctc = s.ctc :=
  (s.queueReport_keeps _).ctc rfl

/-- LANE_STATE says of a lane what changed; the lane is the one that was set. -/
theorem State.setClass_ctc (s : State) (l : LaneId) (c : Option Nat) (cause : LaneCause) :
    (s.setClass l c cause).ctc = (s.setLane l ({ s.lane l with cls := c } : Lane).driven).ctc := by
  unfold State.setClass
  dsimp only
  split <;> simp

theorem State.deriveLane_ctc (s : State) (l : LaneId) (cause : LaneCause) :
    (s.deriveLane l cause).ctc =
      (s.setLane l ({ s.lane l with state := s.laneStateNow l } : Lane).driven).ctc := by
  unfold State.deriveLane
  dsimp only
  split <;> simp

theorem State.lane_of_ctc {s t : State} (h : t.ctc = s.ctc) (l : LaneId) : t.lane l = s.lane l := by
  cases l <;> simp [State.lane, h]

theorem State.rec?_of_ltk {s t : State} (h : t.ltk = s.ltk) (i : RecIx) : t.rec? i = s.rec? i := by
  simp [State.rec?, h]

theorem State.live?_of_ltk {s t : State} (h : t.ltk = s.ltk) (i : RecIx) : t.live? i = s.live? i := by
  simp [State.live?, State.rec?, h]

/-- What the bindings of carriers to lanes change at most: records, and of the tunnel the lanes, but for their orders, and
the waiting binding, which is taken or stays. The record of no other than the waiting carrier changes. -/
structure Rebinds (s t : State) : Prop where
  ltk : t.ltk = { s.ltk with table := t.ltk.table }
  ctc : t.ctc = { s.ctc with lane1 := t.ctc.lane1, lane2 := t.ctc.lane2, waiting := t.ctc.waiting }
  order : ∀ l, (t.lane l).order = (s.lane l).order
  waiting : t.ctc.waiting = s.ctc.waiting ∨ t.ctc.waiting = none
  recs : ∀ i, (∀ w, s.ctc.waiting = some w → w.ix ≠ i) → t.rec? i = s.rec? i

theorem Rebinds.refl (s : State) : Rebinds s s := ⟨rfl, rfl, fun _ => rfl, .inl rfl, fun _ _ => rfl⟩

theorem Rebinds.trans {s t u : State} (h : Rebinds s t) (k : Rebinds t u) : Rebinds s u where
  ltk := by rw [k.ltk, h.ltk]
  ctc := by rw [k.ctc, h.ctc]
  order l := (k.order l).trans (h.order l)
  waiting := by
    rcases k.waiting with e | e
    · rw [e]; exact h.waiting
    · exact .inr e
  recs i hi := by
    refine (k.recs i fun w hw => ?_).trans (h.recs i hi)
    rcases h.waiting with e | e
    · exact hi w (e ▸ hw)
    · rw [e] at hw; cases hw

/-- An operation that changes neither the Line Tracker nor the tunnel. -/
theorem Rebinds.of_eq {s t : State} (hl : t.ltk = s.ltk) (hc : t.ctc = s.ctc) : Rebinds s t where
  ltk := by rw [hl]
  ctc := by rw [hc]
  order l := by rw [State.lane_of_ctc hc]
  waiting := .inl (by rw [hc])
  recs i _ := State.rec?_of_ltk hl i

theorem State.setLane_rebinds (s : State) (l : LaneId) (v : Lane) (h : v.order = (s.lane l).order) :
    Rebinds s (s.setLane l v) where
  ltk := by simp
  ctc := by cases l <;> rfl
  order k := by
    by_cases e : k = l
    · subst e; simpa using h
    · rw [State.setLane_lane, if_neg e]
  waiting := .inl (by simp)
  recs i _ := by simp

theorem State.setClass_rebinds (s : State) (l : LaneId) (c : Option Nat) (cause : LaneCause) :
    Rebinds s (s.setClass l c cause) :=
  (s.setLane_rebinds l ({ s.lane l with cls := c } : Lane).driven rfl).trans
    (Rebinds.of_eq (by simp) (s.setClass_ctc l c cause))

theorem State.deriveLane_rebinds (s : State) (l : LaneId) (cause : LaneCause) : Rebinds s (s.deriveLane l cause) :=
  (s.setLane_rebinds l ({ s.lane l with state := s.laneStateNow l } : Lane).driven rfl).trans
    (Rebinds.of_eq (by simp) (s.deriveLane_ctc l cause))

/-- A binding made leaves every other record and no waiting binding (R107). -/
theorem State.bindTo_rebinds (s : State) (w : WaitingBinding) (l : LaneId) :
    (s.bindTo w l).ltk = { s.ltk with table := (s.bindTo w l).ltk.table } ∧
      (s.bindTo w l).ctc = { s.ctc with lane1 := (s.bindTo w l).ctc.lane1, lane2 := (s.bindTo w l).ctc.lane2 } ∧
      (∀ k, ((s.bindTo w l).lane k).order = (s.lane k).order) ∧
      ∀ i, w.ix ≠ i → (s.bindTo w l).rec? i = s.rec? i := by
  have lanes := (s.setLane_rebinds l { s.lane l with bound := (s.lane l).bound + 1 } rfl).trans
    (State.setClass_rebinds _ l (some w.cls) .bound)
  have kept : ((s.setLane l { s.lane l with bound := (s.lane l).bound + 1 }).setClass l (some w.cls) .bound).ctc.waiting =
      s.ctc.waiting := by rw [State.setClass_ctc]; simp
  unfold State.bindTo
  split
  · exact ⟨rfl, rfl, fun _ => rfl, fun _ _ => rfl⟩
  · dsimp only
    refine ⟨?_, ?_, fun k => ?_, fun i hi => ?_⟩
    · simp [State.setRec]
    · simp only [State.queueReport_ctc, State.setRec_ctc]
      rw [lanes.ctc, kept]
    · rw [State.lane_of_ctc (State.queueReport_ctc _ _), State.lane_of_ctc (State.setRec_ctc _ _ _)]
      exact lanes.order k
    · rw [State.queueReport_rec?, State.setRec_rec, if_neg (Ne.symm hi)]
      exact State.rec?_of_ltk (by simp) i

/-- The waiting binding tried again (R108). -/
theorem State.retryBinding_rebinds (s : State) : Rebinds s s.retryBinding := by
  unfold State.retryBinding
  split
  · rename_i w hw
    unfold State.tryBind
    split
    · rename_i l hl
      obtain ⟨hltk, hctc, horder, hrecs⟩ := (s.setWaiting none).bindTo_rebinds w l
      refine ⟨hltk, hctc.trans ?_, horder, .inr (by rw [hctc]; rfl), fun i hi => hrecs i (hi w hw)⟩
      rw [hctc]
      rfl
    · exact ⟨rfl, rfl, fun l => by cases l <;> rfl, .inl hw.symm, fun _ _ => rfl⟩
  · exact Rebinds.refl s

/-! ## Unbinding (R109) -/

/-- A record off its lane. -/
def CarrierRecord.offLane (r : CarrierRecord) : CarrierRecord :=
  match r.lane with
  | some _ => { r with lane := none, posInLane := none }
  | none => r

/-- The tunnel without a record in the order of its lane. -/
def State.offOrder (s : State) (i : RecIx) (l : LaneId) : State :=
  (s.setLane l ((s.lane l).without i)).modRec i fun r => { r with lane := none, posInLane := none }

theorem State.unbind_eq {s : State} {i : RecIx} {r : CarrierRecord} {l : LaneId} (hr : s.rec? i = some r)
    (hl : r.lane = some l) (cause : LaneCause) :
    s.unbind i cause = ((if ((s.offOrder i l).lane l).bound = 0 then (s.offOrder i l).setClass l none cause
      else s.offOrder i l).deriveLane l cause).retryBinding := by
  unfold State.unbind
  rw [hr]
  dsimp only
  rw [hl]
  rfl

theorem State.unbind_of_lane {s : State} {i : RecIx} {r : CarrierRecord} {l : LaneId} (hr : s.rec? i = some r)
    (hl : r.lane = some l) (cause : LaneCause) : Rebinds (s.offOrder i l) (s.unbind i cause) := by
  rw [State.unbind_eq hr hl]
  refine Rebinds.trans ?_ (State.retryBinding_rebinds _)
  refine Rebinds.trans ?_ (State.deriveLane_rebinds _ l cause)
  split
  · exact State.setClass_rebinds _ l none cause
  · exact Rebinds.refl _

theorem State.unbind_of_none {s : State} {i : RecIx} {r : CarrierRecord} (hr : s.rec? i = some r)
    (hl : r.lane = none) (cause : LaneCause) : s.unbind i cause = s := by
  unfold State.unbind
  rw [hr]
  dsimp only
  rw [hl]

/-- A record that no waiting binding names is off its lane, and nothing else of it changes (R109). -/
theorem State.unbind_rec {s : State} {i : RecIx} {r : CarrierRecord} (hr : s.rec? i = some r)
    (hw : ∀ w, s.ctc.waiting = some w → w.ix ≠ i) (cause : LaneCause) :
    (s.unbind i cause).rec? i = some r.offLane := by
  unfold CarrierRecord.offLane
  rcases hl : r.lane with _ | l
  · rw [State.unbind_of_none hr hl]; exact hr
  · have off : (s.offOrder i l).rec? i = some { r with lane := none, posInLane := none } := by
      rw [State.offOrder, State.modRec_eq (by simpa using hr)]
      exact State.setRec_rec_self _ i _
    refine ((State.unbind_of_lane hr hl cause).recs i fun w h => hw w ?_).trans off
    simpa [State.offOrder, State.modRec_eq (show (s.setLane l _).rec? i = some r by simpa using hr)] using h

/-! ## Reports of bindings -/

theorem State.setClass_tells (s : State) (l : LaneId) (c : Option Nat) (cause : LaneCause) :
    Tells 1 s (s.setClass l c cause) := by
  unfold State.setClass
  dsimp only
  split
  · exact (s.setLane_tells l _).mono (by omega)
  · exact (s.setLane_tells l _).trans (State.queueReport_tells _ _)

theorem State.bindTo_tells (s : State) (w : WaitingBinding) (l : LaneId) : Tells 2 s (s.bindTo w l) := by
  unfold State.bindTo
  split
  · exact (Tells.refl s).mono (by omega)
  · exact (((s.setLane_tells l _).trans (State.setClass_tells _ l _ _)).trans (State.setRec_tells _ _ _)).trans
      (State.queueReport_tells _ _)

theorem State.tryBind_tells (s : State) (w : WaitingBinding) : Tells 2 s (s.tryBind w) := by
  unfold State.tryBind
  split
  · exact (Tells.of_eq rfl rfl : Tells 0 s (s.setWaiting none)).trans (State.bindTo_tells _ w _)
  · exact (Tells.of_eq rfl rfl : Tells 0 s (s.setWaiting (some w))).mono (by omega)

theorem State.retryBinding_tells (s : State) : Tells 2 s s.retryBinding := by
  unfold State.retryBinding
  split
  · exact s.tryBind_tells _
  · exact (Tells.refl s).mono (by omega)

theorem State.modRec_tells (s : State) (i : RecIx) (f : CarrierRecord → CarrierRecord) : Tells 0 s (s.modRec i f) := by
  unfold State.modRec
  split
  · exact s.setRec_tells i _
  · exact Tells.refl s

theorem State.unbind_tells (s : State) (i : RecIx) (cause : LaneCause) : Tells 4 s (s.unbind i cause) := by
  unfold State.unbind
  split
  · exact (Tells.refl s).mono (by omega)
  · split
    · exact (Tells.refl s).mono (by omega)
    · rename_i l _
      have off := (s.setLane_tells l ((s.lane l).without i)).trans
        (State.modRec_tells _ i fun r => { r with lane := none, posInLane := none })
      have retried (t : State) : Tells 3 t ((t.deriveLane l cause).retryBinding) :=
        (t.deriveLane_tells l cause).trans (State.retryBinding_tells _)
      dsimp only
      split
      · exact (off.trans (State.setClass_tells _ l none cause)).trans (retried _)
      · exact (off.trans (retried _)).mono (by omega)

/-! ## A record that becomes DONE (R7, R16) -/

/-- Nothing writes to a record that is not live. -/
theorem State.modLive_of_dead {s : State} {i : RecIx} (h : s.live? i = none) (f : CarrierRecord → CarrierRecord) :
    s.modLive i f = s := by
  unfold State.modLive; rw [h]

theorem State.flagZone?_of_dead {s : State} {i : RecIx} (h : s.live? i = none) (z : Option Nat) : s.flagZone? i z = s := by
  cases z with
  | none => rfl
  | some z => exact State.modLive_of_dead h _

/-- A program taken off a record that has become DONE leaves the record as it is (R84, R5). -/
theorem State.dropProgram_of_dead {s : State} {i : RecIx} (h : s.live? i = none) (c : CellId) (cause : CellCause) :
    (s.dropProgram c i .removed cause).ltk = s.ltk := by
  unfold State.dropProgram
  split
  · rename_i p _
    split
    · rename_i hp
      subst hp
      have cut : s.cutOff c p.ix = s := by
        unfold State.cutOff
        split
        · split
          · exact State.modLive_of_dead h _
          · rfl
        · rfl
      have flagged (f : SprayCell → SprayCell) (z : Option Nat) :
          (s.modCell c f).flagZone? p.ix z = s.modCell c f :=
        State.flagZone?_of_dead ((State.live?_of_ltk (by simp) _).trans h) z
      have run (t : State) (ht : t.ltk = s.ltk) : (t.abandonRun c p.ix none false).ltk = s.ltk := by
        have dead (f : SprayCell → SprayCell) : (t.modCell c f).live? p.ix = none :=
          (State.live?_of_ltk (by simp [ht]) _).trans h
        unfold State.abandonRun
        dsimp only
        rw [State.flagZone?_of_dead (dead _)]
        simpa [State.raiseIf, State.flagZone?] using ht
      have ended (t : State) (ht : t.ltk = s.ltk) :
          (t.finishProgram c p .removed none .ready cause).ltk = s.ltk := by
        have dead : (t.markRun c p.ix p.pass).live? p.ix = none := (State.live?_of_ltk (by simp [ht]) _).trans h
        have last : (t.markRun c p.ix p.pass).lastProgram p.ix = false := by
          unfold State.lastProgram; rw [dead]
        unfold State.finishProgram
        dsimp only
        rw [last, if_neg (by simp)]
        simpa using ht
      unfold State.abandonProgram
      dsimp only
      rw [cut]
      exact ended _ (by rw [State.modCell_ltk]; exact run _ (by simp))
    · rfl
  · rfl

@[simp] theorem State.retireTracker_table (s : State) (i : RecIx) : (s.retireTracker i).ltk.table = s.ltk.table := by
  unfold State.retireTracker State.dropTakenEntry
  split
  · split <;> rfl
  · rfl

@[simp] theorem State.retireTracker_rec (s : State) (i j : RecIx) : (s.retireTracker i).rec? j = s.rec? j := by
  simp [State.rec?]

/-- The record as `retire` leaves it before its lane is released. -/
def CarrierRecord.done (r : CarrierRecord) (o : DoneOutcome) : CarrierRecord :=
  { r with status := .done o, plan := if o = .removed then [] else r.plan }

/-- A record becoming DONE, up to what the tunnel and the Hold Manager drop. -/
def State.retireLine (s : State) (i : RecIx) (o : DoneOutcome) : State :=
  (((s.modRec i fun r => r.done o).retireTracker i).releaseUse i).retireStations i

/-- A record becoming DONE, up to its unbinding. -/
def State.retireLane (s : State) (i : RecIx) (o : DoneOutcome) : State :=
  (((s.retireLine i o).dropWaiting i).leaveWetQueue i).freeExit i

theorem State.retire_eq (s : State) (i : RecIx) (o : DoneOutcome) :
    s.retire i o = ((s.retireLane i o).unbind i .removed).retireBench i := rfl

section
variable {s : State} {i : RecIx} {r : CarrierRecord} (hr : s.rec? i = some r) (o : DoneOutcome)
include hr

theorem State.retireLine_ltk :
    (s.retireLine i o).ltk = ((s.setRec i (some (r.done o))).retireTracker i).ltk := by
  let t := ((s.setRec i (some (r.done o))).retireTracker i).releaseUse i
  have ht : t.live? i = none := by
    rw [State.live?_of_ltk (State.releaseUse_ltk _ i)]
    unfold State.live?
    rw [State.retireTracker_rec, State.setRec_rec_self]
    simp [CarrierRecord.done, Status.isLive]
  have dropA := State.dropProgram_of_dead (s := t.dropWalks i) ((State.live?_of_ltk (by simp) i).trans ht) .a .removed
  have dropB := State.dropProgram_of_dead (s := (t.dropWalks i).dropProgram .a i .removed .removed)
    ((State.live?_of_ltk (by rw [dropA]; simp) i).trans ht) .b .removed
  have named : s.retireLine i o = t.retireStations i := by
    unfold State.retireLine
    rw [State.modRec_eq hr]
  rw [named, State.retireStations, State.dropMarks_ltk, dropB, dropA]
  simp [t]

theorem State.retireLane_ltk :
    (s.retireLane i o).ltk = ((s.setRec i (some (r.done o))).retireTracker i).ltk := by
  simpa [State.retireLane] using State.retireLine_ltk hr o

theorem State.retireLane_rec : (s.retireLane i o).rec? i = some (r.done o) := by
  rw [State.rec?_of_ltk (State.retireLane_ltk hr o)]
  simp

end

/-- No binding waits for a record that is leaving the line (R108). -/
theorem State.retireLane_waiting (s : State) (i : RecIx) (o : DoneOutcome) (w : WaitingBinding)
    (h : (s.retireLane i o).ctc.waiting = some w) : w.ix ≠ i := by
  have free (t : State) : (t.freeExit i).ctc.waiting = t.ctc.waiting := by
    unfold State.freeExit; split <;> rfl
  rw [State.retireLane, free] at h
  change ((s.retireLine i o).dropWaiting i).ctc.waiting = some w at h
  unfold State.dropWaiting at h
  split at h
  · split at h
    · cases h
    · rename_i w' hw' hne
      rw [hw'] at h
      exact Option.some.inj h ▸ hne
  · rename_i hn
    rw [hn] at h
    cases h

/-- A record that becomes DONE keeps all but its status, its lane and, as REMOVED, its plan (R7, R16, R162). -/
theorem State.retire_rec {s : State} {i : RecIx} {r : CarrierRecord} (hr : s.rec? i = some r) (o : DoneOutcome) :
    (s.retire i o).rec? i = some (r.done o).offLane := by
  rw [State.retire_eq, State.rec?_of_ltk (State.retireBench_ltk _ i)]
  exact State.unbind_rec (State.retireLane_rec hr o) (s.retireLane_waiting i o) .removed

/-- A record that becomes DONE gives its use of a slot back (R7, R39). -/
theorem State.retire_released {s : State} {i : RecIx} {r : CarrierRecord} (hr : s.rec? i = some r) (o : DoneOutcome) :
    UseReleased s (s.retire i o) r := by
  let t := (s.setRec i (some (r.done o))).retireTracker i
  have ht : t.rec? i = some (r.done o) := by simp [t]
  have before : t.rsc = s.rsc := (State.retireTracker_keeps _ i).rsc rfl
  have after : (s.retire i o).rsc = (t.releaseUse i).rsc := by
    rw [State.retire, State.modRec_eq hr]
    rw [(State.retireBench_keeps _ i).rsc rfl, (State.retireTunnel_keeps _ i).rsc rfl,
      (State.retireStations_keeps _ i).rsc rfl]
    rfl
  intro k
  rw [after]
  unfold State.releaseUse
  rw [ht]
  dsimp only
  rcases hk : (r.done o).slot with _ | j
  · have : r.slot = none := hk
    simp [this, before]
  · have hj : r.slot = some j := hk
    simp only [hj, Option.some.injEq, State.releaseSlot, State.setSlot, before]
    by_cases e : j = k
    · subst e
      simp only [if_true, Fin.getElem_fin, Vector.getElem_set_self]
      cases s.rsc.slots[j.val] <;> rfl
    · rw [if_neg e]
      exact Vector.getElem_set_ne _ _ fun h => e (Fin.ext h)

/-- A record that becomes DONE is told in at most 16 reports before its own. -/
theorem State.retire_tells (s : State) (i : RecIx) (o : DoneOutcome) : Tells 16 s (s.retire i o) := by
  have tracker := (State.retireTracker_keeps (s.modRec i fun r => r.done o) i).tells rfl
  have line := (s.modRec_tells i fun r => r.done o).trans tracker
  have used := line.trans ((State.releaseUse_keeps _ i).tells rfl)
  have walks := used.trans ((State.dropWalks_keeps _ i).tells rfl)
  have programs := (walks.trans (State.dropProgram_tells _ .a i .removed .removed)).trans
    (State.dropProgram_tells _ .b i .removed .removed)
  have stations := programs.trans ((State.dropMarks_keeps _ i).tells rfl)
  have waiting := stations.trans ((State.dropWaiting_keeps _ i).tells rfl)
  have leave (t : State) : Tells 0 t (t.leaveWetQueue i) := Tells.of_eq rfl rfl
  have queue := waiting.trans (leave _)
  have freed := queue.trans ((State.freeExit_keeps _ i).tells rfl)
  exact (freed.trans (State.unbind_tells _ i .removed)).trans ((State.retireBench_keeps _ i).tells rfl)

end Sys2Proof.Machine
end

section
/-! PROOF. What the end of a tag read does (R8, R9, R21, R22, R57, R146, R149, R165). -/

namespace Sys2Proof.Machine

/-! ## The read of an arrival at LOAD (R8, R9) -/

/-- The read of an arrival ends with an entry that no record takes; it stands while LOAD reads present (R8). -/
theorem State.arrivalTold_untaken (s : State) (v : Ltk) (t : Option TagRead) (m : MatchResult) (b : ReportBody) :
    (({ s with ltk := { v with loadEntry := some { tag := t, result := m, takenBy := none } } } : State).queueReport
      b).arrivalTold =
    ({ s with ltk := { v with
      loadEntry := if v.sensors.read .load then some { tag := t, result := m, takenBy := none } else none } } :
        State).queueReport b := by
  have told (x : Option LoadEntry) := s.queueReport_withLtk { v with loadEntry := x } b
  rw [told, told, State.arrivalTold]
  by_cases h : v.sensors.read .load = true
  · rw [if_pos h]
    exact if_pos h
  · rw [if_neg h, State.clearEntry_eq]
    exact if_neg h

theorem State.readEnd_arrival {s : State} {j : TagReadJob} (hj : s.readAt .load = some j) (hw : j.why = .arrival)
    (t : TagRead) : s.readEnd .load (some t) = ((s.dropRead .load).takeMatch t).arrivalTold := by
  unfold State.readEnd
  rw [hj]
  dsimp only
  rw [hw]

theorem State.readEnd_noTag {s : State} {j : TagReadJob} (hj : s.readAt .load = some j) (hw : j.why = .arrival) :
    s.readEnd .load none = if j.attempt < 3 then s.nextAttempt .load else s.unreadable.arrivalTold := by
  unfold State.readEnd
  rw [hj]
  dsimp only
  rw [hw]

theorem State.readEnd_check {s : State} {p : Place} {j : TagReadJob} {i : RecIx} (hj : s.readAt p = some j)
    (hw : j.why = .check i) (x : Option TagRead) : s.readEnd p x = s.checkAttempt i j x := by
  unfold State.readEnd
  rw [hj]
  dsimp only
  rw [hw]

/-- A match that is no re-entry is told and taken by no record (R9). -/
theorem State.takeMatch_untaken {s : State} {t : TagRead} {m : MatchResult} (h : (s.matchTag t).1 = m)
    (hm : m ≠ .reentry) :
    s.takeMatch t =
      (s.setEntry (some { tag := some t, result := m, takenBy := none })).queueReport (.loadArrival (some t) m) := by
  unfold State.takeMatch
  dsimp only
  rw [h, if_neg hm]

theorem State.matchTag_of_none {s : State} {t : TagRead} (h : s.recordOfTag t.id = none) :
    (s.matchTag t).1 = if t.mark = 0 then .new else .marked := by
  unfold State.matchTag
  rw [h]
  dsimp only
  split <;> rfl

theorem State.matchTag_of_some {s : State} {t : TagRead} {i : RecIx} {r : CarrierRecord} (h : s.recordOfTag t.id = some i)
    (hr : s.rec? i = some r) :
    s.matchTag t = if r.awaitsReentry ∧ t.mark = markOf i then (.reentry, some i) else (.duplicate, some i) := by
  unfold State.matchTag
  rw [h]
  dsimp only
  rw [hr]

theorem CarrierRecord.awaitsReentry_iff (r : CarrierRecord) :
    r.awaitsReentry = true ↔ r.status = .active ∧ ∃ h, r.hold = some h ∧ h.state = .disposed := by
  unfold CarrierRecord.awaitsReentry
  rcases r.hold with _ | h <;> simp

theorem eq_markOf_iff (b : Byte) (i : RecIx) : b = markOf i ↔ b.toNat = i.val + 1 := by
  have hi : (i.val + 1) % 2 ^ 8 = i.val + 1 := Nat.mod_eq_of_lt (by omega)
  rw [← BitVec.toNat_inj, markOf, BitVec.toNat_ofNat, hi]

/-! ## Tag checks (R22, R57, R165) -/

theorem State.checkAttempt_passes {s : State} {i : RecIx} {r : CarrierRecord} (hr : s.rec? i = some r)
    (hl : r.status.isLive = true) (j : TagReadJob) (t : TagRead) (ht : t.id = r.tagId) :
    s.checkAttempt i j (some t) = s.checkPassed i j.place := by
  unfold State.checkAttempt
  rw [State.live?_eq_some.2 ⟨hr, hl⟩]
  exact if_pos ht

theorem State.checkAttempt_fails {s : State} {i : RecIx} {r : CarrierRecord} (hr : s.rec? i = some r)
    (hl : r.status.isLive = true) {j : TagReadJob} {x : Option TagRead}
    (hx : (∃ t, x = some t ∧ t.id ≠ r.tagId) ∨ (x = none ∧ 3 ≤ j.attempt)) :
    s.checkAttempt i j x = s.checkFailed i j.place := by
  unfold State.checkAttempt
  rw [State.live?_eq_some.2 ⟨hr, hl⟩]
  rcases hx with ⟨t, rfl, ht⟩ | ⟨rfl, hj⟩
  · exact if_neg ht
  · exact if_neg (by omega)

theorem State.abandonWalkOf_head_of_ne (s : State) {h k : HeadId} (hk : h ≠ k) (i : RecIx) :
    (s.abandonWalkOf k i).head h = s.head h := by
  unfold State.abandonWalkOf State.abandonWalk
  split
  · split
    · split
      · rw [State.modHead, State.setHead_head, if_neg hk]
      · rfl
    · rfl
  · rfl

/-- Of the walks of a record only the one of a head concerns that head (R57). -/
theorem State.dropWalks_head (s : State) (i : RecIx) (h : HeadId) :
    (s.dropWalks i).head h = (s.abandonWalkOf h i).head h := by
  have mask (t : State) (ht : t.head .inspect = s.head .inspect) :
      (t.abandonWalkOf .inspect i).head .inspect = (s.abandonWalkOf .inspect i).head .inspect := by
    unfold State.abandonWalkOf State.abandonWalk
    rw [ht]
    split
    · split
      · split
        · simp [State.modHead, ht]
        · exact ht
      · exact ht
    · exact ht
  cases h with
  | mask => exact (s.abandonWalkOf .mask i).abandonWalkOf_head_of_ne (by simp) i
  | inspect => exact mask _ (s.abandonWalkOf_head_of_ne (by simp) i)

/-- A walk in progress of a record is given up (R57). -/
theorem State.dropWalks_walk (s : State) (i : RecIx) (h : HeadId) (w : WalkTable) (hw : (s.head h).walk = some w)
    (hi : w.ix = i) (hs : (s.head h).state.walks = true) : ((s.dropWalks i).head h).walk = none := by
  rw [State.dropWalks_head]
  unfold State.abandonWalkOf State.abandonWalk
  rw [hw]
  dsimp only
  rw [if_pos hi, if_pos hs]
  simp [State.modHead, Head.emptied]

/-- A tag check that fails (R22, R57, R165). -/
theorem State.checkFailed_follows {s : State} {i : RecIx} {r : CarrierRecord} (hr : s.rec? i = some r) (p : Place) :
    let u := s.checkFailed i p
    u.rec? i = some { r with tagCheck := .failed } ∧
      (∀ h w, (s.head h).walk = some w → w.ix = i → (s.head h).state.walks = true → (u.head h).walk = none) ∧
      u.lmf.record.nonfatal = true ∧ u.lmf.mode = (if s.lmf.mode = .run then .pause else s.lmf.mode) ∧ u.scc = s.scc ∧
      (s.liu.reports.length < 16 → ∃ e, u.lmf.record.lastNonfatal = some e ∧ e.code = .tagMismatch) := by
  let t := ((s.dropRead p).setRec i (some { r with tagCheck := .failed }))
  have named : s.checkFailed i p =
      (t.dropWalks i).raiseFault .tagMismatch .ltk { ix := some i, position := some (.standing p) } := by
    unfold State.checkFailed
    rw [State.modRec_eq (s := s.dropRead p) hr]
  have kept := t.dropWalks_keeps i
  intro u
  obtain ⟨hltk, hine, hscc, -, -, -, hmode, hflag, -, hlast⟩ :=
    (t.dropWalks i).raiseFault_pauses .tagMismatch .ltk { ix := some i, position := some (.standing p) } (.inr rfl)
  rw [← named] at hltk hine hscc hmode hflag hlast
  rw [kept.mode rfl] at hmode
  rw [(kept.queue rfl).1] at hlast
  refine ⟨?_, fun h w hw hi hs => ?_, hflag.1, hmode, hscc.trans (kept.scc rfl), fun hlen => ?_⟩
  · rw [State.rec?_of_ltk (hltk.trans (t.dropWalks_ltk i))]
    exact State.setRec_rec_self _ i _
  · have same : u.head h = (t.dropWalks i).head h := by cases h <;> simp only [State.head, u, hine]
    rw [same]
    exact t.dropWalks_walk i h w hw hi hs
  · exact ⟨_, hlast (by exact Nat.lt_of_lt_of_le hlen (by decide)), rfl⟩

/-! ## A tag check that passes at UNLOAD (R21, R149) -/

/-- The end of the pass of a CURED record without a hold part: DONE/GOOD, with CARRIER_DONE (R21). -/
theorem State.completePass_good {s : State} {i : RecIx} {r : CarrierRecord} (hr : s.rec? i = some r)
    (hs : r.status = .active) (hh : r.hold = none) (hc : r.cureVerdict = .cured) :
    let u := s.completePass i
    u.rec? i = some (r.done .good).offLane ∧ UseReleased s u r ∧
      (s.liu.reports.length < 16 → ∃ rest, u.liu.reports = rest ++ [{ time := s.now, body := .carrierDone i }]) := by
  have named : s.completePass i = (s.retire i .good).queueReport (.carrierDone i) := by
    unfold State.completePass
    rw [State.live?_eq_some.2 ⟨hr, by simp [hs, Status.isLive]⟩]
    dsimp only
    rw [hh]
    exact if_pos ⟨hs, hc⟩
  intro u
  have hu : u = (s.retire i .good).queueReport (.carrierDone i) := named
  rw [hu]
  refine ⟨?_, fun k => ?_, fun hlen => ?_⟩
  · rw [State.queueReport_rec?]
    exact State.retire_rec hr .good
  · rw [State.queueReport_rsc]
    exact State.retire_released hr .good k
  · have told := (s.retire_tells i .good).reports
    have clock : (s.retire i .good).now = s.now := (s.retire_keeps i .good).clock rfl
    refine ⟨(s.retire i .good).liu.reports, ?_⟩
    rw [State.queueReport_reports _ _ (by omega), clock]

/-- An OPEN hold is AT_BENCH once its carrier stands there; any other keeps its state (R146). -/
theorem Hold.toBench_eq (h : Hold) :
    h.toBench = { h with state := if h.state = .opened then .atBench else h.state } := by
  unfold Hold.toBench
  split
  · rename_i e
    rw [if_pos e]
  · rename_i e
    rw [if_neg (by simp [e])]
  · rename_i e
    rw [if_neg (by simp [e])]

/-- Settles O43, clause by clause: the read of an arrival, the tag check of a record, and what follows a check that passes
at UNLOAD or at a bench position. -/
theorem tagReadsMatchAndCheck : Obligations.TagReadsMatchAndCheck := by
  refine ⟨fun s j t hj hw => ?arrival, fun s p j i r hj hp hw hr hl => ?check, fun s p j i r t hj hp hw hr hl ht => ?passed⟩
  case arrival =>
    intro rest again entry
    have ends (x : Option TagRead) (m : MatchResult) (v : State)
        (hv : v = ({ s with ltk := { s.ltk with reads := rest, loadEntry := some { tag := x, result := m, takenBy := none } } } :
          State).queueReport (.loadArrival x m)) : v.arrivalTold.goesOn = entry x m :=
      State.goesOn_congr (by rw [hv]; exact s.arrivalTold_untaken { s.ltk with reads := rest } x m _)
    have readsTag := State.readEnd_arrival hj hw t
    have readsNone := State.readEnd_noTag hj hw
    have told (m : MatchResult) (hm : m ≠ .reentry) (h : (s.matchTag t).1 = m) :
        exec (.tagReadAttemptEnd .load (some t)) s = entry (some t) m := by
      refine Eq.trans (congrArg State.goesOn readsTag) (ends (some t) m _ ?_)
      exact State.takeMatch_untaken (s := s.dropRead .load) h hm
    refine ⟨fun ha => State.goesOn_congr ?_, fun ha => ?_, fun hn => ?_, fun i r hi hr hd => ?_⟩
    · rw [readsNone]
      exact if_pos ha
    · refine Eq.trans (congrArg State.goesOn (readsNone.trans (if_neg (by omega)))) (ends none .unreadable _ rfl)
    · refine told _ (by split <;> simp) (State.matchTag_of_none (State.recordOfTag_eq_none.2 hn))
    · refine told _ (by simp) ?_
      rw [State.matchTag_of_some hi hr, if_neg]
      rw [CarrierRecord.awaitsReentry_iff, eq_markOf_iff]
      rintro ⟨⟨hact, h, hh, hdis⟩, hm⟩
      rcases hd with hd | hd | hd
      · exact hd hact
      · exact hd h hh hdis
      · exact hd hm
  case check =>
    have reads := State.readEnd_check hj hw
    refine ⟨fun t ht => ⟨_, State.goesOn_congr (reads (some t)), ?_⟩, fun x hx => ⟨_, State.goesOn_congr (reads x), ?_⟩,
      fun ha => State.goesOn_congr ?_⟩
    · rw [State.checkAttempt_passes hr hl j t ht, hp]
      refine ⟨(s.checkPassed_keeps i p).mode rfl, fun hn => ?_⟩
      unfold State.checkPassed
      rw [State.modRec_eq (s := s.dropRead p) hr]
      cases p with
      | unload => cases hn
      | bench n => cases hn
      | _ => rfl
    · rw [State.checkAttempt_fails hr hl hx, hp]
      exact State.checkFailed_follows hr p
    · rw [reads none, ← hp]
      unfold State.checkAttempt
      rw [State.live?_eq_some.2 ⟨hr, hl⟩]
      exact if_pos ha
  case passed =>
    intro marking
    have reads : s.readEnd p (some t) = s.checkPassed i p := by
      rw [State.readEnd_check hj hw, State.checkAttempt_passes hr hl j t ht, hp]
    let marked : State := (s.dropRead p).setRec i (some { r with tagCheck := .passed })
    have hmarked : marked.rec? i = some { r with tagCheck := .passed } := State.setRec_rec_self _ i _
    have before : (s.dropRead p).modRec i (fun r => { r with tagCheck := .passed }) = marked :=
      State.modRec_eq (s := s.dropRead p) hr _
    refine ⟨?_, ?_⟩
    · rintro rfl
      have passed : s.checkPassed i .unload = marked.completePass i := by rw [← before]; rfl
      refine ⟨fun h hh => State.goesOn_congr ?_, fun hh hs hc => ⟨_, State.goesOn_congr (reads.trans passed), ?_⟩⟩
      · have asked : marked.completePass i = marked.askWrite .unload (markOf i) (.holdMark i true) := by
          unfold State.completePass
          rw [State.live?_eq_some.2 ⟨hmarked, hl⟩]
          dsimp only
          rw [hh]
        rw [reads, passed, asked]
        rfl
      · obtain ⟨hrec, hslots, hdone⟩ := State.completePass_good hmarked hs hh hc
        refine ⟨⟨_, hrec, ?_⟩, hslots, hdone⟩
        unfold CarrierRecord.offLane
        split
        · exact ⟨rfl, rfl, hh, rfl⟩
        · exact ⟨rfl, rfl, hh, ‹_›⟩
    · rintro n h rfl hh h' r'
      refine State.goesOn_congr ?_
      have held : marked.modHold i Hold.toBench = (s.dropRead (.bench n)).setRec i (some r') := by
        unfold State.modHold
        rw [State.modRec_eq hmarked, State.setRec_setRec]
        dsimp only
        rw [hh, Option.map_some, Hold.toBench_eq]
      have hseen : marked.holdOf i = some h := by
        unfold State.holdOf
        rw [hmarked]
        exact hh
      have hrec : (marking r').rec? i = some r' := State.setRec_rec_self _ i _
      have passed : s.checkPassed i (.bench n) = (marking r').holdChanged i .bench := by
        rw [State.checkPassed, before, State.arriveBench]
        rw [hseen]
        dsimp only
        rw [held]
        rfl
      rw [reads, passed]
      exact State.holdChanged_of_some hrec rfl .bench

end Sys2Proof.Machine
end

section
/-! SUPPORT. The lane that a binding takes, and what a bind request does (R14, R17, R107). -/

namespace Sys2Proof.Machine

/-! ## The lane that a binding takes (R107) -/

theorem State.eligible_iff (s : State) (c n : Nat) (l : LaneId) : s.eligible c n l = true ↔ EligibleByRule s c n l := by
  simp [State.eligible, EligibleByRule]

theorem State.eligibleSame_iff (s : State) (c n : Nat) (l : LaneId) :
    s.eligibleSame c n l = true ↔ EligibleByRule s c n l ∧ (s.lane l).cls = some c := by
  simp [State.eligibleSame, State.eligible_iff]

theorem State.chooseLane_of_none {s : State} {c n : Nat} (h : ∀ l, ¬ EligibleByRule s c n l) :
    s.chooseLane c n = none := by
  simp [State.chooseLane, State.eligibleSame_iff, State.eligible_iff, h]

/-- The model's choice among the lanes is that of R107. -/
theorem State.chooseLane_of_chosen {s : State} {c n : Nat} {l : LaneId} (h : ChosenByRule s c n l) :
    s.chooseLane c n = some l := by
  obtain ⟨he, hrule⟩ := h
  have same (k : LaneId) := s.eligibleSame_iff c n k
  have any (k : LaneId) := s.eligible_iff c n k
  unfold State.chooseLane
  by_cases hc : (s.lane l).cls = some c
  · rw [if_pos hc] at hrule
    cases l with
    | lane1 =>
      by_cases both : s.eligibleSame c n .lane2 = true
      · have fewer := hrule .lane2 (by simp) ((same _).1 both).1 ((same _).1 both).2
        rw [if_pos (by simp [same, he, hc, (same _).1 both]), if_neg (by omega)]
      · rw [if_neg (by simp [both]), if_pos ((same _).2 ⟨he, hc⟩)]
    | lane2 =>
      by_cases both : s.eligibleSame c n .lane1 = true
      · have fewer := hrule .lane1 (by simp) ((same _).1 both).1 ((same _).1 both).2
        rw [if_pos (by simp [same, he, hc, (same _).1 both]), if_pos (by simpa using fewer)]
      · rw [if_neg (by simp [both]), if_neg both, if_pos ((same _).2 ⟨he, hc⟩)]
  · rw [if_neg hc] at hrule
    cases l with
    | lane1 =>
      have other : ¬ s.eligibleSame c n .lane2 = true := fun e =>
        (hrule .lane2 (by simp) ((same _).1 e).1).1 ((same _).1 e).2
      rw [if_neg (by simp [other]), if_neg (by simp [same, hc]), if_neg other, if_pos ((any _).2 he)]
    | lane2 =>
      have other : ¬ s.eligible c n .lane1 = true := fun e =>
        absurd (hrule .lane1 (by simp) ((any _).1 e)).2 (by simp)
      have none1 : ¬ s.eligibleSame c n .lane1 = true := fun e => other ((any _).2 ((same _).1 e).1)
      rw [if_neg (by simp [none1]), if_neg none1, if_neg (by simp [same, hc]), if_neg other, if_pos ((any _).2 he)]

/-! ## A bind request (R107, R14, R17) -/

theorem State.setClass_lane (s : State) (l : LaneId) (c : Option Nat) (cause : LaneCause) :
    (s.setClass l c cause).lane l = ({ s.lane l with cls := c } : Lane).driven := by
  rw [State.lane_of_ctc (s.setClass_ctc l c cause)]
  exact s.setLane_lane_self l _

/-- A binding changes no more of the Line Tracker than the record table. -/
theorem State.requestBinding_ltk (s : State) (i : RecIx) (kind : LimitKind) :
    (s.requestBinding i kind).ltk = { s.ltk with table := (s.requestBinding i kind).ltk.table } := by
  unfold State.requestBinding State.tryBind
  split
  · split
    · exact ((s.setWaiting none).bindTo_rebinds _ _).1
    · rfl
  · rfl

/-- The record, the lane and the report of a binding made. -/
theorem State.bindTo_follows {s : State} {w : WaitingBinding} {r : CarrierRecord} (l : LaneId)
    (hr : s.live? w.ix = some r) :
    let u := s.bindTo w l
    u.rec? w.ix = some { r with status := .active, plan := s.planOnActive w r, lane := some l, posInLane := none } ∧
      u.ctc.waiting = s.ctc.waiting ∧ (u.lane l).cls = some w.cls ∧ (u.lane l).bound = (s.lane l).bound + 1 ∧
      (s.liu.reports.length < 31 → ∃ rest, s.liu.reports <+: rest ∧
        u.liu.reports = rest ++ [{ time := s.now, body := .admitted w.ix r.pass }]) := by
  let t := (s.setLane l { s.lane l with bound := (s.lane l).bound + 1 }).setClass l (some w.cls) .bound
  have named : s.bindTo w l = (t.setRec w.ix (some
      { r with status := .active, plan := s.planOnActive w r, lane := some l, posInLane := none })).queueReport
        (.admitted w.ix r.pass) := by
    unfold State.bindTo
    rw [hr]
  have told := (s.setLane_tells l { s.lane l with bound := (s.lane l).bound + 1 }).trans
    (State.setClass_tells _ l (some w.cls) .bound)
  have kept := State.setClass_keeps (s.setLane l { s.lane l with bound := (s.lane l).bound + 1 }) l (some w.cls) .bound
  have lane : t.lane l = ({ s.lane l with bound := (s.lane l).bound + 1, cls := some w.cls } : Lane).driven := by
    rw [State.setClass_lane, State.setLane_lane_self]
  intro u
  have hlane : u.lane l = t.lane l := by
    rw [show u = _ from named, State.lane_of_ctc (State.queueReport_ctc _ _)]
    exact t.setRec_lane w.ix _ l
  rw [hlane, lane, show u = _ from named]
  refine ⟨?_, ?_, rfl, rfl, fun hlen => ⟨t.liu.reports, ?_, ?_⟩⟩
  · rw [State.queueReport_rec?, State.setRec_rec_self]
  · rw [State.queueReport_ctc, State.setRec_ctc, State.setClass_ctc]
    simp
  · simpa using kept.grows
  · have clock : t.now = s.now := (kept.clock rfl).trans (congrArg _ (State.setLane_lmf s l _))
    have hroom : t.liu.reports.length < 32 := Nat.lt_of_le_of_lt told.reports (by omega)
    rw [State.queueReport_reports (t.setRec w.ix _) _ hroom]
    exact congrArg (fun x => t.liu.reports ++ [{ time := x, body := ReportBody.admitted w.ix r.pass }]) clock

/-- A bind request binds the record to the lane of R107, or keeps it WAIT_LANE as the waiting binding: of the state `s`
before the event, which has the lanes, the line time and the reports, but for a few. -/
theorem State.requestBinding_bound {s t : State} {i : RecIx} {r : CarrierRecord} {p : Recipe} {kind : LimitKind}
    {plan : List RouteEntry} (hr : t.rec? i = some { r with status := .waitLane }) (hp : t.recipeOf i = some p)
    (hplan : ∀ w q, t.planOnActive { ix := i, cls := w, kind := kind } { r with status := q } = plan) (hctc : t.ctc = s.ctc)
    (hclock : t.now = s.now) (hgrows : s.liu.reports <+: t.liu.reports)
    (hlen : t.liu.reports.length ≤ s.liu.reports.length + 6) :
    Bound s (t.requestBinding i kind) i r plan p.cure.speedClass (t.limit kind) kind := by
  have named : t.requestBinding i kind = t.tryBind { ix := i, cls := p.cure.speedClass, kind := kind } := by
    unfold State.requestBinding
    rw [hp]
  have choose : t.chooseLane p.cure.speedClass (t.limit kind) = s.chooseLane p.cure.speedClass (t.limit kind) := by
    have lanes : t.lane = s.lane := funext (State.lane_of_ctc hctc)
    unfold State.chooseLane State.eligibleSame State.eligible
    rw [lanes]
  rw [named]
  unfold State.tryBind
  refine ⟨fun l hl => ?_, fun hn => ?_⟩
  · have live : (t.setWaiting none).live? i = some { r with status := .waitLane } :=
      State.live?_eq_some.2 ⟨hr, rfl⟩
    obtain ⟨hrec, hwait, hcls, hbound, htold⟩ := (t.setWaiting none).bindTo_follows
      (w := { ix := i, cls := p.cure.speedClass, kind := kind }) l live
    dsimp only
    rw [choose, State.chooseLane_of_chosen hl]
    dsimp only
    refine ⟨hrec.trans ?_, hwait, hcls, hbound.trans ?_, fun hs => ?_⟩
    · rw [show (t.setWaiting none).planOnActive _ _ = plan from hplan _ _]
    · rw [← State.lane_of_ctc hctc l]
      cases l <;> rfl
    · obtain ⟨rest, hrest, hall⟩ := htold (by simpa using Nat.lt_of_le_of_lt hlen (by omega))
      obtain ⟨more, rfl⟩ := hgrows.trans (show t.liu.reports <+: rest from hrest)
      rw [hall, List.append_assoc, List.drop_left]
      simp [show (t.setWaiting none).now = s.now from hclock]
  · dsimp only
    rw [choose, State.chooseLane_of_none hn]
    refine ⟨hr, rfl, ?_, ?_⟩
    · rw [← hctc]; rfl
    · rw [← hctc]; rfl

end Sys2Proof.Machine
end

section
/-! PROOF. A re-entry at its match and at the end of its write (R8 to R10, R17, R161). -/

namespace Sys2Proof.Machine

/-! ## A re-entry up to its write (R9, R10) -/

theorem State.reenter_eq {s : State} {i : RecIx} {r : CarrierRecord} {h : Hold} {d : DispositionEntry}
    (hr : s.rec? i = some r) (hh : r.hold = some h) (hd : h.disposition = some d) :
    s.reenter i = (((s.setRec i (some { r with
      hold := none, pass := r.pass + 1, position := .standing .load, tagCheck := .passed
      history := r.history ++
        [{ reasons := h.reasons, severity := holdSeverity h.reasons, disposition := some d }] })).unseat i).dropChecks
          i).askWrite .load 0 (.reentry i (some d.what)) := by
  have ruling : r.ruling = some d.what := by
    unfold CarrierRecord.ruling
    rw [hh]
    dsimp only
    rw [hd]
    rfl
  have closed : r.closeHold = { r with
      hold := none
      history := r.history ++ [{ reasons := h.reasons, severity := holdSeverity h.reasons, disposition := some d }] } := by
    unfold CarrierRecord.closeHold
    rw [hh]
    dsimp only [historyOf]
    rw [hd]
  unfold State.reenter
  rw [hr]
  dsimp only
  rw [ruling]
  unfold CarrierRecord.reentered
  rw [closed]

theorem State.unseat_bench (s : State) (i : RecIx) (n : BenchIx) : (s.unseat i).hmg.bench[n] ≠ some i := by
  simp only [State.unseat, State.setBench, Fin.getElem_fin, Vector.getElem_map]
  split
  · simp
  · assumption

/-- An entry that a record has taken stands (R8). -/
theorem State.arrivalTold_taken {s : State} {e : LoadEntry} (h : s.ltk.loadEntry = some e)
    (he : e.takenBy.isSome = true) : s.arrivalTold = s := by
  unfold State.arrivalTold
  split
  · rfl
  · rw [State.clearEntry_eq, h, Option.filter, if_pos he, ← h]

/-! ## The rest of a re-entry (R10, R17) -/

theorem fullPlan_eq (p : Recipe) : fullPlan p = planByRule p := by
  simp [fullPlan, planByRule, planCells]

/-- The record as the next pass begins, by the plan of the disposition (R10 step 6). -/
def CarrierRecord.readied (d : Disposition) (plan : List RouteEntry) (r : CarrierRecord) : CarrierRecord :=
  let full := d = .remask ∨ d = .respray ∨ d = .strip
  { r with
    plan := plan
    maskVerdict := if full then .none else r.maskVerdict
    maskPoints := if full then r.maskPoints.map fun _ => .notChecked else r.maskPoints
    keepoutPoints := if d = .recure then r.keepoutPoints else r.keepoutPoints.map fun _ => .notChecked
    coveragePoints := if d = .recure then r.coveragePoints else r.coveragePoints.map fun _ => .notChecked
    zones := if full then r.zones.map fun z => { z with thickness := 0, verdict := .none, abandoned := false } else r.zones
    flowClamps := if full then 0 else r.flowClamps
    starves := if full then 0 else r.starves
    sprayEnd := if d = .wetWipe then r.sprayEnd else none
    cureVerdict := .none, entryTime := none, exitTime := none }

theorem readyForPass_eq {p : Recipe} (hp : 0 < p.progA.count ∨ 0 < p.progB.count) {d : Disposition} (hu : d ≠ .useAsIs)
    (hs : d ≠ .scrap) (r : CarrierRecord) :
    readyForPass d (planAfter p d) r =
      r.readied d (if d = .recure then [.wetq, .lane, .exit] else if d = .wetWipe then [.inspect, .wetq, .lane, .exit]
        else planByRule p) := by
  have mask : RouteEntry.mask ∈ planByRule p := by simp [planByRule]
  have inspect : RouteEntry.inspect ∈ planByRule p := by simp [planByRule]
  have cells : (planByRule p).any RouteEntry.isCell = true := by
    rcases hp with h | h
    · simp [planByRule, RouteEntry.isCell, Nat.ne_of_gt h]
    · simp [planByRule, RouteEntry.isCell, Nat.ne_of_gt h]
  have ready (plan : List RouteEntry) (h : plan = planByRule p) : readyForPass d plan r = { r with
      plan := planByRule p, maskVerdict := .none, maskPoints := r.maskPoints.map fun _ => .notChecked
      keepoutPoints := r.keepoutPoints.map fun _ => .notChecked
      coveragePoints := r.coveragePoints.map fun _ => .notChecked
      zones := r.zones.map fun z => { z with thickness := 0, verdict := .none, abandoned := false }
      flowClamps := 0, starves := 0, sprayEnd := if d = .wetWipe then r.sprayEnd else none
      cureVerdict := .none, entryTime := none, exitTime := none } := by
    unfold readyForPass
    simp [h, mask, inspect, cells]
  cases d with
  | useAsIs => exact absurd rfl hu
  | scrap => exact absurd rfl hs
  | recure => rfl
  | wetWipe => rfl
  | remask => exact ready _ (fullPlan_eq p)
  | respray => exact ready _ (fullPlan_eq p)
  | strip => exact ready _ (fullPlan_eq p)

/-- The write at the head of a place's writes ends. -/
theorem eraseP_writes {p : Place} {j : TagWriteJob} {pre post : List TagWriteJob} (hj : j.place = p)
    (hpre : ∀ k ∈ pre, k.place ≠ p) :
    (pre ++ j :: post).eraseP (fun k => decide (k.place = p)) = pre ++ post := by
  rw [List.eraseP_append_right _ (by simpa using hpre), List.eraseP_cons_of_pos (by simpa using hj)]

theorem State.noteFault_length (s : State) (code : FaultCode) (o : Origin) (d : FaultDetail) :
    (s.noteFault code o d).liu.reports.length ≤ s.liu.reports.length + 1 :=
  ((s.setRecord (s.lmf.record.note (s.faultEntry code o d))).queueReport_tells
    (.fault code.cls (s.faultEntry code o d))).reports

/-- The write of a re-entry ends, with the mark written or after its third failure (R10 step 4, R160). -/
theorem State.writeEnd_reentry {s : State} {j : TagWriteJob} {pre post : List TagWriteJob} {b : Option Byte} {i : RecIx}
    {d : Disposition} (hw : s.ltk.writes = pre ++ j :: post) (hj : j.place = .load) (hpre : ∀ k ∈ pre, k.place ≠ .load)
    (hwhy : j.why = .reentry i (some d)) (hb : b = some j.value ∨ 3 ≤ j.attempt) :
    ∃ t : State, s.writeEnd .load b = t.beginPass i d ∧ t.ltk = { s.ltk with writes := pre ++ post } ∧ t.ctc = s.ctc ∧
      t.now = s.now ∧ t.lmf.mode = s.lmf.mode ∧ t.rsc = s.rsc ∧ s.liu.reports <+: t.liu.reports ∧
      t.liu.reports.length ≤ s.liu.reports.length + 2 := by
  have hat : s.writeAt .load = some j := by
    unfold State.writeAt
    rw [hw, List.find?_append, List.find?_eq_none.2 (by simpa using hpre)]
    simp [hj]
  have pop (t : State) (ht : t.ltk = s.ltk) : (t.popWrite .load).ltk = { s.ltk with writes := pre ++ post } := by
    unfold State.popWrite State.setWrites
    rw [ht, hw, eraseP_writes hj hpre]
  unfold State.writeEnd
  rw [hat]
  dsimp only
  by_cases h : b = some j.value
  · refine ⟨s.popWrite .load, ?_, pop s rfl, rfl, rfl, rfl, rfl, List.prefix_refl _, Nat.le_add_right _ 2⟩
    rw [if_pos h, hwhy]
    rfl
  · let t := (s.noteFault .tagWriteRetry (writeOrigin .load) j.detail).noteFault .tagWriteFail (writeOrigin .load) j.detail
    have kept : Keeps { rep := true } s t :=
      (s.noteFault_keeps .tagWriteRetry (writeOrigin .load) j.detail).trans (State.noteFault_keeps _ _ _ _)
    have told : t.liu.reports.length ≤ s.liu.reports.length + 2 :=
      (State.noteFault_length _ _ _ _).trans (Nat.add_le_add_right (s.noteFault_length _ _ _) 1)
    refine ⟨t.popWrite .load, ?_, pop t (kept.ltk rfl), kept.ctc rfl, kept.clock rfl, kept.mode rfl, kept.rsc rfl,
      kept.grows, told⟩
    have last : ¬ j.attempt < 3 := by
      rcases hb with hb | hb
      · exact absurd hb h
      · omega
    rw [if_neg h, if_neg last, hwhy]
    rfl

/-- Settles O44: the match closes the hold, and the end of its write begins the pass and asks for a lane. -/
theorem reentryBeginsTheNextPass : Obligations.ReentryBeginsTheNextPass := by
  refine ⟨fun s j t i r h d hj hw hi hr hact hh hdis hd hm => ?matched,
    fun s j pre post b i r p d hw hj hpre hwhy hb hr hl hp hprog hu hs => ?written⟩
  case matched =>
    let e : LoadEntry := { tag := some t, result := .reentry, takenBy := some i }
    let told : State := ((s.dropRead .load).setEntry (some e)).queueReport (.loadArrival (some t) .reentry)
    have matched : (s.dropRead .load).matchTag t = (.reentry, some i) := by
      rw [State.matchTag_of_some (s := s.dropRead .load) hi hr, if_pos]
      exact ⟨r.awaitsReentry_iff.2 ⟨hact, h, hh, hdis⟩, (eq_markOf_iff _ _).2 hm⟩
    have taken : (s.dropRead .load).takeMatch t = told.reenter i := by
      unfold State.takeMatch
      rw [matched]
      rfl
    have hrec : told.rec? i = some r := (State.queueReport_rec? _ _ i).trans hr
    have reads : s.readEnd .load (some t) = (told.reenter i).arrivalTold := by
      rw [State.readEnd_arrival hj hw, taken]
    rw [State.reenter_eq hrec hh hd, State.arrivalTold_taken (e := e) (by simp [told, State.dropChecks, State.setReads,
      State.askWrite, State.setRec, State.setEntry]) rfl] at reads
    have hltk : told.ltk = ((s.dropRead .load).setEntry (some e)).ltk := State.queueReport_ltk _ _
    refine ⟨_, State.goesOn_congr reads, congrArg Ltk.loadEntry hltk, fun hlen => ?_, State.setRec_rec_self _ i _, ?_,
      fun n => State.unseat_bench _ i n, State.queueReport_ctc _ _, State.queueReport_rsc _ _⟩
    · exact State.queueReport_reports ((s.dropRead .load).setEntry (some e)) _ hlen
    · exact congrArg (fun v : Ltk => v.writes ++
        [{ place := .load, value := 0, why := .reentry i (some d.what), attempt := 1 }]) hltk
  case written =>
    intro full plan r'
    obtain ⟨t, hend, hltk, hctc, hclock, hmode, hrsc, hgrows, hlen⟩ := State.writeEnd_reentry hw hj hpre hwhy hb
    have hrec : t.rec? i = some r := by simpa [State.rec?, hltk] using hr
    have hrecipe : t.recipeOf i = some p := by simpa [State.recipeOf, hrec, hr, hrsc] using hp
    have begun : t.beginPass i d = (t.setRec i (some { r' with status := .waitLane })).requestBinding i .reentry := by
      unfold State.beginPass
      rw [State.live?_eq_some.2 ⟨hrec, hl⟩, hrecipe]
      dsimp only
      rw [readyForPass_eq hprog hu hs]
      rfl
    have hrec' : (t.setRec i (some { r' with status := .waitLane })).rec? i = some { r' with status := .waitLane } :=
      State.setRec_rec_self _ i _
    have hrecipe' : (t.setRec i (some { r' with status := .waitLane })).recipeOf i = some p := by
      rw [← hrecipe]
      simp only [State.recipeOf, hrec', hrec]
      rfl
    have kept := State.requestBinding_keeps (t.setRec i (some { r' with status := .waitLane })) i .reentry
    refine ⟨_, State.goesOn_congr (hend.trans begun), ?_, ?_, (kept.mode rfl).trans hmode, (kept.rsc rfl).trans hrsc⟩
    · rw [State.requestBinding_ltk]
      exact congrArg Ltk.writes hltk
    · exact State.requestBinding_bound hrec' hrecipe' (fun _ _ => rfl) hctc hclock hgrows (hlen.trans (by omega))

end Sys2Proof.Machine
end

section
/-! SUPPORT. A request that the Host Link takes, and what a record that leaves the line leaves behind (R16, R177 to R180). -/

namespace Sys2Proof.Machine

/-! ## A request that the Host Link takes (R177 to R180) -/

theorem request_kind_lt (k : Byte) (h : requestKinds.contains k = true) : k.toNat < 0x80 := by
  have all : ∀ k ∈ requestKinds, k.toNat < 0x80 := by decide
  exact all k (by simpa using h)

/-- A request that the Host Link takes, of a length and in the ranges of its kind, is acted on and answered. -/
theorem State.takeRequest_host {s : State} {r : Request} (ht : s.takesRequest .host = true)
    (ha : wellAsked .host r = true) (tag : Byte) :
    s.takeRequest .host tag r = (s.dispatch .host tag r).deliver .host (kindOf r) tag := by
  simp only [State.takesRequest, State.hears, Bool.and_eq_true, Bool.not_eq_true', decide_eq_true_eq,
    Option.isNone_iff_eq_none] at ht
  obtain ⟨⟨hstart, hheld, hplaces⟩, hreq⟩ := ht
  simp only [wellAsked, Bool.and_eq_true] at ha
  obtain ⟨⟨hcarried, hlength⟩, hranges⟩ := ha
  have hkind : requestKinds.contains (kindOf r) = true := by
    simp only [carries, Bool.and_eq_true] at hcarried
    exact hcarried.1
  have hbusy : s.busy .host r = false := by simp [State.busy, hreq]
  have screened : s.screen .host (kindOf r) tag (some r) = (s.dispatch .host tag r).deliver .host (kindOf r) tag := by
    unfold State.screen State.screenRequest
    rw [if_neg (by have := request_kind_lt _ hkind; omega), hkind, hcarried]
    dsimp only
    rw [hranges, hbusy]
    rfl
  unfold State.takeRequest State.take
  rw [if_neg (by simp [hstart])]
  dsimp only
  rw [if_neg (by simp [hheld]), if_neg (by omega), if_pos hlength]
  exact screened

/-- What the V24 does with such a request, when its answer is ready (R179). -/
theorem State.takeRequest_answered {s u : State} {r : Request} {st : ReplyStatus} {data : List Byte}
    (ht : s.takesRequest .host = true) (ha : wellAsked .host r = true) (tag : Byte)
    (h : s.dispatch .host tag r = (u, some (st, data))) :
    (s.takeRequest .host tag r).goesOn = .next (u.answers .host tag r st data).settle := by
  refine State.goesOn_congr ?_
  rw [State.takeRequest_host ht ha tag, h]
  rfl

theorem recIxOf_eq {b : Byte} {i : RecIx} (h : b.toNat = i.val) : recIxOf b = some i := by
  unfold recIxOf
  rw [dif_pos (by omega)]
  exact congrArg some (Fin.ext h)

theorem State.withRec_eq {s : State} {b : Byte} {i : RecIx} (h : b.toNat = i.val) (f : RecIx → Answer) :
    s.withRec b f = f i := by
  unfold State.withRec
  rw [recIxOf_eq h]

/-! ## The walks and the programs that name a record that leaves the line (R16, R57, R84) -/

/-- No walk names a record whose walks are given up, when a head has a walk only while it walks (R46, R57). -/
theorem State.dropWalks_names {s : State} {h : HeadId} (hs : ∀ w, (s.head h).walk = some w → (s.head h).state.walks = true)
    (i : RecIx) (w : WalkTable) (hw : ((s.dropWalks i).head h).walk = some w) : w.ix ≠ i := by
  rcases hv : (s.head h).walk with _ | v
  · rw [State.dropWalks_head, State.abandonWalkOf, hv] at hw
    exact absurd (hv.symm.trans hw) (by simp)
  · by_cases e : v.ix = i
    · exact absurd ((s.dropWalks_walk i h v hv e (hs v hv)).symm.trans hw) (by simp)
    · rw [State.dropWalks_head, State.abandonWalkOf, hv] at hw
      dsimp only at hw
      rw [if_neg e] at hw
      exact Option.some.inj (hv.symm.trans hw) ▸ e

section
variable (s : State) {c d : CellId} (hd : d ≠ c)
include hd

theorem State.modCell_cell_of_ne (f : SprayCell → SprayCell) : (s.modCell c f).cell d = s.cell d := by
  rw [State.modCell, State.setCell_cell, if_neg hd]

theorem State.cellTo_cell_of_ne (st : CellState) (why : CellCause) (i : Option RecIx) :
    (s.cellTo c st why i).cell d = s.cell d := by
  unfold State.cellTo
  dsimp only
  split <;> simp [State.modCell_cell_of_ne _ hd]

theorem State.finishProgram_cell_of_ne (p : Program) (o : ProgramOutcome) (f : Option (FaultCode × Nat))
    (next : CellState) (cause : CellCause) : (s.finishProgram c p o f next cause).cell d = s.cell d := by
  have marked : (s.markRun c p.ix p.pass).cell d = s.cell d := s.modCell_cell_of_ne hd _
  unfold State.finishProgram
  dsimp only
  rw [State.cellTo_cell_of_ne _ hd, State.modCell_cell_of_ne _ hd, State.queueReport_cell]
  split
  · rw [State.cell_of_scc ((State.evaluateFilm_keeps _ _).scc rfl), ← marked]
    unfold State.modLive
    split <;> simp
  · exact marked

/-- A program taken off a cell leaves the other cell (R84). -/
theorem State.dropProgram_cell_of_ne (i : RecIx) (o : ProgramOutcome) (cause : CellCause) :
    (s.dropProgram c i o cause).cell d = s.cell d := by
  have cut (p : Program) : (s.cutOff c p.ix).cell d = s.cell d := State.cell_of_scc ((s.cutOff_keeps c p.ix).scc rfl) d
  unfold State.dropProgram
  split
  · split
    · unfold State.abandonProgram State.abandonRun
      dsimp only
      rw [State.finishProgram_cell_of_ne _ hd, State.modCell_cell_of_ne _ hd,
        State.cell_of_scc ((State.raiseIf_keeps _ _ _ _).scc rfl), State.cell_of_scc ((State.flagZone?_keeps _ _ _).scc rfl),
        State.cell_of_scc ((State.flagZone?_keeps _ _ _).scc rfl), State.modCell_cell_of_ne _ hd,
        State.modCell_cell_of_ne _ hd, cut]
    · rfl
  · rfl

end

/-- A cell's program is not that of a record whose program is taken off it (R84). -/
theorem State.dropProgram_names (s : State) (c : CellId) (i : RecIx) (o : ProgramOutcome) (cause : CellCause)
    (p : Program) (hp : ((s.dropProgram c i o cause).cell c).program = some p) : p.ix ≠ i := by
  unfold State.dropProgram at hp
  split at hp
  · split at hp
    · rw [(State.abandonProgram_cell _ _ _ _ _ _ _ _).1] at hp
      cases hp
    · rename_i q hq hne
      exact Option.some.inj (hq.symm.trans hp) ▸ hne
  · rename_i hn
    exact absurd (hn.symm.trans hp) (by simp)

/-! ## The marks and the tunnel of a record that leaves the line -/

theorem State.dropMarks_head (s : State) (i : RecIx) (h : HeadId) :
    (s.dropMarks i).head h = { s.head h with given := dropMark i (s.head h).given } := by
  cases h <;> rfl

theorem State.dropMarks_cell (s : State) (i : RecIx) (c : CellId) :
    (s.dropMarks i).cell c = { s.cell c with runMark := dropMark i (s.cell c).runMark } := by
  cases c <;> rfl

theorem State.head_of_ine {s t : State} (h : t.ine = s.ine) (k : HeadId) : t.head k = s.head k := by
  cases k <;> simp [State.head, h]

@[simp] theorem State.retireTracker_sensors (s : State) (i : RecIx) :
    (s.retireTracker i).ltk.sensors = s.ltk.sensors := by
  unfold State.retireTracker State.dropTakenEntry
  split
  · split <;> rfl
  · rfl

theorem State.retireTracker_moves (s : State) (i : RecIx) :
    (s.retireTracker i).ltk.moves = s.ltk.moves.filter fun m => decide (m.ix ≠ i) := by
  unfold State.retireTracker State.dropTakenEntry
  split
  · split <;> rfl
  · rfl

section
variable {s : State} {i : RecIx} {r : CarrierRecord} (hr : s.rec? i = some r) (cause : LaneCause)
include hr

/-- Unbinding changes no more of the Line Tracker than the record table. -/
theorem State.unbind_ltk : (s.unbind i cause).ltk = { s.ltk with table := (s.unbind i cause).ltk.table } := by
  rcases hl : r.lane with _ | l
  · rw [State.unbind_of_none hr hl]
  · rw [(State.unbind_of_lane hr hl cause).ltk, State.offOrder, State.modRec_eq (by simpa using hr)]
    simp [State.setRec]

/-- Unbinding changes no more of the tunnel than the lanes and the waiting binding, which is taken or stays. -/
theorem State.unbind_ctc :
    (s.unbind i cause).ctc = { s.ctc with
      lane1 := (s.unbind i cause).ctc.lane1, lane2 := (s.unbind i cause).ctc.lane2
      waiting := (s.unbind i cause).ctc.waiting } ∧
    ((s.unbind i cause).ctc.waiting = s.ctc.waiting ∨ (s.unbind i cause).ctc.waiting = none) := by
  rcases hl : r.lane with _ | l
  · rw [State.unbind_of_none hr hl]
    exact ⟨rfl, .inl rfl⟩
  · have off := State.unbind_of_lane hr hl cause
    have same : (s.offOrder i l).ctc = (s.setLane l ((s.lane l).without i)).ctc := by
      rw [State.offOrder, State.modRec_eq (by simpa using hr)]
      rfl
    refine ⟨?_, ?_⟩
    · rw [off.ctc, same]
      cases l <;> rfl
    · have := off.waiting
      rwa [same, State.setLane_waiting] at this

/-- The orders of the lanes after an unbinding (R109). -/
theorem State.unbind_order (l : LaneId) :
    ((s.unbind i cause).lane l).order =
      if r.lane = some l then (s.lane l).order.filter fun j => decide (j ≠ i) else (s.lane l).order := by
  rcases hl : r.lane with _ | k
  · rw [State.unbind_of_none hr hl, if_neg (by simp)]
  · rw [(State.unbind_of_lane hr hl cause).order, State.offOrder, State.modRec_eq (by simpa using hr), State.setRec_lane,
      State.setLane_lane]
    by_cases e : l = k
    · subst e
      rw [if_pos rfl, if_pos rfl]
      rfl
    · rw [if_neg e, if_neg fun h => e (Option.some.inj h).symm]

end

end Sys2Proof.Machine
end

section
/-! PROOF. REMOVE, MARK_CLEAR and TRACE_TAKE (R11, R15, R16, R25). -/

namespace Sys2Proof.Machine

/-! ## What names a record that has become DONE (R7, R16) -/

/-- No move, queue, lane order, bench position, arbiter, waiting binding, walk, program or mark names a record. -/
structure Unnamed (u : State) (i : RecIx) : Prop where
  moves : ∀ m ∈ u.ltk.moves, m.ix ≠ i
  wetQueue : i ∉ u.ctc.wetQueue
  queue : i ∉ u.hmg.queue
  bench : ∀ n : BenchIx, u.hmg.bench[n] ≠ some i
  exitHolder : u.ctc.exitHolder ≠ some i
  waiting : ∀ w, u.ctc.waiting = some w → w.ix ≠ i
  program : ∀ c p, (u.cell c).program = some p → p.ix ≠ i
  given : ∀ h p, (u.head h).given ≠ some { ix := i, pass := p }
  runMark : ∀ c p, (u.cell c).runMark ≠ some { ix := i, pass := p }

section
variable {s : State} {i : RecIx} {r : CarrierRecord} (hr : s.rec? i = some r) (o : DoneOutcome)
include hr

theorem State.retire_ltk :
    (s.retire i o).ltk = { ((s.setRec i (some (r.done o))).retireTracker i).ltk with table := (s.retire i o).ltk.table } := by
  rw [State.retire_eq, State.retireBench_ltk, State.unbind_ltk (State.retireLane_rec hr o), State.retireLane_ltk hr o]

theorem State.retire_sensors : (s.retire i o).ltk.sensors = s.ltk.sensors := by
  rw [State.retire_ltk hr o]
  simp

end

section
variable (s : State) (i : RecIx) (o : DoneOutcome)

/-- The heads and the cells of a record that becomes DONE are those that its stations leave. -/
theorem State.retire_stations : (s.retire i o).ine = (s.retireLine i o).ine ∧ (s.retire i o).scc = (s.retireLine i o).scc :=
  have tunnel := State.retireTunnel_keeps (s.retireLine i o) i
  have bench := State.retireBench_keeps ((s.retireLine i o).retireTunnel i) i
  ⟨(bench.ine rfl).trans (tunnel.ine rfl), (bench.scc rfl).trans (tunnel.scc rfl)⟩

theorem State.retireLine_keeps : (s.retireLine i o).ctc = s.ctc ∧
    ((((s.modRec i fun r => r.done o).retireTracker i).releaseUse i).ine = s.ine) := by
  have first : (s.modRec i fun r => r.done o).ctc = s.ctc ∧ (s.modRec i fun r => r.done o).ine = s.ine := by
    unfold State.modRec
    split
    · exact ⟨rfl, rfl⟩
    · exact ⟨rfl, rfl⟩
  have tracker := State.retireTracker_keeps (s.modRec i fun r => r.done o) i
  have used := State.releaseUse_keeps ((s.modRec i fun r => r.done o).retireTracker i) i
  have stations := State.retireStations_keeps (((s.modRec i fun r => r.done o).retireTracker i).releaseUse i) i
  exact ⟨(stations.ctc rfl).trans ((used.ctc rfl).trans ((tracker.ctc rfl).trans first.1)),
    (used.ine rfl).trans ((tracker.ine rfl).trans first.2)⟩

theorem State.retire_ctc : (s.retire i o).ctc = ((s.retireLane i o).unbind i .removed).ctc :=
  (State.retireBench_keeps _ i).ctc rfl

theorem State.retireLane_lane (l : LaneId) : (s.retireLane i o).lane l = s.lane l := by
  have dropped (t : State) : (t.dropWaiting i).lane l = t.lane l := by
    unfold State.dropWaiting State.setWaiting
    split
    · split
      · cases l <;> rfl
      · rfl
    · rfl
  have freed (t : State) : (t.freeExit i).lane l = t.lane l := by
    unfold State.freeExit
    split
    · cases l <;> rfl
    · rfl
  have left (t : State) : (t.leaveWetQueue i).lane l = t.lane l := by cases l <;> rfl
  rw [State.retireLane, freed, left, dropped]
  exact State.lane_of_ctc (s.retireLine_keeps i o).1 l

/-- The walks after a record has become DONE, when a head has a walk only while it walks (R46, R57). -/
theorem State.retire_walks (hs : ∀ h w, (s.head h).walk = some w → (s.head h).state.walks = true) (h : HeadId)
    (w : WalkTable) (hw : ((s.retire i o).head h).walk = some w) : w.ix ≠ i := by
  let t := (((s.modRec i fun r => r.done o).retireTracker i).releaseUse i)
  have ht : t.head h = s.head h := State.head_of_ine (s.retireLine_keeps i o).2 h
  have programs : ((((t.dropWalks i).dropProgram .a i .removed .removed).dropProgram .b i .removed .removed)).head h =
      (t.dropWalks i).head h :=
    State.head_of_ine (((State.dropProgram_keeps _ .b i .removed .removed).ine rfl).trans
      ((State.dropProgram_keeps _ .a i .removed .removed).ine rfl)) h
  rw [State.head_of_ine (s.retire_stations i o).1] at hw
  change ((State.dropMarks _ i).head h).walk = some w at hw
  rw [State.dropMarks_head] at hw
  dsimp only at hw
  rw [programs] at hw
  exact State.dropWalks_names (by rw [ht]; exact hs h) i w hw

end

section
variable {s : State} {i : RecIx} {r : CarrierRecord} (hr : s.rec? i = some r) (o : DoneOutcome)
include hr

/-- The orders of the lanes after a record has become DONE, when it stands in no lane's order but its own (R106, R109). -/
theorem State.retire_order (hs : ∀ l, i ∈ (s.lane l).order → r.lane = some l) (l : LaneId) :
    i ∉ ((s.retire i o).lane l).order := by
  rw [State.lane_of_ctc (s.retire_ctc i o), State.unbind_order (State.retireLane_rec hr o),
    s.retireLane_lane i o]
  by_cases e : r.lane = some l
  · rw [if_pos (show (r.done o).lane = some l from e)]
    simp
  · rw [if_neg (show ¬ (r.done o).lane = some l from e)]
    exact fun h => e (hs l h)

/-- A record that has become DONE is named nowhere, but that a walk or a lane order needs its law (R16). -/
theorem State.retire_unnamed : Unnamed (s.retire i o) i := by
  let t := (((s.modRec i fun r => r.done o).retireTracker i).releaseUse i).dropWalks i
  have ine := (s.retire_stations i o).1
  have scc := (s.retire_stations i o).2
  obtain ⟨hctc, hwaiting⟩ := State.unbind_ctc (State.retireLane_rec hr o) .removed
  have wet (v : State) : (v.freeExit i).ctc.wetQueue = v.ctc.wetQueue := by
    unfold State.freeExit; split <;> rfl
  refine ⟨fun m hm => ?_, ?_, ?_, fun n => State.unseat_bench _ i n, ?_, fun w hw => ?_, fun c p hp => ?_, fun h p => ?_,
    fun c p => ?_⟩
  · rw [State.retire_ltk hr o, State.retireTracker_moves] at hm
    simpa using (List.mem_filter.1 hm).2
  · rw [s.retire_ctc i o, hctc]
    dsimp only
    rw [State.retireLane, wet]
    simp [State.leaveWetQueue]
  · rw [State.retire_eq]
    simp [State.retireBench, State.setQueue, State.unseat, State.setBench]
  · rw [s.retire_ctc i o, hctc]
    dsimp only
    unfold State.retireLane State.freeExit
    split
    · simp
    · assumption
  · rw [s.retire_ctc i o] at hw
    rcases hwaiting with e | e
    · exact s.retireLane_waiting i o w (e ▸ hw)
    · rw [e] at hw; cases hw
  · rw [State.cell_of_scc scc] at hp
    change ((State.dropMarks _ i).cell c).program = some p at hp
    rw [State.dropMarks_cell] at hp
    cases c with
    | a =>
      rw [State.dropProgram_cell_of_ne _ (by simp)] at hp
      exact t.dropProgram_names .a i _ _ p hp
    | b => exact State.dropProgram_names _ .b i _ _ p hp
  · rw [State.head_of_ine ine]
    change ((State.dropMarks _ i).head h).given ≠ _
    rw [State.dropMarks_head]
    exact dropMark_ne i _ p
  · rw [State.cell_of_scc scc]
    change ((State.dropMarks _ i).cell c).runMark ≠ _
    rw [State.dropMarks_cell]
    exact dropMark_ne i _ p

end

/-! ## TRACE_TAKE and MARK_CLEAR (R11, R15, R25) -/

theorem State.entryMarked_isSome {s : State} {id : TagId} :
    (s.entryMarked id).isSome = true ↔
      ∃ e t, s.ltk.loadEntry = some e ∧ e.tag = some t ∧ e.result = .marked ∧ t.id = id := by
  unfold State.entryMarked
  split
  · rename_i e he
    split
    · rename_i t ht
      split
      · rename_i h
        exact iff_of_true rfl ⟨e, t, he, ht, h.1, h.2⟩
      · rename_i h
        refine iff_of_false (by simp) ?_
        rintro ⟨e', t', he', ht', hm, hid⟩
        cases he.symm.trans he'
        cases ht.symm.trans ht'
        exact h ⟨hm, hid⟩
    · rename_i ht
      refine iff_of_false (by simp) ?_
      rintro ⟨e', t', he', ht', -⟩
      cases he.symm.trans he'
      exact absurd (ht.symm.trans ht') (by simp)
  · rename_i he
    refine iff_of_false (by simp) ?_
    rintro ⟨e', t', he', -⟩
    exact absurd (he.symm.trans he') (by simp)

theorem CarrierRecord.isDone_iff (r : CarrierRecord) : r.isDone = true ↔ ∃ o, r.status = .done o := by
  unfold CarrierRecord.isDone
  rcases r.status with _ | _ | _ | o <;> simp

/-- The LOAD entry's carrier with match DUPLICATE is matched again (R11). -/
theorem State.rematch_duplicate {s : State} {t : TagRead} {k : Option RecIx}
    (h : s.ltk.loadEntry = some { tag := some t, result := .duplicate, takenBy := k }) (id : TagId) :
    s.rematch .duplicate id = if t.id = id then s.takeMatch t else s := by
  unfold State.rematch
  rw [h]
  simp

theorem State.rematch_other {s : State}
    (h : ∀ t k, s.ltk.loadEntry ≠ some { tag := some t, result := .duplicate, takenBy := k }) (id : TagId) :
    s.rematch .duplicate id = s := by
  unfold State.rematch
  rcases he : s.ltk.loadEntry with _ | ⟨_ | t, m, k⟩
  · rfl
  · rfl
  · dsimp only
    refine if_neg ?_
    rintro ⟨rfl, -⟩
    exact h t k he

theorem State.doTraceTake_done {s : State} {i : RecIx} {r : CarrierRecord} (hr : s.rec? i = some r)
    (hd : r.isDone = true) :
    s.doTraceTake i = ((s.setRec i none).rematch .duplicate r.tagId, some (.ok, eRecord r)) := by
  unfold State.doTraceTake State.unless
  rw [hr]
  dsimp only
  rw [hd]
  rfl

theorem State.doTraceTake_not {s : State} {i : RecIx} (hn : ∀ r o, s.rec? i = some r → r.status ≠ .done o) :
    s.doTraceTake i = (s, some (.notDone, [])) := by
  unfold State.doTraceTake State.unless
  split
  · rename_i r hr
    rw [if_neg fun h => ?_]
    · rfl
    · obtain ⟨o, ho⟩ := r.isDone_iff.1 h
      exact hn r o hr ho
  · rfl

theorem State.doRemove_loading {s : State} {i : RecIx} {r : CarrierRecord} (hr : s.rec? i = some r)
    (hs : r.status = .loading) :
    s.doRemove i = (s.setRec i (some { r with removalPending := true }), some (.ok, [])) := by
  have pending : s.doRemove i = ((s.modRec i fun r => { r with removalPending := true }), some (.ok, [])) := by
    unfold State.doRemove
    rw [State.live?_eq_some.2 ⟨hr, by simp [hs, Status.isLive]⟩]
    dsimp only
    rw [hs]
    rfl
  rw [pending, State.modRec_eq hr]

theorem State.doRemove_inPass {s : State} {i : RecIx} {r : CarrierRecord} (hr : s.rec? i = some r)
    (hs : r.status = .waitLane ∨ r.status = .active) : s.doRemove i = (s.retire i .removed, some (.ok, [])) := by
  have live : r.status.isLive = true := by rcases hs with hs | hs <;> simp [hs, Status.isLive]
  unfold State.doRemove
  rw [State.live?_eq_some.2 ⟨hr, live⟩]
  dsimp only
  rcases hs with hs | hs
  · rw [hs]; rfl
  · rw [hs]; rfl

/-- Settles O29, clause by clause: REMOVE, MARK_CLEAR and TRACE_TAKE answer as their rules say. -/
theorem removeMarkClearAndTraceTake : Obligations.RemoveMarkClearAndTraceTake := by
  refine ⟨fun s tag b i ht hb => ?remove, fun s tag b id i ht hb => ?others⟩
  case remove =>
    have asked : wellAsked .host (.remove b) = true := by simp [wellAsked, carries, kindOf, requestKinds, benchOnlyKinds,
      Request.lengthOk, rangesOk, hb]
    have acted : s.dispatch .host tag (.remove b) = s.doRemove i := State.withRec_eq hb _
    refine ⟨fun hn => State.takeRequest_answered ht asked tag (acted.trans ?_), fun r hr => ⟨fun hs => ?_, fun hs => ?_⟩⟩
    · unfold State.doRemove
      rw [hn]
      rfl
    · exact State.takeRequest_answered ht asked tag (acted.trans (State.doRemove_loading hr hs))
    · have done := State.doRemove_inPass hr hs
      have unnamed := State.retire_unnamed hr .removed
      refine ⟨_, State.takeRequest_answered ht asked tag (acted.trans done), ⟨_, State.retire_rec hr .removed, ?_⟩,
        State.retire_released hr .removed, unnamed.moves, unnamed.wetQueue, unnamed.queue, unnamed.bench,
        unnamed.exitHolder, unnamed.waiting, s.retire_walks i .removed, unnamed.program, State.retire_order hr .removed,
        unnamed.given, unnamed.runMark, State.retire_sensors hr .removed⟩
      unfold CarrierRecord.offLane
      split
      · exact ⟨rfl, rfl, rfl, rfl, rfl, rfl, rfl, rfl⟩
      · rename_i hlane
        exact ⟨rfl, rfl, hlane, rfl, rfl, rfl, rfl, rfl⟩
  case others =>
    have clears : wellAsked .host (.markClear id) = true := by simp [wellAsked, carries, kindOf, requestKinds,
      benchOnlyKinds, Request.lengthOk, rangesOk]
    have takes : wellAsked .host (.traceTake b) = true := by simp [wellAsked, carries, kindOf, requestKinds,
      benchOnlyKinds, Request.lengthOk, rangesOk, hb]
    have acted : s.dispatch .host tag (.traceTake b) = s.doTraceTake i := State.withRec_eq hb _
    refine ⟨fun hm => State.takeRequest_answered ht clears tag (if_pos hm), fun hm hn => ?_, fun e t hm he hte hmark hid => ?_,
      fun hn => State.takeRequest_answered ht takes tag (acted.trans (State.doTraceTake_not hn)), fun r o hr ho => ?_⟩
    · refine State.takeRequest_answered ht clears tag ((if_neg hm).trans (if_neg ?_))
      rw [State.entryMarked_isSome]
      rintro ⟨e, t, he, hte, hmark, hid⟩
      exact hn e t he hte hmark hid
    · exact State.takeRequest_answered ht clears tag
        ((if_neg hm).trans (if_pos (State.entryMarked_isSome.2 ⟨e, t, he, hte, hmark, hid⟩)))
    · intro u
      have taken := State.takeRequest_answered ht takes tag
        (acted.trans (State.doTraceTake_done hr (r.isDone_iff.2 ⟨o, ho⟩)))
      refine taken.trans (congrArg (fun v : State => Host.Outcome.next (v.answers .host tag (.traceTake b) .ok (eRecord r)).settle) ?_)
      split
      · rename_i t k he
        exact State.rematch_duplicate (s := s.setRec i none) he _
      · rename_i hne
        exact State.rematch_other (s := s.setRec i none) (fun t k h => hne t k h) _

end Sys2Proof.Machine
end

section
/-! SUPPORT. The record and the slots that an admission means (R12, R37). -/

namespace Sys2Proof.Machine

/-! ## The slots and the record that ADMIT means (R12, R37) -/

theorem State.lowestFree_iff (s : State) (i : RecIx) :
    s.lowestFree = some i ↔ s.rec? i = none ∧ ∀ j, j < i → (s.rec? j).isSome = true := by
  rw [State.lowestFree, recIxs, ← Fin.find?_eq_find?_finRange, Fin.find?_eq_some_iff]
  simp [Option.isSome_iff_ne_none, Option.isNone_iff_eq_none]

theorem State.lowestFree_eq_none (s : State) : s.lowestFree = none ↔ ∀ i, (s.rec? i).isSome = true := by
  rw [State.lowestFree, recIxs, ← Fin.find?_eq_find?_finRange, Fin.find?_eq_none_iff]
  simp [Option.isSome_iff_ne_none]

theorem State.residentSlot_some {s : State} {n : Nat} {k : SlotIx} (h : s.residentSlot n = some k) :
    ∃ h q p, s.rsc.slots[k] = .valid h q p ∧ h.recipe = n := by
  have hit := List.find?_some h
  cases hs : s.rsc.slots[k] with
  | valid v q p =>
    rw [hs] at hit
    exact ⟨v, q, p, rfl, of_decide_eq_true hit⟩
  | loading v => rw [hs] at hit; cases hit
  | empty => rw [hs] at hit; cases hit

theorem State.residentSlot_none (s : State) (n : Nat) :
    s.residentSlot n = none ↔ ∀ (j : SlotIx) h q p, s.rsc.slots[j] = .valid h q p → h.recipe ≠ n := by
  rw [State.residentSlot, slotIxs, ← Fin.find?_eq_find?_finRange, Fin.find?_eq_none_iff]
  refine forall_congr' fun j => ?_
  cases s.rsc.slots[j] with
  | valid v q p => simp
  | loading v => simp
  | empty => simp

theorem State.loadingSlot_some {s : State} {n : Nat} {k : SlotIx} (h : s.loadingSlot n = some k) :
    ∃ h, s.rsc.slots[k] = .loading h ∧ h.recipe = n := by
  have hit := List.find?_some h
  cases hs : s.rsc.slots[k] with
  | loading v =>
    rw [hs] at hit
    exact ⟨v, rfl, of_decide_eq_true hit⟩
  | valid v q p => rw [hs] at hit; cases hit
  | empty => rw [hs] at hit; cases hit

theorem State.loadingSlot_none (s : State) (n : Nat) :
    s.loadingSlot n = none ↔ ∀ (j : SlotIx) h, s.rsc.slots[j] = .loading h → h.recipe ≠ n := by
  rw [State.loadingSlot, slotIxs, ← Fin.find?_eq_find?_finRange, Fin.find?_eq_none_iff]
  refine forall_congr' fun j => ?_
  cases s.rsc.slots[j] with
  | loading v => simp
  | valid v q p => simp
  | empty => simp

theorem Slot.isEmpty_iff (v : Slot) : v.isEmpty = true ↔ v = .empty := by
  cases v <;> simp [Slot.isEmpty]

theorem State.replaceAge_some (s : State) (k : SlotIx) (a : Nat) :
    s.replaceAge k = some a ↔
      ∃ h q p, s.rsc.slots[k] = .valid h q p ∧ h.use = 0 ∧ (s.now - h.lastUse).toNat = a := by
  unfold State.replaceAge State.since
  cases s.rsc.slots[k] with
  | valid h q p => by_cases e : h.use = 0 <;> simp [e]
  | loading h => simp
  | empty => simp

/-- The slot to replace among some slots (R37 step 3): of the VALID ones with use count 0 the one used longest ago, the
lowest when equal. -/
def Oldest (s : State) (seen : List SlotIx) : Option SlotIx → Prop
  | none => ∀ j ∈ seen, s.replaceAge j = none
  | some k => k ∈ seen ∧ ∃ a, s.replaceAge k = some a ∧
      ∀ j ∈ seen, j ≠ k → ∀ b, s.replaceAge j = some b → b < a ∨ (b = a ∧ k < j)

/-- The fold of the model finds it, slot by slot. -/
theorem State.older_oldest {s : State} {seen : List SlotIx} {best : Option SlotIx} {k : SlotIx} (h : Oldest s seen best)
    (hk : ∀ j ∈ seen, j < k) : Oldest s (seen ++ [k]) (s.older best k) := by
  unfold State.older
  rcases ha : s.replaceAge k with _ | a
  · rcases best with _ | m
    · intro j hj
      rcases List.mem_append.1 hj with hj | hj
      · exact h j hj
      · rw [List.mem_singleton.1 hj, ha]
    · obtain ⟨hm, b, hb, hall⟩ := h
      refine ⟨List.mem_append_left _ hm, b, hb, fun j hj hne c hc => ?_⟩
      rcases List.mem_append.1 hj with hj | hj
      · exact hall j hj hne c hc
      · rw [List.mem_singleton.1 hj, ha] at hc
        cases hc
  · rcases best with _ | m
    · refine ⟨by simp, a, ha, fun j hj hne c hc => ?_⟩
      rcases List.mem_append.1 hj with hj | hj
      · rw [h j hj] at hc
        cases hc
      · exact absurd (List.mem_singleton.1 hj) hne
    · obtain ⟨hm, b, hb, hall⟩ := h
      dsimp only
      rw [hb, Option.getD_some]
      by_cases hlt : b < a
      · rw [if_pos hlt]
        refine ⟨by simp, a, ha, fun j hj hne c hc => .inl ?_⟩
        rcases List.mem_append.1 hj with hj | hj
        · by_cases e : j = m
          · subst e
            cases hb.symm.trans hc
            exact hlt
          · rcases hall j hj e c hc with h | h
            · exact h.trans hlt
            · exact h.1 ▸ hlt
        · exact absurd (List.mem_singleton.1 hj) hne
      · rw [if_neg hlt]
        refine ⟨List.mem_append_left _ hm, b, hb, fun j hj hne c hc => ?_⟩
        rcases List.mem_append.1 hj with hj | hj
        · exact hall j hj hne c hc
        · rw [List.mem_singleton.1 hj] at hc ⊢
          have e : a = c := Option.some.inj (ha.symm.trans hc)
          rcases Nat.lt_or_ge c b with h | h
          · exact .inl h
          · exact .inr ⟨by omega, hk m hm⟩

theorem State.foldl_older_oldest (s : State) (ks : List SlotIx) : ∀ (seen : List SlotIx) (best : Option SlotIx),
    Oldest s seen best → (seen ++ ks).Pairwise (· < ·) → Oldest s (seen ++ ks) (ks.foldl s.older best) := by
  induction ks with
  | nil => intro seen best h _; simpa using h
  | cons k ks ih =>
    intro seen best h hp
    have hk : ∀ j ∈ seen, j < k := fun j hj => (List.pairwise_append.1 hp).2.2 j hj k (by simp)
    have next := ih (seen ++ [k]) (s.older best k) (State.older_oldest h hk)
    rw [List.append_assoc] at next
    exact next hp

/-- The slot chosen for a load (R37 step 3). -/
theorem State.slotForLoad_iff (s : State) (k : SlotIx) :
    s.slotForLoad = some k ↔
      (s.rsc.slots[k] = .empty ∧ ∀ j : SlotIx, j < k → s.rsc.slots[j] ≠ .empty) ∨
      ((∀ j : SlotIx, s.rsc.slots[j] ≠ .empty) ∧ ∃ a, s.replaceAge k = some a ∧
        ∀ j, j ≠ k → ∀ b, s.replaceAge j = some b → b < a ∨ (b = a ∧ k < j)) := by
  have oldest := s.foldl_older_oldest slotIxs [] none (fun _ h => absurd h (by simp))
    (by simpa [slotIxs] using List.pairwise_lt_finRange 8)
  have mem (j : SlotIx) : j ∈ [] ++ slotIxs := by simp [slotIxs]
  have found (m : SlotIx) : (slotIxs.find? fun j => (s.rsc.slots[j]).isEmpty) = some m ↔
      s.rsc.slots[m] = .empty ∧ ∀ j : SlotIx, j < m → s.rsc.slots[j] ≠ .empty := by
    rw [slotIxs, ← Fin.find?_eq_find?_finRange, Fin.find?_eq_some_iff]
    refine and_congr (Slot.isEmpty_iff _) (forall_congr' fun j => forall_congr' fun _ => ?_)
    rw [ne_eq, ← Slot.isEmpty_iff, Bool.not_eq_true]
  have missing : (slotIxs.find? fun j => (s.rsc.slots[j]).isEmpty) = none ↔ ∀ j : SlotIx, s.rsc.slots[j] ≠ .empty := by
    rw [slotIxs, ← Fin.find?_eq_find?_finRange, Fin.find?_eq_none_iff]
    refine forall_congr' fun j => ?_
    rw [ne_eq, ← Slot.isEmpty_iff, Bool.not_eq_true]
  unfold State.slotForLoad
  rcases hf : slotIxs.find? fun j => (s.rsc.slots[j]).isEmpty with _ | m
  · have filled := missing.1 hf
    rw [hf]
    change slotIxs.foldl s.older none = some k ↔ _
    refine ⟨fun h => .inr ⟨filled, ?_⟩, ?_⟩
    · rw [h] at oldest
      obtain ⟨-, a, ha, hall⟩ := oldest
      exact ⟨a, ha, fun j => hall j (mem j)⟩
    · rintro (⟨he, -⟩ | ⟨-, a, ha, hall⟩)
      · exact absurd he (filled k)
      · rcases hr : slotIxs.foldl s.older none with _ | m
        · rw [hr] at oldest
          exact absurd ((oldest k (mem k)).symm.trans ha) (by simp)
        · rw [hr] at oldest
          obtain ⟨-, b, hb, hothers⟩ := oldest
          by_cases e : m = k
          · rw [e]
          · have h1 := hall m e b hb
            have h2 := hothers k (mem k) (Ne.symm e) a ha
            rcases h1 with h1 | ⟨h1, h1'⟩
            · omega
            · rcases h2 with h2 | ⟨-, h2⟩
              · omega
              · exact absurd h1' (not_lt_of_gt h2)
  · have hm := (found m).1 hf
    rw [hf]
    change some m = some k ↔ _
    refine ⟨fun h => .inl (by rwa [Option.some.inj h] at hm), ?_⟩
    rintro (h | ⟨hn, -⟩)
    · exact hf.symm.trans ((found k).2 h)
    · exact absurd hm.1 (hn m)

end Sys2Proof.Machine
end

section
/-! SUPPORT. What a load request comes to, and an admission taken or refused (R6, R12, R13, R33, R37, R38). -/

namespace Sys2Proof.Machine

theorem State.setSlot_slots (s : State) (k j : SlotIx) (v : Slot) :
    (s.setSlot k v).rsc.slots[j] = if j = k then v else s.rsc.slots[j] := by
  by_cases e : j = k
  · subst e
    rw [if_pos rfl]
    exact Vector.getElem_set_self _
  · rw [if_neg e]
    exact Vector.getElem_set_ne k.isLt j.isLt fun h => e (Fin.ext h.symm)

/-! ## What a load request comes to (R37, R38) -/

theorem State.requestLoad_resident {s : State} {n : Nat} {k : SlotIx} {h : SlotHead} {q : Bool} {p : Recipe}
    (hk : s.residentSlot n = some k) (hs : s.rsc.slots[k] = .valid h q p) (i : RecIx) :
    s.requestLoad i n = (s.setSlot k (.valid (h.take s.now) q p)).loadSucceeded i k q p := by
  unfold State.requestLoad
  rw [hk]
  dsimp only
  rw [hs]

theorem State.requestLoad_joins {s : State} {n : Nat} {k : SlotIx} {h : SlotHead} (hn : s.residentSlot n = none)
    (hk : s.loadingSlot n = some k) (hs : s.rsc.slots[k] = .loading h) (i : RecIx) :
    s.requestLoad i n = s.setSlot k (.loading (h.take s.now)) := by
  unfold State.requestLoad
  rw [hn, hk]
  dsimp only
  rw [hs]

/-- The load of a recipe at the end of the load list. -/
def State.queueLoad (s : State) (k : SlotIx) (n : Nat) : State :=
  (s.setSlot k (.loading { recipe := n, use := 1, lastUse := s.now, extents := [] })).modRsc fun v =>
    { v with loadList := v.loadList ++ [k] }

theorem State.requestLoad_queues {s : State} {n : Nat} {k : SlotIx} (hn : s.residentSlot n = none)
    (hl : s.loadingSlot n = none) (hk : s.slotForLoad = some k) (i : RecIx) :
    s.requestLoad i n = (s.queueLoad k n).startLoads 9 := by
  unfold State.requestLoad
  rw [hn, hl, hk]
  rfl

theorem State.requestLoad_noSlot {s : State} {n : Nat} (hn : s.residentSlot n = none) (hl : s.loadingSlot n = none)
    (hk : s.slotForLoad = none) (i : RecIx) : s.requestLoad i n = s.loadFailed i .noSlot := by
  unfold State.requestLoad
  rw [hn, hl, hk]

theorem State.startLoads_busy {s : State} (h : s.rsc.walk.isSome = true) (fuel : Nat) : s.startLoads fuel = s := by
  cases fuel with
  | zero => rfl
  | succ n => unfold State.startLoads; rw [if_pos h]

theorem State.startLoads_nil {s : State} (h : s.rsc.loadList = []) (fuel : Nat) : s.startLoads fuel = s := by
  cases fuel with
  | zero => rfl
  | succ n =>
    unfold State.startLoads
    rw [h]
    split <;> rfl

/-- The head of the load list is begun, or fails at once where its header would lie outside the store (R33, R38). -/
theorem State.startLoads_head {s : State} {k : SlotIx} {ks : List SlotIx} {h : SlotHead} (hw : s.rsc.walk = none)
    (hl : s.rsc.loadList = k :: ks) (hs : s.rsc.slots[k] = .loading h) (fuel : Nat) :
    s.startLoads (fuel + 1) =
      if entryEmpty s.rsc.dir h.recipe || !headerPlaceOk (entryOffset s.rsc.dir h.recipe) then
        (s.failLoad k h.recipe .recipeBad).startLoads fuel
      else s.beginLoad k h := by
  rw [State.startLoads, if_neg (by simp [hw]), hl]
  dsimp only
  rw [hs]

/-! ## An admission (R6, R12) -/

/-- The line as ADMIT has taken the LOAD entry for a new record (R6, R12). -/
def State.admitting (s : State) (i : RecIx) (e : LoadEntry) (r : CarrierRecord) : State :=
  (s.setRec i (some r)).setEntry (some { e with takenBy := some i })

/-- ADMIT takes the LOAD entry of a tag ID into the lowest FREE record for a recipe (R12). -/
structure Admits (s : State) (id : TagId) (n : Nat) (e : LoadEntry) (i : RecIx) : Prop where
  mode : s.lmf.mode = .run
  entry : s.ltk.loadEntry = some e
  tag : ∃ t, e.tag = some t ∧ t.id = id
  isNew : e.result = .new
  free : e.takenBy = none
  lowest : s.lowestFree = some i
  store : s.rsc.storeState ≠ .blank
  listed : entryEmpty s.rsc.dir n = false

theorem State.admissible_of {s : State} {id : TagId} {e : LoadEntry} {t : TagRead} (he : s.ltk.loadEntry = some e)
    (ht : e.tag = some t) (hid : t.id = id) (hm : e.result = .new ∨ e.result = .marked) (hf : e.takenBy = none) :
    s.admissible id = some e := by
  unfold State.admissible
  rw [he]
  dsimp only
  rw [ht]
  exact if_pos ⟨hid, hm, hf⟩

theorem Admits.doAdmit {s : State} {id : TagId} {n : Nat} {e : LoadEntry} {i : RecIx} (h : Admits s id n e i)
    (serial : List Byte) :
    s.doAdmit id n serial = ((s.admitting i e (newRecord id serial n)).requestLoad i n,
      some (.ok, [BitVec.ofNat 8 i.val])) := by
  obtain ⟨t, ht, hid⟩ := h.tag
  unfold State.doAdmit
  rw [if_neg (by simp [h.mode]), State.admissible_of h.entry ht hid (.inl h.isNew) h.free]
  dsimp only
  rw [if_neg (by simp [h.isNew]), h.lowest]
  dsimp only
  rw [if_neg h.store, if_neg (by simp [h.listed])]
  rfl

/-- A load that fails at once undoes the admission: the record FREE, the LOAD entry as it was, or gone with its carrier,
ADMIT_FAILED queued (R13; log 9). -/
theorem State.loadFailed_admitting {s w : State} {id : TagId} {n : Nat} {serial : List Byte} {e : LoadEntry} {i : RecIx}
    (hi : s.rec? i = none) (hf : e.takenBy = none) (hltk : w.ltk = (s.admitting i e (newRecord id serial n)).ltk)
    (hctc : w.ctc = s.ctc) (hliu : w.liu = s.liu) (hlmf : w.lmf = s.lmf) (why : LoadFailure) :
    let u := w.loadFailed i why
    u.ltk.table = s.ltk.table ∧ u.ltk.loadEntry = (if s.present .load then some e else none) ∧ u.ctc = s.ctc ∧
      (s.liu.reports.length < 32 →
        u.liu.reports = s.liu.reports ++ [{ time := s.now, body := .admitFailed id why }]) ∧ u.rsc = w.rsc := by
  have hrec : w.rec? i = some (newRecord id serial n) := by
    rw [State.rec?_of_ltk hltk]
    exact State.setRec_rec_self _ i _
  have failed : w.loadFailed i why =
      ((((w.queueReport (.admitFailed id why)).setRec i none).dropChecks i).returnEntry i) := by
    unfold State.loadFailed
    rw [State.loading?_eq_some.2 ⟨hrec, rfl⟩]
    rfl
  let v := ((w.queueReport (.admitFailed id why)).setRec i none).dropChecks i
  have table : v.ltk.table = s.ltk.table := by
    have unset : (s.ltk.table.set i (some (newRecord id serial n))).set i none = s.ltk.table := by
      have hi' : s.ltk.table[i.val] = none := hi
      rw [Vector.set_set, ← hi', Vector.set_getElem_self]
    have : v.ltk.table = w.ltk.table.set i none := by
      simp only [v, State.dropChecks, State.setReads, State.setRec, State.queueReport_ltk]
    rw [this, hltk]
    exact unset
  have same := State.queueReport_ltk w (.admitFailed id why)
  have entry : v.ltk.loadEntry = some { e with takenBy := some i } := by
    change (w.queueReport (.admitFailed id why)).ltk.loadEntry = _
    rw [same, hltk]
    rfl
  have level : v.present .load = s.present .load := by
    change (w.queueReport (.admitFailed id why)).ltk.sensors.read .load = _
    rw [same, hltk]
    rfl
  have returned : v.returnEntry i = v.setEntry (if s.present .load then some e else none) := by
    unfold State.returnEntry
    rw [entry]
    dsimp only
    rw [if_pos rfl, level, ← hf]
  intro u
  have hu : u = v.setEntry (if s.present .load then some e else none) := failed.trans returned
  rw [hu]
  refine ⟨table, rfl, (State.queueReport_ctc _ _).trans hctc, fun hlen => ?_, State.queueReport_rsc _ _⟩
  have told := State.queueReport_reports w (.admitFailed id why) (by rw [hliu]; exact hlen)
  rw [hliu, show w.now = s.now from congrArg Lmf.clock hlmf] at told
  exact told

/-! ## ADMIT refused (R12) -/

/-- The LOAD entry's carrier with a tag ID and a match, that no record has taken. -/
def State.waits (s : State) (id : TagId) (m : MatchResult) : Prop :=
  ∃ e t, s.ltk.loadEntry = some e ∧ e.tag = some t ∧ t.id = id ∧ e.takenBy = none ∧ e.result = m

theorem State.doAdmit_notFound {s : State} {id : TagId} (hm : s.lmf.mode = .run) (h1 : ¬ s.waits id .new)
    (h2 : ¬ s.waits id .marked) (n : Nat) (serial : List Byte) : s.doAdmit id n serial = s.refuse .notFound := by
  have absent : s.admissible id = none := by
    rcases ha : s.admissible id with _ | e
    · rfl
    · obtain ⟨he, hf, hr, t, ht, hid⟩ := State.admissible_eq_some ha
      rcases hr with hr | hr
      · exact absurd ⟨e, t, he, ht, hid, hf, hr⟩ h1
      · exact absurd ⟨e, t, he, ht, hid, hf, hr⟩ h2
  unfold State.doAdmit
  rw [if_neg (by simp [hm]), absent]

theorem State.doAdmit_marked {s : State} {id : TagId} (hm : s.lmf.mode = .run) (h : s.waits id .marked) (n : Nat)
    (serial : List Byte) : s.doAdmit id n serial = s.refuse .marked := by
  obtain ⟨e, t, he, ht, hid, hf, hr⟩ := h
  unfold State.doAdmit
  rw [if_neg (by simp [hm]), State.admissible_of he ht hid (.inr hr) hf]
  exact if_pos hr

theorem State.doAdmit_lineFull {s : State} {id : TagId} (hm : s.lmf.mode = .run) (h : s.waits id .new)
    (hn : ∀ i, (s.rec? i).isSome = true) (n : Nat) (serial : List Byte) :
    s.doAdmit id n serial = s.refuse .lineFull := by
  obtain ⟨e, t, he, ht, hid, hf, hr⟩ := h
  unfold State.doAdmit
  rw [if_neg (by simp [hm]), State.admissible_of he ht hid (.inl hr) hf]
  dsimp only
  rw [if_neg (by simp [hr]), s.lowestFree_eq_none.2 hn]

theorem State.doAdmit_store {s : State} {id : TagId} (hm : s.lmf.mode = .run) (h : s.waits id .new)
    (hn : ∃ i, s.rec? i = none) (n : Nat) (serial : List Byte) :
    (s.rsc.storeState = .blank → s.doAdmit id n serial = s.refuse .storeBlank) ∧
      (s.rsc.storeState ≠ .blank → entryEmpty s.rsc.dir n = true → s.doAdmit id n serial = s.refuse .noRecipe) := by
  obtain ⟨e, t, he, ht, hid, hf, hr⟩ := h
  obtain ⟨i, hi⟩ : ∃ i, s.lowestFree = some i := by
    rw [← Option.isSome_iff_exists, Option.isSome_iff_ne_none, ne_eq, State.lowestFree_eq_none]
    obtain ⟨j, hj⟩ := hn
    exact fun h => by simpa [hj] using h j
  unfold State.doAdmit
  rw [if_neg (by simp [hm]), State.admissible_of he ht hid (.inl hr) hf]
  dsimp only
  rw [if_neg (by simp [hr]), hi]
  exact ⟨fun hb => if_pos hb, fun hb hd => (if_neg hb).trans (if_pos hd)⟩

/-! ## ADMIT accepted (R6, R12, R13, R37, R38) -/

theorem sectionPoints_length (v : Option PointSection) :
    (sectionPoints v).length = (v.map fun v => v.points.length).getD 0 := by
  cases v <;> rfl

theorem shapeRecord_eq (k : SlotIx) (q : Bool) (p : Recipe) (r : CarrierRecord) :
    shapeRecord k q p r = shapedByRule k q p r := by
  have coverage : (p.coverage.getD []).length = (p.coverage.map List.length).getD 0 := by
    cases p.coverage <;> rfl
  simp only [shapeRecord, shapedByRule, sectionPoints_length, coverage, List.map_const']

theorem State.recipeOf_eq {s : State} {i : RecIx} {r : CarrierRecord} {k : SlotIx} (hr : s.rec? i = some r)
    (hk : r.slot = some k) : s.recipeOf i = (s.rsc.slots[k]).recipe? := by
  unfold State.recipeOf
  rw [hr]
  dsimp only
  rw [hk]

/-- A record whose load succeeds is shaped to its recipe and asks for a lane (R13). -/
theorem State.loadSucceeded_eq {s : State} {i : RecIx} {r : CarrierRecord} (hr : s.rec? i = some r)
    (hs : r.status = .loading) (hp : r.removalPending = false) (k : SlotIx) (q : Bool) (p : Recipe) :
    s.loadSucceeded i k q p =
      (s.setRec i (some { shapedByRule k q p r with status := .waitLane })).requestBinding i .new := by
  unfold State.loadSucceeded
  rw [State.loading?_eq_some.2 ⟨hr, hs⟩]
  dsimp only
  rw [if_neg (by simp [hp]), shapeRecord_eq]

/-- A recipe in a VALID slot is taken at once: the record is shaped to it and asks for a lane (R13, R14). -/
theorem State.admitting_takesValid {s : State} {n : Nat} {k : SlotIx} {v : SlotHead} {q : Bool} {p : Recipe} (id : TagId)
    (e : LoadEntry) (i : RecIx) (serial : List Byte) (hk : s.residentSlot n = some k)
    (hs : s.rsc.slots[k] = .valid v q p) :
    let u := (s.admitting i e (newRecord id serial n)).requestLoad i n
    u.ltk.loadEntry = some { e with takenBy := some i } ∧
      (∀ j : SlotIx, u.rsc.slots[j] =
        if j = k then .valid { v with use := v.use + 1, lastUse := s.now } q p else s.rsc.slots[j]) ∧
      Bound s u i (shapedByRule k q p { newRecord id serial n with status := .waitLane }) (planByRule p)
        p.cure.speedClass (8 - s.rsc.live.nearFull) .new := by
  let a := s.admitting i e (newRecord id serial n)
  let t := a.setSlot k (.valid (v.take s.now) q p)
  let r := shapedByRule k q p { newRecord id serial n with status := .waitLane }
  have hrec : t.rec? i = some (newRecord id serial n) := State.setRec_rec_self s i _
  have taken : a.requestLoad i n = (t.setRec i (some { r with status := .waitLane })).requestBinding i .new := by
    rw [State.requestLoad_resident (s := a) hk hs]
    exact State.loadSucceeded_eq hrec rfl rfl k q p
  have kept := State.requestBinding_keeps (t.setRec i (some { r with status := .waitLane })) i .new
  have recipe : (t.setRec i (some { r with status := .waitLane })).recipeOf i = some p := by
    have slot : (t.setRec i (some { r with status := .waitLane })).rsc.slots[k] = .valid (v.take s.now) q p :=
      (a.setSlot_slots k k _).trans (if_pos rfl)
    exact (State.recipeOf_eq (k := k) (State.setRec_rec_self t i _) rfl).trans (congrArg Slot.recipe? slot)
  intro u
  have hu : u = (t.setRec i (some { r with status := .waitLane })).requestBinding i .new := taken
  rw [hu]
  refine ⟨?_, fun j => ?_, ?_⟩
  · rw [State.requestBinding_ltk]
    rfl
  · rw [kept.rsc rfl]
    exact a.setSlot_slots k j _
  · refine State.requestBinding_bound (s := s) (State.setRec_rec_self t i _) recipe (fun w q' => ?_) rfl rfl
      (List.prefix_refl _) (Nat.le_add_right _ _)
    unfold State.planOnActive
    dsimp only
    rw [recipe]
    exact fullPlan_eq p

section
variable {s : State} {id : TagId} {n : Nat} {e : LoadEntry} {i : RecIx} (h : Admits s id n e i) (serial : List Byte)
include h

/-- With no slot to choose the admission fails with NO_SLOT (R37). -/
theorem Admits.noSlot (hn : s.residentSlot n = none) (hl : s.loadingSlot n = none) (hk : s.slotForLoad = none) :
    let u := (s.admitting i e (newRecord id serial n)).requestLoad i n
    u.ltk.table = s.ltk.table ∧ u.ltk.loadEntry = (if s.present .load then some e else none) ∧ u.ctc = s.ctc ∧
      (s.liu.reports.length < 32 →
        u.liu.reports = s.liu.reports ++ [{ time := s.now, body := .admitFailed id .noSlot }]) ∧ u.rsc = s.rsc := by
  intro u
  have hu : u = _ := State.requestLoad_noSlot (s := s.admitting i e (newRecord id serial n)) hn hl hk i
  rw [hu]
  exact State.loadFailed_admitting ((s.lowestFree_iff i).1 h.lowest).1 h.free rfl rfl rfl rfl .noSlot

section
variable {k : SlotIx} (hn : s.residentSlot n = none) (hl : s.loadingSlot n = none) (hk : s.slotForLoad = some k)
  (hw : s.rsc.walk = none) (hlist : s.rsc.loadList = [])
include hn hl hk hw hlist

/-- With no load under way the new one is begun, or fails at once (R33, R38). -/
theorem Admits.starts :
    (s.admitting i e (newRecord id serial n)).requestLoad i n =
      if headerPlaceOk (entryOffset s.rsc.dir n) then
        ((s.admitting i e (newRecord id serial n)).queueLoad k n).beginLoad k
          { recipe := n, use := 1, lastUse := s.now, extents := [] }
      else (((s.admitting i e (newRecord id serial n)).queueLoad k n).failLoad k n .recipeBad).startLoads 8 := by
  let q := (s.admitting i e (newRecord id serial n)).queueLoad k n
  have slot : q.rsc.slots[k] = .loading { recipe := n, use := 1, lastUse := s.now, extents := [] } :=
    ((s.admitting i e (newRecord id serial n)).setSlot_slots k k _).trans (if_pos rfl)
  have list : q.rsc.loadList = [k] := congrArg (· ++ [k]) hlist
  rw [State.requestLoad_queues (s := s.admitting i e (newRecord id serial n)) hn hl hk,
    State.startLoads_head (s := q) hw list slot 8]
  have entry : entryEmpty q.rsc.dir n = false := h.listed
  dsimp only
  rw [entry, Bool.false_or]
  change (if (!headerPlaceOk (entryOffset s.rsc.dir n)) = true then _ else _) = _
  cases headerPlaceOk (entryOffset s.rsc.dir n) with
  | false => rfl
  | true => rfl

theorem Admits.begins (hplace : headerPlaceOk (entryOffset s.rsc.dir n) = true) :
    let u := (s.admitting i e (newRecord id serial n)).requestLoad i n
    (∃ r, u.rec? i = some r ∧ r.status = .loading) ∧ u.rsc.loadList = [k] ∧
      u.rsc.walk = some (ChainWalk.begin n (entryOffset s.rsc.dir n)) ∧
      u.rsc.slots[k] = .loading
        { recipe := n, use := 1, lastUse := s.now, extents := [{ offset := 256 + 4 * (n - 1), length := 4 }] } := by
  intro u
  have hu : u = _ := (h.starts serial hn hl hk hw hlist).trans (if_pos hplace)
  rw [hu]
  refine ⟨⟨_, State.setRec_rec_self s i _, rfl⟩, congrArg (· ++ [k]) hlist, rfl, ?_⟩
  exact (State.setSlot_slots _ k k _).trans (if_pos rfl)

end

/-- The only LOADING record of the recipe is the one admitted. -/
theorem Admits.waiting (hothers : ∀ j r, s.rec? j = some r → r.status = .loading → r.recipe ≠ n) {w : State}
    (hltk : w.ltk = (s.admitting i e (newRecord id serial n)).ltk) : w.loadingRecords n = [i] := by
  have member (j : RecIx) : j ∈ w.loadingRecords n ↔ j = i := by
    have hrec : w.rec? j = if j = i then some (newRecord id serial n) else s.rec? j :=
      (State.rec?_of_ltk hltk j).trans (s.setRec_rec i j _)
    simp only [State.loadingRecords, recIxs, List.mem_filter, List.mem_finRange, true_and]
    refine ⟨fun hj => ?_, fun hj => ?_⟩
    · split at hj
      · rename_i r hr
        obtain ⟨hr, hs⟩ := State.loading?_eq_some.1 hr
        by_contra hne
        rw [hrec, if_neg hne] at hr
        exact hothers j r hr hs (of_decide_eq_true hj)
      · cases hj
    · subst hj
      rw [State.loading?_eq_some.2 ⟨hrec.trans (if_pos rfl), rfl⟩]
      simp [newRecord]
  have nodup : (w.loadingRecords n).Nodup := (List.nodup_finRange 24).filter _
  exact List.perm_singleton.1 ((List.perm_ext_iff_of_nodup nodup (List.nodup_singleton i)).2 (by simp [member]))

/-- A load whose header would lie outside the store fails at once with RECIPE_BAD (R13, R33, R38). -/
theorem Admits.bad {k : SlotIx} (hn : s.residentSlot n = none) (hl : s.loadingSlot n = none) (hk : s.slotForLoad = some k)
    (hw : s.rsc.walk = none) (hlist : s.rsc.loadList = [])
    (hplace : headerPlaceOk (entryOffset s.rsc.dir n) = false)
    (hothers : ∀ j r, s.rec? j = some r → r.status = .loading → r.recipe ≠ n) :
    let u := (s.admitting i e (newRecord id serial n)).requestLoad i n
    (u.ltk.table = s.ltk.table ∧ u.ltk.loadEntry = (if s.present .load then some e else none) ∧ u.ctc = s.ctc ∧
      (s.liu.reports.length < 32 →
        u.liu.reports = s.liu.reports ++ [{ time := s.now, body := .admitFailed id .recipeBad }])) ∧
      u.rsc.loadList = [] ∧ u.rsc.walk = none ∧ u.rsc.slots[k] = .empty := by
  let w := (((s.admitting i e (newRecord id serial n)).queueLoad k n).setSlot k .empty).popLoad
  have list : w.rsc.loadList = [] := congrArg (fun l => (l ++ [k]).tail) hlist
  have waiting : w.loadingRecords n = [i] := h.waiting serial hothers rfl
  have failed : ((s.admitting i e (newRecord id serial n)).queueLoad k n).failLoad k n .recipeBad =
      w.loadFailed i .recipeBad := by
    unfold State.failLoad
    dsimp only
    rw [waiting]
    rfl
  obtain ⟨htable, hentry, hctc, hreports, hrsc⟩ := State.loadFailed_admitting (w := w) (id := id) (n := n)
    (serial := serial) ((s.lowestFree_iff i).1 h.lowest).1 h.free rfl rfl rfl rfl .recipeBad
  have ended := (h.starts serial hn hl hk hw hlist).trans (if_neg (by simp [hplace]))
  rw [failed, State.startLoads_nil (by rw [hrsc]; exact list)] at ended
  intro u
  have hu : u = w.loadFailed i .recipeBad := ended
  rw [hu]
  refine ⟨⟨htable, hentry, hctc, hreports⟩, by rw [hrsc]; exact list, by rw [hrsc]; rfl, ?_⟩
  rw [hrsc]
  exact (State.setSlot_slots _ k k _).trans (if_pos rfl)

end

end Sys2Proof.Machine
end

section
/-! PROOF. ADMIT takes the LOAD entry or refuses (R6, R12, R13, R37, R38). -/

namespace Sys2Proof.Machine

/-! ## ADMIT answered (R12) -/

/-- An admission that waits for a load changes the Line Tracker and the store controller alone. -/
theorem State.admitting_onlyIn {s : State} {i : RecIx} (hi : s.rec? i = none) (e : LoadEntry) (r : CarrierRecord) {x : Rsc}
    (hx : x.hostReq = s.rsc.hostReq) :
    OnlyIn { ltk := true, rsc := true } s { s.admitting i e r with rsc := x } where
  pending := rfl
  store := rfl
  freeCount := rfl
  ltk h := Bool.noConfusion h
  rsc h := Bool.noConfusion h
  req _ := hx
  ine _ := rfl
  scc _ := rfl
  ctc _ := rfl
  hmg _ := rfl
  record _ := rfl
  mode _ := rfl
  estop _ := rfl
  clock _ := rfl
  queue _ := ⟨rfl, rfl, rfl⟩
  link _ := rfl
  pass _ j q hj hp := by
    have hne : j ≠ i := by
      rintro rfl
      exact absurd (hi.symm.trans hj) (by simp)
    exact ⟨q, (s.setRec_rec i j _).trans ((if_neg hne).trans hj), hp⟩

/-- The slot that an admission joins, or begins to load while another load is in progress (R37, R38). -/
theorem State.admitting_waits {s : State} {n : Nat} {k : SlotIx} (id : TagId) (e : LoadEntry) (i : RecIx)
    (serial : List Byte) (hn : s.residentSlot n = none) :
    let u := (s.admitting i e (newRecord id serial n)).requestLoad i n
    (∀ v, s.loadingSlot n = some k → s.rsc.slots[k] = .loading v →
      u = (s.admitting i e (newRecord id serial n)).setSlot k (.loading (v.take s.now))) ∧
    (s.loadingSlot n = none → s.slotForLoad = some k → s.rsc.walk.isSome = true →
      u = (s.admitting i e (newRecord id serial n)).queueLoad k n) := by
  intro u
  refine ⟨fun v hk hs => State.requestLoad_joins (s := s.admitting i e (newRecord id serial n)) hn hk hs i,
    fun hl hk hw => ?_⟩
  refine (State.requestLoad_queues (s := s.admitting i e (newRecord id serial n)) hn hl hk i).trans ?_
  exact State.startLoads_busy (s := (s.admitting i e (newRecord id serial n)).queueLoad k n) hw 9

/-- The age of the last use, said of the slots themselves. -/
theorem oldest_iff (s : State) (k : SlotIx) :
    (∃ a, s.replaceAge k = some a ∧ ∀ j, j ≠ k → ∀ b, s.replaceAge j = some b → b < a ∨ (b = a ∧ k < j)) ↔
      ∃ h q p, s.rsc.slots[k] = .valid h q p ∧ h.use = 0 ∧
        ∀ (j : SlotIx) h' q' p', j ≠ k → s.rsc.slots[j] = .valid h' q' p' → h'.use = 0 →
          (s.now - h'.lastUse).toNat < (s.now - h.lastUse).toNat ∨
            ((s.now - h'.lastUse).toNat = (s.now - h.lastUse).toNat ∧ k < j) := by
  constructor
  · rintro ⟨a, ha, hall⟩
    obtain ⟨h, q, p, hs, hu, rfl⟩ := (s.replaceAge_some k a).1 ha
    exact ⟨h, q, p, hs, hu, fun j h' q' p' hj hs' hu' =>
      hall j hj _ ((s.replaceAge_some j _).2 ⟨h', q', p', hs', hu', rfl⟩)⟩
  · rintro ⟨h, q, p, hs, hu, hall⟩
    refine ⟨_, (s.replaceAge_some k _).2 ⟨h, q, p, hs, hu, rfl⟩, fun j hj b hb => ?_⟩
    obtain ⟨h', q', p', hs', hu', rfl⟩ := (s.replaceAge_some j b).1 hb
    exact hall j h' q' p' hj hs' hu'

/-- Settles O27, clause by clause: ADMIT accepted with its load to come, ADMIT refused, the slots and the record meant, and
a load that needs no wait. -/
theorem admitTakesTheEntryOrRefuses : Obligations.AdmitTakesTheEntryOrRefuses := by
  refine ⟨?accepted, ?refused, ?meant, ?atOnce⟩
  case accepted =>
    intro s tag n id serial e t i k c ht ha hm he hte hid hnew hf hi hb hd hn hk
    have h : Admits s id n.toNat e i := ⟨hm, he, ⟨t, hte, hid⟩, hnew, hf, hi, hb, hd⟩
    have free := ((s.lowestFree_iff i).1 hi).1
    refine ⟨_, State.takeRequest_answered ht ha tag (h.doAdmit serial), ?_⟩
    obtain ⟨joined, queued⟩ := State.admitting_waits (k := k) id e i serial hn
    rcases hk with hk | ⟨hl, hk, hw⟩
    · obtain ⟨v, hs, -⟩ := State.loadingSlot_some hk
      rw [joined v hk hs]
      refine ⟨State.admitting_onlyIn free e _ rfl, ⟨newRecord id serial n.toNat, rfl, rfl, rfl, rfl, rfl, rfl, rfl, rfl, rfl,
        rfl, rfl, rfl, rfl, rfl, rfl, rfl, rfl, rfl, rfl⟩, fun j hj => (State.setSlot_slots _ k j _).trans (if_neg hj), ?_⟩
      rw [hk, hs]
      exact ⟨(State.setSlot_slots _ k k _).trans (if_pos rfl), rfl⟩
    · rw [queued hl hk hw]
      refine ⟨State.admitting_onlyIn free e _ rfl, ⟨newRecord id serial n.toNat, rfl, rfl, rfl, rfl, rfl, rfl, rfl, rfl, rfl,
        rfl, rfl, rfl, rfl, rfl, rfl, rfl, rfl, rfl, rfl⟩, fun j hj => (State.setSlot_slots _ k j _).trans (if_neg hj), ?_⟩
      rw [hl]
      exact ⟨(State.setSlot_slots _ k k _).trans (if_pos rfl), rfl⟩
  case refused =>
    intro s tag n id serial c refused atLoad ht ha
    have answered (st : ReplyStatus) (h : s.doAdmit id n.toNat serial = s.refuse st) : refused st :=
      State.takeRequest_answered ht ha tag h
    refine ⟨fun hm => answered _ (if_pos hm), fun hm h1 h2 => answered _ (State.doAdmit_notFound hm h1 h2 _ _),
      fun hm h => answered _ (State.doAdmit_marked hm h _ _), fun hm h hn => answered _ (State.doAdmit_lineFull hm h hn _ _),
      fun hm h hn => ?_⟩
    obtain ⟨blank, empty⟩ := State.doAdmit_store hm h hn n.toNat serial
    exact ⟨fun hb => answered _ (blank hb), fun hb hd => answered _ (empty hb hd)⟩
  case meant =>
    intro s n i k age
    refine ⟨s.lowestFree_iff i, State.residentSlot_some, s.residentSlot_none n, State.loadingSlot_some,
      s.loadingSlot_none n, (s.slotForLoad_iff k).trans (or_congr Iff.rfl (and_congr Iff.rfl ?_))⟩
    exact oldest_iff s k
  case atOnce =>
    intro s tag n id serial e t i c taken header failed ht ha hm he hte hid hnew hf hi hb hd
    have h : Admits s id n.toNat e i := ⟨hm, he, ⟨t, hte, hid⟩, hnew, hf, hi, hb, hd⟩
    have answered := State.takeRequest_answered ht ha tag (h.doAdmit serial)
    refine ⟨fun k v q p hk hs => ⟨_, answered, State.admitting_takesValid id e i serial hk hs⟩, fun hn hl => ⟨fun hk => ?_,
      fun k hk hw hlist => ⟨fun hlow hhigh => ⟨_, answered, h.begins serial hn hl hk hw hlist ?_⟩, fun hplace hothers => ?_⟩⟩⟩
    · obtain ⟨htable, hentry, hctc, hreports, hrsc⟩ := h.noSlot serial hn hl hk
      exact ⟨_, answered, ⟨htable, hentry, hctc, hreports⟩, hrsc⟩
    · simp [headerPlaceOk, Config.storeBytes]
      omega
    · refine ⟨_, answered, h.bad serial hn hl hk hw hlist ?_ hothers⟩
      simp [headerPlaceOk, Config.storeBytes]
      omega

end Sys2Proof.Machine
end

section
/-! SUPPORT. What touches one record alone, reasons raised, and a diversion to the bench (R19, R20, R142, R147). -/

namespace Sys2Proof.Machine

/-! ## What touches one record alone -/

/-- From `s` to `t` no other record changes than one, nor the tunnel, the Hold Manager and the line time. -/
structure OnlyRec (i : RecIx) (s t : State) : Prop where
  others : ∀ j, j ≠ i → t.rec? j = s.rec? j
  ctc : t.ctc = s.ctc
  hmg : t.hmg = s.hmg
  now : t.now = s.now

theorem OnlyRec.refl (i : RecIx) (s : State) : OnlyRec i s s := ⟨fun _ _ => rfl, rfl, rfl, rfl⟩

theorem OnlyRec.trans {i : RecIx} {s t u : State} (h : OnlyRec i s t) (k : OnlyRec i t u) : OnlyRec i s u where
  others j hj := (k.others j hj).trans (h.others j hj)
  ctc := k.ctc.trans h.ctc
  hmg := k.hmg.trans h.hmg
  now := k.now.trans h.now

/-- An operation that changes none of these. -/
theorem Keeps.onlyRec {b : Blocks} {s t : State} (h : Keeps b s t) (i : RecIx) (hl : b.ltk = false) (hc : b.ctc = false)
    (hh : b.hmg = false) (hk : b.clock = false) : OnlyRec i s t :=
  ⟨fun j _ => State.rec?_of_ltk (h.ltk hl) j, h.ctc hc, h.hmg hh, h.clock hk⟩

theorem State.setRec_onlyRec (s : State) (i : RecIx) (r : Option CarrierRecord) : OnlyRec i s (s.setRec i r) where
  others j hj := (s.setRec_rec i j r).trans (if_neg hj)
  ctc := rfl
  hmg := rfl
  now := rfl

theorem State.queueReport_onlyRec (s : State) (b : ReportBody) (i : RecIx) : OnlyRec i s (s.queueReport b) :=
  (s.queueReport_keeps b).onlyRec i rfl rfl rfl rfl

theorem State.modHead_onlyRec (s : State) (h : HeadId) (f : Head → Head) (i : RecIx) : OnlyRec i s (s.modHead h f) :=
  (s.modHead_keeps h f).onlyRec i rfl rfl rfl rfl

theorem State.raiseIf_onlyRec (s : State) (c : Bool) (i : RecIx) (code : ReasonCode) :
    OnlyRec i s (s.raiseIf c i code) := by
  unfold State.raiseIf State.raiseCode State.raiseReason
  split
  · split
    · exact OnlyRec.refl i s
    · split
      · exact (s.setRec_onlyRec i _).trans (State.queueReport_onlyRec _ _ i)
      · exact (s.setRec_onlyRec i _).trans (State.queueReport_onlyRec _ _ i)
  · exact OnlyRec.refl i s

/-! ## Reasons raised against a live record (R142) -/

/-- The hold part that raises leave, said of the one before. -/
structure Raised (b : Bool) (code : ReasonCode) (old new : Option Hold) : Prop where
  stands : old.isSome = true ∨ b = true → new.isSome = true
  length : (holdCodes new).length ≤ max ((holdCodes old).length + 1) 2
  kept : ∀ x ∈ holdCodes old, x ∈ holdCodes new
  listed : b = true → (holdCodes old).length < 8 → code ∈ holdCodes new

theorem isSome_of_mem_holdCodes {h : Option Hold} {code : ReasonCode} (hc : code ∈ holdCodes h) : h.isSome = true := by
  obtain ⟨g, rfl, -⟩ := mem_holdCodes.1 hc
  rfl

theorem State.raiseIf_raised {s : State} {i : RecIx} {r : CarrierRecord} (hr : s.rec? i = some r)
    (hl : r.status.isLive = true) (b : Bool) (code : ReasonCode) :
    ∃ h, (s.raiseIf b i code).rec? i = some { r with hold := h } ∧ Raised b code r.hold h := by
  cases b with
  | false => exact ⟨r.hold, hr, fun h => h.resolve_right (by simp), by omega, fun _ h => h, nofun⟩
  | true =>
    obtain ⟨h, hrec, -, -, -, hlen, hkept, hlisted⟩ := s.raiseCode_spec i code r hr hl
    refine ⟨h, hrec, fun _ => ?_, hlen, hkept, fun _ => hlisted⟩
    rcases Nat.lt_or_ge (holdCodes r.hold).length 8 with room | full
    · exact isSome_of_mem_holdCodes (hlisted room)
    · obtain ⟨x, hx⟩ := List.exists_mem_of_length_pos (Nat.lt_of_lt_of_le (by decide) full)
      exact isSome_of_mem_holdCodes (hkept x hx)

/-- Three reasons raised in turn, with room for the third among the eight. -/
theorem State.raiseThree {s : State} {i : RecIx} {r : CarrierRecord} (hr : s.rec? i = some r)
    (hl : r.status.isLive = true) (b₁ b₂ b₃ : Bool) (c₁ c₂ c₃ : ReasonCode) :
    let t := ((s.raiseIf b₁ i c₁).raiseIf b₂ i c₂).raiseIf b₃ i c₃
    OnlyRec i s t ∧ ∃ h, t.rec? i = some { r with hold := h } ∧
      (r.hold.isSome = true ∨ b₁ = true ∨ b₂ = true ∨ b₃ = true → h.isSome = true) ∧
      (b₁ = true → (holdCodes r.hold).length < 8 → c₁ ∈ holdCodes h) ∧
      (b₃ = true → (holdCodes r.hold).length ≤ 5 → c₃ ∈ holdCodes h) := by
  obtain ⟨h₁, hr₁, ra⟩ := State.raiseIf_raised hr hl b₁ c₁
  obtain ⟨h₂, hr₂, rb⟩ := State.raiseIf_raised hr₁ hl b₂ c₂
  obtain ⟨h₃, hr₃, rc⟩ := State.raiseIf_raised hr₂ hl b₃ c₃
  refine ⟨((s.raiseIf_onlyRec b₁ i c₁).trans (State.raiseIf_onlyRec _ b₂ i c₂)).trans (State.raiseIf_onlyRec _ b₃ i c₃),
    h₃, hr₃, ?_, fun hb hlen => rc.kept _ (rb.kept _ (ra.listed hb hlen)), fun hb hlen => rc.listed hb ?_⟩
  · rintro (h | h | h | h)
    · exact rc.stands (.inl (rb.stands (.inl (ra.stands (.inl h)))))
    · exact rc.stands (.inl (rb.stands (.inl (ra.stands (.inr h)))))
    · exact rc.stands (.inl (rb.stands (.inr h)))
    · exact rc.stands (.inr h)
  · have h1 := ra.length
    have h2 := rb.length
    dsimp only at h2 ⊢
    omega

/-! ## A diversion to the bench (R19, R20, R147) -/

theorem Hold.listsKeepout_iff (h : Hold) : h.listsKeepout = true ↔ ∃ x ∈ h.reasons, x.code = .keepout := by
  simp [Hold.listsKeepout]

theorem State.goesAhead_iff (s : State) (mine other : Hold) : s.goesAhead mine other = true ↔ AheadByRule s mine other := by
  have same : (mine.listsKeepout == other.listsKeepout) = true ↔
      (mine.listsKeepout = true ↔ other.listsKeepout = true) := by
    rw [beq_iff_eq, Bool.eq_iff_iff]
  have fewer : (!other.listsKeepout) = true ↔ ¬ other.listsKeepout = true := by simp
  unfold State.goesAhead AheadByRule State.since
  rw [Bool.or_eq_true, Bool.and_eq_true, Bool.and_eq_true, same, fewer, decide_eq_true_eq, Hold.listsKeepout_iff,
    Hold.listsKeepout_iff]

/-- The Bench Queue takes a hold ahead of the first entry that it goes ahead of (R147). -/
theorem State.queueInsert_placed (s : State) (i : RecIx) (mine : Hold) (js : List RecIx) :
    ∃ pre post, js = pre ++ post ∧ s.queueInsert i mine js = pre ++ i :: post ∧
      (∀ j ∈ pre, ∀ o, s.holdOf j = some o → ¬ AheadByRule s mine o) ∧
      ∀ j, post.head? = some j → ∃ o, s.holdOf j = some o ∧ AheadByRule s mine o := by
  induction js with
  | nil => exact ⟨[], [], rfl, rfl, by simp, by simp⟩
  | cons j js ih =>
    obtain ⟨pre, post, hjs, hins, hpre, hpost⟩ := ih
    have behind (h : ∀ o, s.holdOf j = some o → ¬ AheadByRule s mine o)
        (e : s.queueInsert i mine (j :: js) = j :: s.queueInsert i mine js) :
        ∃ pre post, j :: js = pre ++ post ∧ s.queueInsert i mine (j :: js) = pre ++ i :: post ∧
          (∀ j ∈ pre, ∀ o, s.holdOf j = some o → ¬ AheadByRule s mine o) ∧
          ∀ j, post.head? = some j → ∃ o, s.holdOf j = some o ∧ AheadByRule s mine o := by
      refine ⟨j :: pre, post, by rw [hjs]; rfl, by rw [e, hins]; rfl, fun x hx => ?_, hpost⟩
      rcases List.mem_cons.1 hx with rfl | hx
      · exact h
      · exact hpre x hx
    rcases ho : s.holdOf j with _ | o
    · exact behind (by simp [ho]) (by rw [State.queueInsert, ho])
    · by_cases ha : s.goesAhead mine o = true
      · refine ⟨[], j :: js, rfl, ?_, by simp, fun x hx => ?_⟩
        · rw [State.queueInsert, ho]
          exact if_pos ha
        · cases hx
          exact ⟨o, ho, (s.goesAhead_iff mine o).1 ha⟩
      · refine behind (fun o' ho' => ?_) ?_
        · cases ho.symm.trans ho'
          rwa [← State.goesAhead_iff]
        · rw [State.queueInsert, ho]
          exact if_neg ha

theorem State.holdOf_eq_some {s : State} {i : RecIx} {h : Hold} :
    s.holdOf i = some h ↔ ∃ r, s.rec? i = some r ∧ r.hold = some h := by
  unfold State.holdOf
  rcases s.rec? i with _ | r <;> simp

/-! ## Hold parts through an unbinding -/

theorem State.holdOf_of_rec {s t : State} {j : RecIx} (h : t.rec? j = s.rec? j) : t.holdOf j = s.holdOf j := by
  unfold State.holdOf
  rw [h]

theorem State.setRec_holdOf {s : State} {i : RecIx} {r r' : CarrierRecord} (hr : s.rec? i = some r)
    (h : r'.hold = r.hold) (j : RecIx) : (s.setRec i (some r')).holdOf j = s.holdOf j := by
  unfold State.holdOf
  rw [State.setRec_rec]
  by_cases e : j = i
  · subst e
    rw [if_pos rfl, hr]
    exact h
  · rw [if_neg e]

theorem State.modRec_holdOf (s : State) (i : RecIx) (f : CarrierRecord → CarrierRecord) (hf : ∀ r, (f r).hold = r.hold)
    (j : RecIx) : (s.modRec i f).holdOf j = s.holdOf j := by
  unfold State.modRec
  split
  · exact State.setRec_holdOf ‹_› (hf _) j
  · rfl

theorem State.bindTo_holdOf (s : State) (w : WaitingBinding) (l : LaneId) (j : RecIx) :
    (s.bindTo w l).holdOf j = s.holdOf j := by
  unfold State.bindTo
  split
  · rfl
  · rename_i r hr
    let t := (s.setLane l { s.lane l with bound := (s.lane l).bound + 1 }).setClass l (some w.cls) .bound
    have same (k : RecIx) : t.rec? k = s.rec? k := State.rec?_of_ltk (by simp [t]) k
    dsimp only
    rw [State.holdOf_of_rec (State.queueReport_rec? _ _ j)]
    have set := State.setRec_holdOf (s := t) (r' := { r with
      lane := some l, posInLane := none, status := .active, plan := s.planOnActive w r })
      ((same w.ix).trans (State.live?_some hr).1) rfl j
    exact set.trans (State.holdOf_of_rec (same j))

theorem State.unbind_holdOf {s : State} {i : RecIx} {r : CarrierRecord} (hr : s.rec? i = some r) (cause : LaneCause)
    (j : RecIx) : (s.unbind i cause).holdOf j = s.holdOf j := by
  have retried (t : State) : t.retryBinding.holdOf j = t.holdOf j := by
    unfold State.retryBinding State.tryBind
    split
    · split
      · exact State.bindTo_holdOf _ _ _ j
      · rfl
    · rfl
  have derived (t : State) (l : LaneId) : (t.deriveLane l cause).holdOf j = t.holdOf j :=
    State.holdOf_of_rec (State.rec?_of_ltk (by simp) j)
  have classed (t : State) (l : LaneId) : (t.setClass l none cause).holdOf j = t.holdOf j :=
    State.holdOf_of_rec (State.rec?_of_ltk (by simp) j)
  have off (l : LaneId) : (s.offOrder i l).holdOf j = s.holdOf j := by
    have kept := State.modRec_holdOf (s.setLane l ((s.lane l).without i)) i
      (fun r => { r with lane := none, posInLane := none }) (fun _ => rfl) j
    exact kept.trans <| State.holdOf_of_rec (State.rec?_of_ltk (by simp) j)
  rcases hl : r.lane with _ | l
  · rw [State.unbind_of_none hr hl]
  · have named : s.unbind i cause = ((if ((s.offOrder i l).lane l).bound = 0 then
        (s.offOrder i l).setClass l none cause else s.offOrder i l).deriveLane l cause).retryBinding :=
      State.unbind_eq hr hl cause
    rw [named, retried, derived]
    split
    · rw [classed, off]
    · rw [off]

theorem aheadByRule_of_now {s t : State} (h : t.now = s.now) (mine other : Hold) :
    AheadByRule t mine other ↔ AheadByRule s mine other := by
  unfold AheadByRule
  rw [h]

/-- A live record with a hold part is diverted as R19, R20 and R147 say, of the state `s` before the event, which differs
in that record alone. -/
theorem State.divert_follows {s t : State} {i : RecIx} {r : CarrierRecord} {q : Hold} (only : OnlyRec i s t)
    (hr : t.rec? i = some r) (hh : r.hold = some q) (hw : ∀ b, s.ctc.waiting = some b → b.ix ≠ i) (stage : Stage) :
    let r' : CarrierRecord := { (({ r with plan := [] } : CarrierRecord).offLane) with hold := some { q with stage := stage } }
    (t.divert i stage).rec? i = some r' ∧ DivertedByRule s (t.divert i stage) i stage := by
  let r₁ : CarrierRecord := ({ r with plan := [] } : CarrierRecord).offLane
  let q' : Hold := { q with stage := stage }
  let a := t.setRec i (some { r with plan := [] })
  let b := a.unbind i .unbound
  have hb : b.rec? i = some r₁ :=
    State.unbind_rec (State.setRec_rec_self t i _) (fun w hw' => hw w (by rw [← only.ctc]; exact hw')) .unbound
  have hhold : r₁.hold = some q := by
    simp only [r₁, CarrierRecord.offLane]
    split <;> exact hh
  have kept := a.unbind_keeps i .unbound
  let c := b.setRec i (some { r₁ with hold := some q' })
  have held : b.modHold i (fun h => { h with stage := stage }) = c := by
    rw [State.modHold, State.modRec_eq hb, hhold]
    rfl
  have hc : c.rec? i = some { r₁ with hold := some q' } := State.setRec_rec_self b i _
  have entered : t.divert i stage = c.setQueue (c.queueInsert i q' (s.hmg.queue.filter fun j => decide (j ≠ i))) := by
    have queue : c.hmg.queue = s.hmg.queue := congrArg Hmg.queue ((kept.hmg rfl).trans only.hmg)
    unfold State.divert State.enterQueue
    rw [State.modRec_eq hr]
    dsimp only
    rw [held, State.holdOf_eq_some.2 ⟨_, hc, rfl⟩, queue]
  have holds (j : RecIx) (hj : j ≠ i) : c.holdOf j = s.holdOf j := by
    rw [State.holdOf_of_rec ((b.setRec_rec i j _).trans (if_neg hj)),
      State.unbind_holdOf (State.setRec_rec_self t i _) .unbound j,
      State.holdOf_of_rec ((t.setRec_rec i j _).trans (if_neg hj)), State.holdOf_of_rec (only.others j hj)]
  have now : c.now = s.now := (kept.clock rfl).trans only.now
  obtain ⟨pre, post, hsplit, hins, hpre, hpost⟩ := c.queueInsert_placed i q' (s.hmg.queue.filter fun j => decide (j ≠ i))
  have ne (j : RecIx) (hj : j ∈ pre ++ post) : j ≠ i := by
    rw [← hsplit] at hj
    simpa using (List.mem_filter.1 hj).2
  have off : r₁.lane = none ∧ r₁.plan = [] := by
    simp only [r₁, CarrierRecord.offLane]
    split
    · exact ⟨rfl, rfl⟩
    · exact ⟨‹_›, rfl⟩
  rw [entered]
  refine ⟨hc, _, q', hc, rfl, off.2, off.1, rfl, pre, post, hsplit, hins, fun j hj x o hx ho => ?_, fun j hj => ?_⟩
  · have := hpre j hj o ((holds j (ne j (List.mem_append_left _ hj))).trans (State.holdOf_eq_some.2 ⟨x, hx, ho⟩))
    rwa [aheadByRule_of_now now] at this
  · obtain ⟨o, ho, ha⟩ := hpost j hj
    rw [holds j (ne j (List.mem_append_right _ (List.mem_of_head? hj)))] at ho
    obtain ⟨x, hx, hxo⟩ := State.holdOf_eq_some.1 ho
    exact ⟨x, o, hx, hxo, (aheadByRule_of_now now _ _).1 ha⟩

/-- A diversion stands while the records and the Hold Manager do. -/
theorem DivertedByRule.congr {s u v : State} {i : RecIx} {stage : Stage} (h : DivertedByRule s u i stage)
    (hl : v.ltk = u.ltk) (hh : v.hmg = u.hmg) : DivertedByRule s v i stage := by
  obtain ⟨r, q, hr, hq, hplan, hlane, hstage, pre, post, hsplit, hins, hpre, hpost⟩ := h
  exact ⟨r, q, (State.rec?_of_ltk hl i).trans hr, hq, hplan, hlane, hstage, pre, post, hsplit, by rw [hh]; exact hins,
    hpre, hpost⟩

end Sys2Proof.Machine
end

section
/-! SUPPORT. The end of a walk (R19, R20, R58, R59). -/

namespace Sys2Proof.Machine

/-! ## The end of a walk (R58, R59) -/

theorem maskVerdictOf_ok {vs : List PointVerdict} : maskVerdictOf vs = .ok ↔ ∀ y ∈ vs, y = .present := by
  simp [maskVerdictOf]

theorem maskVerdictOf_fail {vs : List PointVerdict} (h : maskVerdictOf vs ≠ .ok) : maskVerdictOf vs = .fail := by
  unfold maskVerdictOf at h ⊢
  split
  · rename_i hall
    rw [if_pos hall] at h
    exact absurd rfl h
  · rfl

theorem anyVerdict_iff {v : PointVerdict} {vs : List PointVerdict} : anyVerdict v vs = true ↔ v ∈ vs := by
  simp [anyVerdict]

/-- What a head that gives its result holds (R58 step 6, R59 step 4). -/
theorem State.giveResult_given (s : State) (h : HeadId) (i : RecIx) (pass : Nat) :
    ResultGiven (s.modHead h fun v => v.giveResult i pass) h i pass := by
  simp [ResultGiven, State.modHead, Head.giveResult, Head.emptied]

/-- The decision after MASK (R19). -/
theorem State.decideMask_eq {s : State} {i : RecIx} {r : CarrierRecord} (hr : s.rec? i = some r)
    (hl : r.status.isLive = true) : s.decideMask i = if r.hold.isSome then s.divert i .mask else s := by
  unfold State.decideMask
  rw [State.live?_eq_some.2 ⟨hr, hl⟩]

/-- The decision after INSPECT (R20). -/
theorem State.decideInspect_diverts {s : State} {i : RecIx} {r : CarrierRecord} {q : Hold} (hr : s.rec? i = some r)
    (hl : r.status.isLive = true) (hh : r.hold = some q) (hk : q.listsKeepout = true) :
    s.decideInspect i = s.divert i .inspect := by
  unfold State.decideInspect
  rw [State.live?_eq_some.2 ⟨hr, hl⟩]
  dsimp only
  rw [hh]
  exact if_pos hk

section
variable {s t : State} {w : WalkTable} {r : CarrierRecord} (only : OnlyRec w.ix s t) (hr : t.rec? w.ix = some r)
  (hl : r.status.isLive = true) (hw : ∀ b, s.ctc.waiting = some b → b.ix ≠ w.ix)
include only hr hl hw

/-- A mask walk that ends with a point absent, misplaced or without a result: the mask verdict FAIL, the reasons raised,
the record diverted (R19, R58). -/
theorem State.endMask_fails
    (hbad : .absent ∈ verdictsOf .mask w ∨ .misplaced ∈ verdictsOf .mask w ∨ .noResult ∈ verdictsOf .mask w) :
    let u := t.endMask w
    ResultGiven u .mask w.ix w.pass ∧ DivertedByRule s u w.ix .mask ∧
      ∃ r' q, u.rec? w.ix = some r' ∧ r'.maskVerdict = .fail ∧ r'.plan = [] ∧ r'.hold = some q ∧
        (.noResult ∈ verdictsOf .mask w → (holdCodes r.hold).length ≤ 5 → ∃ z ∈ q.reasons, z.code = .maskNoResult) := by
  let vs := verdictsOf .mask w
  have fail : maskVerdictOf vs = .fail := by
    refine maskVerdictOf_fail fun h => ?_
    have all := maskVerdictOf_ok.1 h
    rcases hbad with hb | hb | hb
    · exact absurd (all _ hb) (by simp)
    · exact absurd (all _ hb) (by simp)
    · exact absurd (all _ hb) (by simp)
  obtain ⟨raised, h, hrec, hstands, -, hlisted⟩ := State.raiseThree hr hl (anyVerdict .absent vs) (anyVerdict .misplaced vs)
    (anyVerdict .noResult vs) .maskAbsent .maskMisplaced .maskNoResult
  let a := t.raiseMask w.ix vs
  let b := a.setRec w.ix (some { r with hold := h, maskPoints := vs, maskVerdict := maskVerdictOf vs })
  have hb : b.rec? w.ix = some { r with hold := h, maskPoints := vs, maskVerdict := maskVerdictOf vs } :=
    State.setRec_rec_self a w.ix _
  have judged : a.modLive w.ix (fun r => { r with maskPoints := vs, maskVerdict := maskVerdictOf vs }) = b :=
    State.modLive_eq hrec hl _
  obtain ⟨q, hq⟩ : ∃ q, h = some q := Option.isSome_iff_exists.1 (hstands (.inr (by simpa only [anyVerdict_iff] using hbad)))
  have ended : t.endMask w = ((b.divert w.ix .mask).queueReport (.stationResult (t.stationResult .mask w))).modHead .mask
      fun v => v.giveResult w.ix w.pass := by
    unfold State.endMask
    dsimp only
    rw [if_pos fail]
    change ((State.decideMask (a.modLive w.ix _) w.ix).queueReport _).modHead .mask _ = _
    rw [judged, State.decideMask_eq hb hl, if_pos (by rw [hq]; rfl)]
  have base : OnlyRec w.ix s b := (only.trans raised).trans (a.setRec_onlyRec w.ix _)
  obtain ⟨hdrec, hdiv⟩ := State.divert_follows base hb hq hw .mask
  intro u
  have hu : u = _ := ended
  have hltk : u.ltk = (b.divert w.ix .mask).ltk := by rw [hu]; simp
  have hhmg : u.hmg = (b.divert w.ix .mask).hmg := by
    rw [hu]
    exact ((State.modHead_onlyRec _ _ _ w.ix).hmg).trans (State.queueReport_onlyRec _ _ w.ix).hmg
  refine ⟨by rw [hu]; exact State.giveResult_given _ _ _ _, hdiv.congr hltk hhmg, _, _,
    (State.rec?_of_ltk hltk w.ix).trans hdrec, ?_, ?_, rfl, fun hn hlen => ?_⟩
  · unfold CarrierRecord.offLane
    split <;> exact fail
  · unfold CarrierRecord.offLane
    split <;> rfl
  · obtain ⟨g, hg, z, hz, hc⟩ := mem_holdCodes.1 (hlisted (anyVerdict_iff.2 hn) hlen)
    cases hq.symm.trans hg
    exact ⟨z, hz, hc⟩

/-- A mask walk that ends with every point present: the mask verdict OK, and a diversion only with a hold part (R19,
R58). -/
theorem State.endMask_passes (hall : ∀ y ∈ verdictsOf .mask w, y = .present) :
    let u := t.endMask w
    ResultGiven u .mask w.ix w.pass ∧ ∃ r', u.rec? w.ix = some r' ∧ r'.maskVerdict = .ok ∧
      (∀ y ∈ r'.maskPoints, y = .present) ∧
      (r.hold = none → r'.hold = none ∧ r'.plan = r.plan ∧ r'.lane = r.lane ∧ u.hmg = s.hmg ∧ u.ctc = s.ctc) ∧
      (r.hold.isSome = true → DivertedByRule s u w.ix .mask) := by
  let vs := verdictsOf .mask w
  have ok : maskVerdictOf vs = .ok := maskVerdictOf_ok.2 hall
  let r₁ : CarrierRecord := { r with maskPoints := vs, maskVerdict := maskVerdictOf vs }
  let b := t.setRec w.ix (some r₁)
  have hb : b.rec? w.ix = some r₁ := State.setRec_rec_self t w.ix _
  have base : OnlyRec w.ix s b := only.trans (t.setRec_onlyRec w.ix _)
  have ended (c : State) (hc : b.decideMask w.ix = c) :
      t.endMask w = (c.queueReport (.stationResult (t.stationResult .mask w))).modHead .mask
        fun v => v.giveResult w.ix w.pass := by
    unfold State.endMask
    dsimp only
    rw [if_neg (show ¬ maskVerdictOf vs = .fail by rw [ok]; simp), State.modLive_eq hr hl]
    rw [show (t.setRec w.ix (some r₁)).decideMask w.ix = c from hc]
  have after (c : State) : OnlyRec w.ix c ((c.queueReport (.stationResult (t.stationResult .mask w))).modHead .mask
      fun v => v.giveResult w.ix w.pass) :=
    (c.queueReport_onlyRec _ w.ix).trans (State.modHead_onlyRec _ _ _ w.ix)
  have ltk (c : State) : ((c.queueReport (.stationResult (t.stationResult .mask w))).modHead .mask
      fun v => v.giveResult w.ix w.pass).ltk = c.ltk := by simp
  rcases hh : r.hold with _ | q
  · have e := ended b ((State.decideMask_eq hb hl).trans (if_neg (by simp [r₁, hh])))
    dsimp only
    rw [e]
    refine ⟨State.giveResult_given _ _ _ _, r₁, (State.rec?_of_ltk (ltk b) w.ix).trans hb, ok, hall,
      fun _ => ⟨hh, rfl, rfl, (after b).hmg.trans base.hmg, (after b).ctc.trans base.ctc⟩, fun h => absurd h (by simp)⟩
  · have e := ended _ ((State.decideMask_eq hb hl).trans (if_pos (by simp [r₁, hh])))
    obtain ⟨hdrec, hdiv⟩ := State.divert_follows base hb hh hw .mask
    dsimp only
    rw [e]
    refine ⟨State.giveResult_given _ _ _ _, _, (State.rec?_of_ltk (ltk _) w.ix).trans hdrec, ?_, ?_,
      fun h => absurd h (by simp), fun _ => hdiv.congr (ltk _) (after _).hmg⟩
    · unfold CarrierRecord.offLane
      split <;> exact ok
    · unfold CarrierRecord.offLane
      split <;> exact hall

/-- An INSPECT walk that ends with a point contaminated: KEEPOUT raised, the record diverted (R20, R59). -/
theorem State.endInspect_diverts (hbad : .contaminated ∈ verdictsOf .keepout w) (hroom : (holdCodes r.hold).length < 8) :
    let u := t.endInspect w
    ResultGiven u .inspect w.ix w.pass ∧ DivertedByRule s u w.ix .inspect ∧
      ∃ r' q, u.rec? w.ix = some r' ∧ r'.hold = some q ∧ ∃ z ∈ q.reasons, z.code = .keepout := by
  let ks := verdictsOf .keepout w
  let cs := verdictsOf .coverage w
  obtain ⟨raised, h, hrec, -, hlisted, -⟩ := State.raiseThree hr hl (anyVerdict .contaminated ks) (anyVerdict .void cs)
    (anyVerdict .noResult ks || anyVerdict .noResult cs) .keepout .void .inspectNoResult
  obtain ⟨q, hq, z, hz, hcode⟩ := mem_holdCodes.1 (hlisted (anyVerdict_iff.2 hbad) hroom)
  let a := t.raiseInspect w.ix ks cs
  let b := (a.setRec w.ix (some { r with hold := h, keepoutPoints := ks, coveragePoints := cs })).queueReport
    (.stationResult (t.stationResult .inspect w))
  have hb : b.rec? w.ix = some { r with hold := h, keepoutPoints := ks, coveragePoints := cs } :=
    (State.queueReport_rec? _ _ _).trans (State.setRec_rec_self a w.ix _)
  have base : OnlyRec w.ix s b :=
    ((only.trans raised).trans (a.setRec_onlyRec w.ix _)).trans (State.queueReport_onlyRec _ _ w.ix)
  have ended : t.endInspect w = (b.divert w.ix .inspect).modHead .inspect fun v => v.giveResult w.ix w.pass := by
    unfold State.endInspect
    dsimp only
    change (State.decideInspect ((a.modLive w.ix _).queueReport _) w.ix).modHead .inspect _ = _
    rw [State.modLive_eq (s := a) hrec hl]
    change (b.decideInspect w.ix).modHead .inspect _ = _
    rw [State.decideInspect_diverts hb hl hq (q.listsKeepout_iff.2 ⟨z, hz, hcode⟩)]
  obtain ⟨hdrec, hdiv⟩ := State.divert_follows base hb hq hw .inspect
  intro u
  have hu : u = _ := ended
  have hltk : u.ltk = (b.divert w.ix .inspect).ltk := by rw [hu]; simp
  have hhmg : u.hmg = (b.divert w.ix .inspect).hmg := by rw [hu]; exact (State.modHead_onlyRec _ _ _ w.ix).hmg
  exact ⟨by rw [hu]; exact State.giveResult_given _ _ _ _, hdiv.congr hltk hhmg, _, _,
    (State.rec?_of_ltk hltk w.ix).trans hdrec, rfl, z, hz, hcode⟩

end

end Sys2Proof.Machine
end

section
/-! SUPPORT. Points and groups judged (R53, R55, R56). -/

namespace Sys2Proof.Machine

/-! ## Walk points and heads that change -/

theorem WalkTable.modPoint_points (w : WalkTable) (k : Nat) (f : WalkPoint → WalkPoint) (j : Nat) :
    (w.modPoint k f).points[j]? = if j = k then (w.points[k]?).map f else w.points[j]? := by
  rw [WalkTable.modPoint, List.getElem?_modify]
  by_cases e : j = k
  · subst e
    simp
  · rw [if_neg e]
    simp [Ne.symm e]

theorem WalkTable.modPoint_length (w : WalkTable) (k : Nat) (f : WalkPoint → WalkPoint) :
    (w.modPoint k f).points.length = w.points.length := by simp [WalkTable.modPoint]

/-- A walk with one point judged. -/
def WalkTable.judged (w : WalkTable) (k : Nat) (v : PointVerdict) : WalkTable :=
  w.modPoint k fun e => { e with state := .judged, verdict := some v }

@[simp] theorem State.setHead_setHead (s : State) (h : HeadId) (a b : Head) : (s.setHead h a).setHead h b = s.setHead h b := by
  cases h <;> rfl

@[simp] theorem State.modHead_head (s : State) (h : HeadId) (f : Head → Head) : (s.modHead h f).head h = f (s.head h) := by
  simp [State.modHead]

theorem State.judgePoint_head {s : State} {h : HeadId} {w : WalkTable} (hw : (s.head h).walk = some w) (k : Nat)
    (v : PointVerdict) : (s.judgePoint h k v).head h = { s.head h with walk := some (w.judged k v) } := by
  rw [State.judgePoint, State.modHead_head, Head.modWalk, hw]
  rfl

@[simp] theorem State.noteFault_head (s : State) (code : FaultCode) (o : Origin) (d : FaultDetail) (h : HeadId) :
    (s.noteFault code o d).head h = s.head h :=
  State.head_of_ine ((s.noteFault_keeps code o d).ine rfl) h

theorem State.queueReport_withIne (s : State) (v : Ine) (b : ReportBody) :
    ({ s with ine := v } : State).queueReport b = { s.queueReport b with ine := v } := by
  unfold State.queueReport
  split
  · rfl
  · split <;> rfl

/-- A fault is noted alike, whatever the heads hold. -/
theorem State.noteFault_setHead (s : State) (h : HeadId) (v : Head) (code : FaultCode) (o : Origin) (d : FaultDetail) :
    (s.setHead h v).noteFault code o d = (s.noteFault code o d).setHead h v := by
  have noted (x : Ine) : ({ s with ine := x } : State).noteFault code o d = { s.noteFault code o d with ine := x } :=
    State.queueReport_withIne (s.setRecord (s.lmf.record.note (s.faultEntry code o d))) x _
  have ine : (s.noteFault code o d).ine = s.ine := (s.noteFault_keeps code o d).ine rfl
  cases h with
  | mask => exact (noted _).trans (by simp only [State.setHead, ine])
  | inspect => exact (noted _).trans (by simp only [State.setHead, ine])

theorem satInc_eq (n : Nat) : satInc 255 n = min (n + 1) 255 := by
  simp [satInc, satAdd]

/-! ## A FIRST_FAIL point settled (R55, R56) -/

theorem mem_verdictsOf {l : PointList} {w : WalkTable} {v : PointVerdict} :
    v ∈ verdictsOf l w ↔
      ∃ (j : Nat) (e : WalkPoint), w.points[j]? = some e ∧ e.list = l ∧ e.verdict.getD .notChecked = v := by
  simp only [verdictsOf, List.mem_map, List.mem_filter, decide_eq_true_eq]
  constructor
  · rintro ⟨e, ⟨he, hl⟩, hv⟩
    obtain ⟨j, hj⟩ := List.mem_iff_getElem?.1 he
    exact ⟨j, e, hj, hl, hv⟩
  · rintro ⟨j, e, hj, hl, hv⟩
    exact ⟨e, ⟨List.mem_iff_getElem?.2 ⟨j, hj⟩, hl⟩, hv⟩

/-- The verdict of a point judged is among those of its list. -/
theorem WalkTable.judged_verdict {w : WalkTable} {k : Nat} {e : WalkPoint} (he : w.points[k]? = some e)
    (v : PointVerdict) : v ∈ verdictsOf e.list (w.judged k v) := by
  refine mem_verdictsOf.2 ⟨k, { e with state := .judged, verdict := some v }, ?_, rfl, rfl⟩
  rw [WalkTable.judged, WalkTable.modPoint_points, if_pos rfl, he]
  rfl

/-- A verdict that does not pass ends the walk (R55). -/
theorem State.settlePoint_fails {s : State} {h : HeadId} {w : WalkTable} (hw : (s.head h).walk = some w) (k : Nat)
    {v : PointVerdict} (hv : v.passes = false) :
    s.settlePoint h k v = (s.judgePoint h k v).endWalk h (w.judged k v) := by
  unfold State.settlePoint
  dsimp only
  rw [if_neg (by simp [hv]), State.judgePoint_head hw]

/-- A group whose points are all judged, with none left to command. -/
structure WalkTable.AllJudged (w : WalkTable) : Prop where
  todo : w.todo = []
  judged : ∀ j ∈ w.group, w.stateOf j = some .judged

theorem WalkTable.AllJudged.complete {w : WalkTable} (h : w.AllJudged) : w.complete = true := by
  simp only [WalkTable.complete, h.todo, List.isEmpty_nil, Bool.true_and, List.all_eq_true]
  intro j hj
  simp [h.judged j hj]

theorem WalkTable.retryPoints_nil {w : WalkTable} (h : ∀ j ∈ w.group, w.stateOf j = some .judged) : w.retryPoints = [] := by
  refine List.filter_eq_nil_iff.2 fun j hj => ?_
  simp [h j hj]

theorem mem_groupPoints {count n j : Nat} : j ∈ groupPoints count n ↔ j < count ∧ j / 4 = n := by
  simp [groupPoints]

/-- The last point of a walk that passes ends it (R55, R56). -/
theorem State.settlePoint_last {s : State} {h : HeadId} {w : WalkTable} {k : Nat} {v : PointVerdict}
    (hw : (s.head h).walk = some w) (hv : v.passes = true) (htodo : w.todo = []) (hlast : w.points.length ≤ 4 * w.nextGroup)
    (hgroup : ∀ j ∈ w.group, (w.judged k v).stateOf j = some .judged) :
    s.settlePoint h k v =
      ((s.judgePoint h k v).modHead h fun x => { x with walk := some (w.judged k v) }).endWalk h (w.judged k v) := by
  let w' := w.judged k v
  have same : { w' with todo := w'.todo.filter fun j => decide (j ≠ k) } = w' := by
    have : w'.todo = [] := htodo
    rw [this, List.filter_nil, ← this]
  have passed : (s.judgePoint h k v).passOver h k =
      (s.judgePoint h k v).modHead h fun x => { x with walk := some w' } := by
    unfold State.passOver
    rw [State.judgePoint_head hw]
    dsimp only
    rw [if_neg (by rw [show (w.judged k v).todo = [] from htodo]; simp)]
    simp only [State.modHead, State.judgePoint_head hw, Head.modWalk, Option.map_some]
    rw [same]
  have judged : w'.AllJudged := ⟨htodo, hgroup⟩
  have rest : groupPoints w'.points.length w'.nextGroup = [] := by
    refine List.eq_nil_iff_forall_not_mem.2 fun j hj => ?_
    obtain ⟨hlt, hdiv⟩ := mem_groupPoints.1 hj
    have length : w'.points.length = w.points.length := WalkTable.modPoint_length w k _
    rw [length] at hlt
    have : w'.nextGroup = w.nextGroup := rfl
    omega
  unfold State.settlePoint
  dsimp only
  rw [if_pos hv, passed]
  unfold State.completeGroup State.afterGroup
  simp only [State.modHead_head]
  rw [if_pos judged.complete, WalkTable.retryPoints_nil judged.judged]
  dsimp only [List.isEmpty_nil]
  rw [if_pos rfl, rest]
  rfl

/-! ## A FULL group judged (R53) -/

section
variable (h : HeadId) (w₀ : WalkTable)

/-- The points of a group have all landed, each on a channel of its own. -/
def LandedApart (ks : List Nat) : Prop :=
  ∀ j ∈ ks, ∃ e, w₀.points[j]? = some e ∧ e.state = .landed ∧
    ∀ j' ∈ ks, ∀ e', w₀.points[j']? = some e' → e'.channel = e.channel → j' = j

/-- A landed point judged: its verdict, its slot empty. -/
theorem State.judgeFull_landed {s : State} {w : WalkTable} (hw : (s.head h).walk = some w) (ix : RecIx) (k : Nat)
    {e : WalkPoint} (he : e.state = .landed) :
    (s.judgeFull h ix k e).head h = { s.head h with
      slots := (s.head h).slots.set e.channel none
      walk := some (w.judged k (readingVerdict e.point (((s.head h).slots[e.channel]).getD 0))) } := by
  unfold State.judgeFull
  rw [he]
  dsimp only
  rw [State.modHead_head, State.judgePoint_head hw]

/-- Landed points judged one after another, each by its own slot. -/
theorem State.judgeGroup_landed (ks : List Nat) : ∀ (s : State) (w : WalkTable), (s.head h).walk = some w → ks.Nodup →
    LandedApart w₀ ks →
    ∃ w', (((s.judgeGroup h w₀ ks).head h).walk = some w' ∧
        ((s.judgeGroup h w₀ ks).head h).state = (s.head h).state) ∧
      (w'.group = w.group ∧ w'.nextGroup = w.nextGroup ∧ w'.points.length = w.points.length) ∧
      (∀ j, j ∉ ks → w'.points[j]? = w.points[j]?) ∧
      ∀ j ∈ ks, ∀ e y, w₀.points[j]? = some e → w.points[j]? = some y →
        w'.points[j]? = some { y with
          state := .judged, verdict := some (readingVerdict e.point (((s.head h).slots[e.channel]).getD 0)) } := by
  induction ks with
  | nil => exact fun s w hw _ _ => ⟨w, ⟨hw, rfl⟩, ⟨rfl, rfl, rfl⟩, fun _ _ => rfl, by simp⟩
  | cons k ks ih =>
    intro s w hw hnodup hlanded
    obtain ⟨e, he, hstate, hapart⟩ := hlanded k (by simp)
    obtain ⟨hk, hrest⟩ := List.nodup_cons.1 hnodup
    have next : s.judgeGroup h w₀ (k :: ks) = (s.judgeFull h w₀.ix k e).judgeGroup h w₀ ks := by
      rw [State.judgeGroup, he]
    have head := State.judgeFull_landed h hw w₀.ix k hstate
    have landed : LandedApart w₀ ks := fun j hj => by
      obtain ⟨y, hy, hs, hc⟩ := hlanded j (List.mem_cons_of_mem _ hj)
      exact ⟨y, hy, hs, fun j' hj' => hc j' (List.mem_cons_of_mem _ hj')⟩
    obtain ⟨w', ⟨hw', hst⟩, ⟨hgroup, hnext, hlen⟩, hothers, hjudged⟩ := ih (s.judgeFull h w₀.ix k e)
      (w.judged k (readingVerdict e.point (((s.head h).slots[e.channel]).getD 0))) (by rw [head]) hrest landed
    have points (j : Nat) := w.modPoint_points k (fun y => { y with
      state := .judged, verdict := some (readingVerdict e.point (((s.head h).slots[e.channel]).getD 0)) }) j
    rw [next]
    refine ⟨w', ⟨hw', by rw [hst, head]⟩, ⟨hgroup, hnext, by rw [hlen, WalkTable.judged, WalkTable.modPoint_length]⟩,
      fun j hj => ?_, fun j hj x y hx hy => ?_⟩
    · obtain ⟨hjk, hjks⟩ := not_or.1 (mt List.mem_cons.2 hj)
      exact (hothers j hjks).trans ((points j).trans (if_neg hjk))
    · rcases List.mem_cons.1 hj with rfl | hj
      · cases he.symm.trans hx
        refine (hothers j hk).trans ((points j).trans ?_)
        rw [if_pos rfl, hy]
        rfl
      · have hne : j ≠ k := fun h => hk (h ▸ hj)
        have same := (points j).trans (if_neg hne)
        have slot : ((s.judgeFull h w₀.ix k e).head h).slots[x.channel] = (s.head h).slots[x.channel] := by
          have hch : e.channel.val ≠ x.channel.val := fun h =>
            hne (hapart j (List.mem_cons_of_mem _ hj) x hx (Fin.ext h.symm))
          rw [head]
          exact Vector.getElem_set_ne e.channel.isLt x.channel.isLt hch
        rw [hjudged j hj x y hx (same.trans hy), slot]

end

end Sys2Proof.Machine
end

section
/-! SUPPORT. What follows a FULL group that is judged (R50, R53). -/

namespace Sys2Proof.Machine

/-! ## What follows a FULL group that is judged (R53) -/

/-- A group begun: its first point commanded (R50). -/
theorem State.beginGroup_head {s : State} {h : HeadId} {w : WalkTable} (hw : (s.head h).walk = some w) {g : List Nat}
    (hg : g ≠ []) :
    s.beginGroup h g = s.setHead h { s.head h with
      groupTimer := none, state := .walking, posTimer := some (s.timer Config.positionerMs)
      walk := some { w with group := g, todo := g } } := by
  unfold State.beginGroup State.modHead Head.modWalk Head.command
  simp only [hw, Option.map_some]
  cases g with
  | nil => exact absurd rfl hg
  | cons k ks => rfl

/-- A group whose points have all landed is judged and the next one begun (R50, R53). -/
theorem State.judge_advances {s : State} {h : HeadId} {w : WalkTable} (hw : (s.head h).walk = some w)
    (hnodup : w.group.Nodup) (hlanded : LandedApart w w.group) (hmore : 4 * w.nextGroup < w.points.length) :
    ∃ w', ((s.judge h).head h).state = .walking ∧ ((s.judge h).head h).walk = some w' ∧
      w'.nextGroup = w.nextGroup + 1 ∧ w'.todo = w'.group ∧
      (∀ n, n ∈ w'.group ↔ n < w.points.length ∧ n / 4 = w.nextGroup) ∧
      ∀ j ∈ w.group, ∀ e, w.points[j]? = some e → w'.points[j]? = some { e with
        state := .judged, verdict := some (readingVerdict e.point (((s.head h).slots[e.channel]).getD 0)) } := by
  obtain ⟨w₁, ⟨hw₁, -⟩, ⟨hgroup, hnext, hlen⟩, -, hjudged⟩ := s.judgeGroup_landed h w w.group w hw hnodup hlanded
  let g := groupPoints w₁.points.length w₁.nextGroup
  let t := (s.judgeGroup h w w.group).modHead h fun v => { v with groupTimer := none }
  have ht : (t.head h).walk = some w₁ := by rw [State.modHead_head]; exact hw₁
  have judged : ∀ j ∈ w₁.group, w₁.stateOf j = some .judged := fun j hj => by
    rw [hgroup] at hj
    obtain ⟨e, he, -⟩ := hlanded j hj
    rw [WalkTable.stateOf, hjudged j hj e e he he]
    rfl
  have members (n : Nat) : n ∈ g ↔ n < w.points.length ∧ n / 4 = w.nextGroup := by
    rw [mem_groupPoints, hlen, hnext]
  have nonempty : g ≠ [] := List.ne_nil_of_mem ((members (4 * w.nextGroup)).2 ⟨hmore, by omega⟩)
  let a := t.modHead h fun v => v.modWalk fun w => { w with nextGroup := w.nextGroup + 1 }
  have ha : (a.head h).walk = some { w₁ with nextGroup := w₁.nextGroup + 1 } := by
    rw [State.modHead_head, Head.modWalk, ht]
    rfl
  have after : s.judge h = a.beginGroup h g := by
    unfold State.judge
    rw [hw]
    change t.afterGroup h = _
    unfold State.afterGroup
    rw [ht]
    dsimp only
    rw [WalkTable.retryPoints_nil judged, if_pos (List.isEmpty_nil (α := Nat)), if_neg (by simpa using nonempty)]
  rw [after, State.beginGroup_head ha nonempty, State.setHead_head_self]
  exact ⟨_, rfl, rfl, congrArg (· + 1) hnext, rfl, members, fun j hj e he => hjudged j hj e e he he⟩

/-- The only point of a group without a result in time is in RETRY, and commanded again (R53). -/
theorem State.judge_retries {s : State} {h : HeadId} {w : WalkTable} {k : Nat} {e : WalkPoint}
    (hw : (s.head h).walk = some w) (hgroup : w.group = [k]) (he : w.points[k]? = some e) (hs : e.state = .triggered)
    (ha : e.attempt < 3) :
    s.judge h =
      let u := s.noteFault .probeRetry (.ine h) { ix := some w.ix }
      u.setHead h { s.head h with
        state := .walking, groupTimer := none, pending := (s.head h).pending.set e.channel none
        posTimer := some { since := u.now, ms := 1000 }
        walk := some { w with
          points := w.points.modify k (fun e => { e with attempt := e.attempt + 1, state := .retry })
          retries := min (w.retries + 1) 255, todo := [k] } } := by
  let w₁ : WalkTable := { w.modPoint k (fun e => { e with attempt := e.attempt + 1, state := .retry }) with
    retries := satInc 255 w.retries }
  let u := s.noteFault .probeRetry (.ine h) { ix := some w.ix }
  let v : Head := { s.head h with pending := (s.head h).pending.set e.channel none, walk := some w₁, groupTimer := none }
  have retried : (s.judgeGroup h w w.group).modHead h (fun v => { v with groupTimer := none }) = u.setHead h v := by
    rw [hgroup]
    simp only [State.judgeGroup, he, State.judgeFull, hs, if_pos ha, State.retryPoint, State.modHead,
      State.setHead_setHead, State.setHead_head_self, State.noteFault_setHead, Head.modWalk, hw, Option.map_some]
    rfl
  have retry : w₁.retryPoints = [k] := by
    have state : w₁.stateOf k = some .retry := by
      have point := w.modPoint_points k (fun e => { e with attempt := e.attempt + 1, state := .retry }) k
      rw [if_pos rfl, he] at point
      exact congrArg (Option.map WalkPoint.state) point
    rw [WalkTable.retryPoints, show w₁.group = [k] from hgroup]
    simp [state]
  have hv : ((u.setHead h v).head h).walk = some w₁ := by rw [State.setHead_head_self]
  unfold State.judge
  rw [hw]
  dsimp only
  rw [retried]
  unfold State.afterGroup
  rw [hv]
  dsimp only
  rw [retry, if_neg (by simp), State.beginGroup_head hv (by simp), State.setHead_head_self, State.setHead_setHead]
  have timer : (u.setHead h v).timer Config.positionerMs = { since := u.now, ms := 1000 } := by cases h <;> rfl
  have walk : ({ w₁ with group := [k], todo := [k] } : WalkTable) = { w with
      points := w.points.modify k (fun e => { e with attempt := e.attempt + 1, state := .retry })
      retries := min (w.retries + 1) 255, todo := [k] } := by
    simp only [w₁, satInc_eq, ← hgroup]
    rfl
  rw [timer, walk]

end Sys2Proof.Machine
end

section
/-! SUPPORT. Channel results that land, and the last one of a group (R52, R53, R55). -/

namespace Sys2Proof.Machine

/-! ## Channel results (R52, R55) -/

theorem State.channelResult_none {s : State} {h : HeadId} (hw : (s.head h).walk = none) (c : Fin 4) (x : BitVec 10) :
    s.channelResult h c x = s := by
  unfold State.channelResult
  rw [hw]

theorem State.channelResult_full {s : State} {h : HeadId} {w : WalkTable} (hw : (s.head h).walk = some w)
    (hm : w.mode = .full) (c : Fin 4) (x : BitVec 10) : s.channelResult h c x = s.resultFull h w.ix c x.toNat := by
  unfold State.channelResult
  rw [hw]
  dsimp only
  rw [hm]

theorem State.channelResult_firstFail {s : State} {h : HeadId} {w : WalkTable} (hw : (s.head h).walk = some w)
    (hm : w.mode = .firstFail) (c : Fin 4) (x : BitVec 10) :
    s.channelResult h c x = s.resultFirstFail h w c x.toNat := by
  unfold State.channelResult
  rw [hw]
  dsimp only
  rw [hm]

/-- A point with its reading. -/
def WalkPoint.land (e : WalkPoint) : WalkPoint := { e with state := .landed }

/-- A result that lands fills its slot (R52). -/
theorem State.resultFull_lands {s : State} {h : HeadId} {w : WalkTable} {c : Fin 4} {k : Nat}
    (hw : (s.head h).walk = some w) (hk : (s.head h).pending[c] = some k) (hs : (s.head h).slots[c] = none) (n : Nat) :
    s.resultFull h w.ix c n =
      (s.setHead h { s.head h with
        slots := (s.head h).slots.set c (some n), pending := (s.head h).pending.set c none
        walk := some (w.modPoint k WalkPoint.land) }).judgeIfLanded h := by
  unfold State.resultFull
  rw [hk, hs]
  simp only [State.modHead, Head.modWalk, hw, Option.map_some]
  rfl

/-- A result without a trigger or a free slot is spurious (R52). -/
theorem State.resultFull_spurious {s : State} {h : HeadId} {w : WalkTable} {c : Fin 4} (hw : (s.head h).walk = some w)
    (hc : (s.head h).pending[c] = none ∨ (s.head h).slots[c] ≠ none) (n : Nat) :
    s.resultFull h w.ix c n =
      (s.setHead h { s.head h with walk := some { w with spurious := min (w.spurious + 1) 255 } }).noteFault
        .spuriousResult (.ine h) { ix := some w.ix } := by
  have spurious : s.resultFull h w.ix c n = s.spurious h w.ix := by
    unfold State.resultFull
    split
    · rename_i k hk hs
      rcases hc with hc | hc
      · exact absurd (hk.symm.trans hc) (by simp)
      · exact absurd hs hc
    · rfl
  rw [spurious]
  simp only [State.spurious, State.modHead, Head.modWalk, hw, Option.map_some, satInc_eq]

/-! ## A group whose last result lands (R52, R53) -/

/-- The points of a walk's current group, each on a channel of its own, all landed but for the one that waits on a
channel. -/
def AwaitsLast (w : WalkTable) (c : Fin 4) (k : Nat) : Prop :=
  ∀ j ∈ w.group, ∃ e, w.points[j]? = some e ∧ (e.channel = c ↔ j = k) ∧ (j ≠ k → e.state = .landed) ∧
    ∀ j' ∈ w.group, ∀ e', w.points[j']? = some e' → e'.channel = e.channel → j' = j

theorem land_points (w : WalkTable) (k j : Nat) {e : WalkPoint} (he : w.points[j]? = some e) :
    (w.modPoint k WalkPoint.land).points[j]? = some (if j = k then e.land else e) := by
  rw [WalkTable.modPoint_points]
  by_cases h : j = k
  · subst h
    rw [if_pos rfl, if_pos rfl, he]
    rfl
  · rw [if_neg h, if_neg h, he]

theorem land_channel (e : WalkPoint) (p : Prop) [Decidable p] : (if p then e.land else e).channel = e.channel := by
  split <;> rfl

theorem land_point (e : WalkPoint) (p : Prop) [Decidable p] : (if p then e.land else e).point = e.point := by
  split <;> rfl

theorem AwaitsLast.landedApart {w : WalkTable} {c : Fin 4} {k : Nat} (h : AwaitsLast w c k) :
    LandedApart (w.modPoint k WalkPoint.land) w.group := by
  intro j hj
  obtain ⟨e, he, -, hland, hapart⟩ := h j hj
  refine ⟨_, land_points w k j he, ?_, fun j' hj' y hy hc => ?_⟩
  · split
    · rfl
    · exact hland ‹_›
  · obtain ⟨e', he', -⟩ := h j' hj'
    cases (land_points w k j' he').symm.trans hy
    rw [land_channel, land_channel] at hc
    exact hapart j' hj' e' he' hc

/-- What a channel holds after one is set. -/
theorem getElem_set_fin {α : Type} {n : Nat} (v : Vector α n) (c d : Fin n) (x : α) :
    (v.set c x)[d] = if d = c then x else v[d] := by
  by_cases h : d = c
  · subst h
    rw [if_pos rfl]
    exact Vector.getElem_set_self _
  · rw [if_neg h]
    exact Vector.getElem_set_ne c.isLt d.isLt fun hv => h (Fin.ext hv.symm)

/-- The last result of an evaluating group has the group judged and the next one begun (R53). -/
theorem State.resultFull_judges {s : State} {h : HeadId} {w : WalkTable} {c : Fin 4} {k : Nat}
    (hw : (s.head h).walk = some w) (hst : (s.head h).state = .evaluating) (hk : (s.head h).pending[c] = some k)
    (hs : (s.head h).slots[c] = none) (hnodup : w.group.Nodup) (hmore : w.points.length > 4 * w.nextGroup)
    (hlast : AwaitsLast w c k) (n : Nat) :
    ∃ w', ((s.resultFull h w.ix c n).head h).state = .walking ∧ ((s.resultFull h w.ix c n).head h).walk = some w' ∧
      w'.nextGroup = w.nextGroup + 1 ∧ w'.todo = w'.group ∧
      (∀ m, m ∈ w'.group ↔ m < w.points.length ∧ m / 4 = w.nextGroup) ∧
      ∀ j ∈ w.group, ∃ e e', w.points[j]? = some e ∧ w'.points[j]? = some e' ∧ e'.state = .judged ∧
        e'.verdict = some (readingVerdict e.point (if j = k then n else ((s.head h).slots[e.channel]).getD 0)) := by
  let w₁ := w.modPoint k WalkPoint.land
  let a := s.setHead h { s.head h with
    slots := (s.head h).slots.set c (some n), pending := (s.head h).pending.set c none, walk := some w₁ }
  have ha : a.head h = _ := State.setHead_head_self s h _
  have landed : LandedApart w₁ w₁.group := hlast.landedApart
  have all : w₁.allLanded = true := by
    refine List.all_eq_true.2 fun j hj => ?_
    obtain ⟨e, he, hs, -⟩ := landed j hj
    have state : w₁.stateOf j = some .landed := (congrArg (Option.map WalkPoint.state) he).trans (congrArg some hs)
    simp [state]
  have judged : s.resultFull h w.ix c n = a.judge h := by
    rw [State.resultFull_lands hw hk hs]
    unfold State.judgeIfLanded
    rw [show (a.head h).walk = some w₁ by rw [ha]]
    exact if_pos ⟨by rw [ha]; exact hst, all⟩
  have length : w₁.points.length = w.points.length := w.modPoint_length k _
  obtain ⟨w', hstate, hwalk, hnext, htodo, hmembers, hverdicts⟩ :=
    State.judge_advances (s := a) (w := w₁) (by rw [ha]) hnodup landed (by rw [length]; exact hmore)
  rw [judged]
  refine ⟨w', hstate, hwalk, hnext, htodo, fun m => by rw [hmembers m, length]; rfl, fun j hj => ?_⟩
  obtain ⟨e, he, hchannel, -, -⟩ := hlast j hj
  refine ⟨e, _, he, hverdicts j hj _ (land_points w k j he), rfl, ?_⟩
  have slot : ((a.head h).slots[e.channel]).getD 0 =
      if j = k then n else ((s.head h).slots[e.channel]).getD 0 := by
    rw [ha]
    dsimp only
    rw [getElem_set_fin]
    by_cases e' : j = k
    · rw [if_pos (hchannel.2 e'), if_pos e']
      rfl
    · rw [if_neg (mt hchannel.1 e'), if_neg e']
  dsimp only
  rw [land_point, ← slot]
  simp only [land_channel]

end Sys2Proof.Machine
end

section
/-! PROOF. Channel results, group waits and result timers (R52 to R59). -/

namespace Sys2Proof.Machine

/-! ## Verdicts at the mask and on the keepout list (R54) -/

/-- The kinds of point that a MASK walk reads. -/
def Point.OfMask (p : Point) : Prop := p.kind = .cap ∨ p.kind = .tape ∨ p.kind = .boot ∨ p.kind = .plug

theorem readingVerdict_mask {p : Point} (h : p.OfMask) (n : Nat) :
    readingVerdict p n = if n < p.low then .absent else if p.high < n then .misplaced else .present := by
  unfold readingVerdict
  rcases h with h | h | h | h
  · rw [h]
  · rw [h]
  · rw [h]
  · rw [h]

theorem readingVerdict_outside {p : Point} (h : p.OfMask) {n : Nat} (hn : n < p.low ∨ p.high < n) :
    readingVerdict p n = .absent ∨ readingVerdict p n = .misplaced := by
  rw [readingVerdict_mask h]
  by_cases low : n < p.low
  · exact .inl (if_pos low)
  · exact .inr ((if_neg low).trans (if_pos (hn.resolve_left low)))

theorem readingVerdict_present {p : Point} (h : p.OfMask) {n : Nat} (low : p.low ≤ n) (high : n ≤ p.high) :
    readingVerdict p n = .present := by
  rw [readingVerdict_mask h, if_neg (Nat.not_lt.2 low), if_neg (Nat.not_lt.2 high)]

theorem readingVerdict_contaminated {p : Point} (h : p.kind = .keepout) {n : Nat} (high : p.high < n) :
    readingVerdict p n = .contaminated := by
  unfold readingVerdict
  rw [h]
  exact if_pos high

/-! ## FIRST_FAIL results and timers as settled points (R53, R55, R56) -/

theorem State.resultFirstFail_none {s : State} {h : HeadId} {c : Fin 4} (hk : (s.head h).pending[c] = none)
    (w : WalkTable) (n : Nat) : s.resultFirstFail h w c n = s := by
  unfold State.resultFirstFail
  rw [hk]

theorem State.resultFirstFail_settles {s : State} {h : HeadId} {w : WalkTable} {c : Fin 4} {k : Nat} {e : WalkPoint}
    (hk : (s.head h).pending[c] = some k) (he : w.points[k]? = some e) (n : Nat) :
    s.resultFirstFail h w c n =
      (s.modHead h fun v => { v with
        pending := v.pending.set c none, resultTimers := v.resultTimers.set c none }).settlePoint h k
          (readingVerdict e.point n) := by
  unfold State.resultFirstFail
  rw [hk]
  dsimp only
  rw [he]

theorem State.groupWaitExpiry_none {s : State} {h : HeadId} (ht : (s.head h).groupTimer = none) :
    s.groupWaitExpiry h = s := by
  unfold State.groupWaitExpiry
  rw [ht]

theorem State.groupWaitExpiry_some {s : State} {h : HeadId} {t : Timer} (ht : (s.head h).groupTimer = some t) :
    s.groupWaitExpiry h = (s.expire t).judge h := by
  unfold State.groupWaitExpiry
  rw [ht]

theorem State.resultTimerExpiry_late {s : State} {h : HeadId} {w : WalkTable} {c : Fin 4} {k : Nat} {e : WalkPoint}
    {t : Timer} (hw : (s.head h).walk = some w) (ht : (s.head h).resultTimers[c] = some t)
    (hk : (s.head h).pending[c] = some k) (he : w.points[k]? = some e) :
    s.resultTimerExpiry h c =
      ((s.expire t).modHead h fun v => { v with resultTimers := v.resultTimers.set c none }).resultLate h w.ix k e := by
  unfold State.resultTimerExpiry
  rw [hw, ht, hk]
  dsimp only
  rw [he]

@[simp] theorem State.expire_head (s : State) (t : Timer) (h : HeadId) : (s.expire t).head h = s.head h :=
  State.head_of_ine ((s.expire_keeps t).ine rfl) h

/-- Below three attempts a point without a result in time is in RETRY, and its group goes on (R56). -/
theorem State.resultLate_retries {s : State} {h : HeadId} {w : WalkTable} {e : WalkPoint}
    (hw : (s.head h).walk = some w) (ha : e.attempt < 3) (htodo : w.todo ≠ []) (k : Nat) :
    s.resultLate h w.ix k e =
      (s.setHead h { s.head h with
        walk := some { w with
          points := w.points.modify k (fun e => { e with attempt := e.attempt + 1, state := .retry })
          retries := min (w.retries + 1) 255 } }).noteFault .probeRetry (.ine h) { ix := some w.ix } := by
  have retried : s.retryPoint h w.ix k = (s.setHead h { s.head h with
        walk := some { w with
          points := w.points.modify k (fun e => { e with attempt := e.attempt + 1, state := .retry })
          retries := min (w.retries + 1) 255 } }).noteFault .probeRetry (.ine h) { ix := some w.ix } := by
    simp only [State.retryPoint, State.modHead, Head.modWalk, hw, Option.map_some, satInc_eq]
    rfl
  rw [State.resultLate, if_pos ha, retried]
  unfold State.completeGroup
  rw [State.noteFault_head, State.setHead_head_self]
  exact if_neg (by simp [WalkTable.complete, htodo])

/-! ## A point that ends its walk (R19, R20, R55, R58, R59) -/

section
variable {s t : State} {w : WalkTable} {r : CarrierRecord} {k : Nat} {e : WalkPoint} (only : OnlyRec w.ix s t)
  (hr : t.rec? w.ix = some r) (hl : r.status.isLive = true) (hw : ∀ b, s.ctc.waiting = some b → b.ix ≠ w.ix)
  (he : w.points[k]? = some e)
include only hr hl hw he

/-- A point of the mask absent, misplaced or without a result ends its walk with mask verdict FAIL. -/
theorem State.settleMask_fails (hwalk : (t.head .mask).walk = some w) (hlist : e.list = .mask) {v : PointVerdict}
    (hv : v = .absent ∨ v = .misplaced ∨ v = .noResult) :
    let u := t.settlePoint .mask k v
    ResultGiven u .mask w.ix w.pass ∧ DivertedByRule s u w.ix .mask ∧
      ∃ r' q, u.rec? w.ix = some r' ∧ r'.maskVerdict = .fail ∧ r'.plan = [] ∧ r'.hold = some q ∧
        (v = .noResult → (holdCodes r.hold).length ≤ 5 → ∃ z ∈ q.reasons, z.code = .maskNoResult) := by
  have fails : v.passes = false := by
    rcases hv with rfl | rfl | rfl
    · rfl
    · rfl
    · rfl
  have listed : v ∈ verdictsOf .mask (w.judged k v) := hlist ▸ WalkTable.judged_verdict he v
  have bad : .absent ∈ verdictsOf .mask (w.judged k v) ∨ .misplaced ∈ verdictsOf .mask (w.judged k v) ∨
      .noResult ∈ verdictsOf .mask (w.judged k v) := by
    rcases hv with rfl | rfl | rfl
    · exact .inl listed
    · exact .inr (.inl listed)
    · exact .inr (.inr listed)
  have judged : OnlyRec (w.judged k v).ix s (t.judgePoint .mask k v) := only.trans (State.modHead_onlyRec _ _ _ _)
  obtain ⟨given, diverted, r', q, hr', fail, plan, hold, noResult⟩ :=
    State.endMask_fails judged ((State.rec?_of_ltk (State.modHead_ltk ..) _).trans hr) hl hw bad
  rw [State.settlePoint_fails hwalk k fails]
  exact ⟨given, diverted, r', q, hr', fail, plan, hold, fun hv => noResult (hv ▸ listed)⟩

/-- The last point of the mask that passes ends its walk with mask verdict OK. -/
theorem State.settleMask_passes (hwalk : (t.head .mask).walk = some w) (htodo : w.todo = [])
    (hend : w.points.length ≤ 4 * w.nextGroup) (hgroup : ∀ j ∈ w.group, j < w.points.length)
    (hothers : ∀ j y, j ≠ k → w.points[j]? = some y → y.state = .judged ∧ y.verdict = some .present) :
    let u := t.settlePoint .mask k .present
    ResultGiven u .mask w.ix w.pass ∧ ∃ r', u.rec? w.ix = some r' ∧ r'.maskVerdict = .ok ∧
      (∀ y ∈ r'.maskPoints, y = .present) ∧
      (r.hold = none → r'.hold = none ∧ r'.plan = r.plan ∧ r'.lane = r.lane ∧ u.hmg = s.hmg ∧ u.ctc = s.ctc) ∧
      (r.hold.isSome = true → DivertedByRule s u w.ix .mask) := by
  have judged (j : Nat) (y : WalkPoint) (hy : (w.judged k .present).points[j]? = some y) :
      y.state = .judged ∧ y.verdict = some .present := by
    rw [WalkTable.judged, WalkTable.modPoint_points] at hy
    by_cases hj : j = k
    · rw [if_pos hj, he] at hy
      cases hy
      exact ⟨rfl, rfl⟩
    · rw [if_neg hj] at hy
      exact hothers j y hj hy
  have states (j : Nat) (hj : j ∈ w.group) : (w.judged k .present).stateOf j = some .judged := by
    have bound : j < (w.judged k .present).points.length := (w.modPoint_length k _).symm ▸ hgroup j hj
    have point := List.getElem?_eq_getElem bound
    exact (congrArg (Option.map WalkPoint.state) point).trans (congrArg some (judged j _ point).1)
  have present (y : PointVerdict) (hy : y ∈ verdictsOf .mask (w.judged k .present)) : y = .present := by
    obtain ⟨j, e', he', -, rfl⟩ := mem_verdictsOf.1 hy
    rw [(judged j e' he').2]
    rfl
  rw [State.settlePoint_last hwalk rfl htodo hend states]
  have base : OnlyRec (w.judged k .present).ix s ((t.judgePoint .mask k .present).modHead .mask fun x =>
      { x with walk := some (w.judged k .present) }) :=
    (only.trans (State.modHead_onlyRec _ _ _ _)).trans (State.modHead_onlyRec _ _ _ _)
  exact State.endMask_passes base
    ((State.rec?_of_ltk ((State.modHead_ltk ..).trans (State.modHead_ltk ..)) _).trans hr) hl hw present

/-- A contaminated point of the keepout list ends its walk with KEEPOUT raised. -/
theorem State.settleInspect_diverts (hwalk : (t.head .inspect).walk = some w) (hlist : e.list = .keepout)
    (hroom : (holdCodes r.hold).length < 8) :
    let u := t.settlePoint .inspect k .contaminated
    ResultGiven u .inspect w.ix w.pass ∧ DivertedByRule s u w.ix .inspect ∧
      ∃ r' q, u.rec? w.ix = some r' ∧ r'.hold = some q ∧ ∃ z ∈ q.reasons, z.code = .keepout := by
  have listed : .contaminated ∈ verdictsOf .keepout (w.judged k .contaminated) := hlist ▸ WalkTable.judged_verdict he _
  have judged : OnlyRec (w.judged k .contaminated).ix s (t.judgePoint .inspect k .contaminated) :=
    only.trans (State.modHead_onlyRec _ _ _ _)
  rw [State.settlePoint_fails hwalk k rfl]
  exact State.endInspect_diverts judged ((State.rec?_of_ltk (State.modHead_ltk ..) _).trans hr) hl hw listed hroom

end

theorem holdCodes_length_le {h : Option Hold} {n : Nat} (hn : ∀ q, h = some q → q.reasons.length ≤ n) :
    (holdCodes h).length ≤ n := by
  rcases h with _ | q
  · exact Nat.zero_le n
  · simpa [holdCodes] using hn q rfl

/-- Settles O50: FULL results land and have the group judged, FIRST_FAIL results and late points end the walk or go on. -/
theorem resultsAreTakenAndRetried : Obligations.ResultsAreTakenAndRetried := by
  intro s h c x v
  refine ⟨fun hn => State.goesOn_congr (State.channelResult_none hn c x),
    fun hn => State.goesOn_congr (State.groupWaitExpiry_none hn), fun w hw => ?_⟩
  intro live maskKind
  have full (hm : w.mode = .full) := State.channelResult_full hw hm c x
  have firstFail (hm : w.mode = .firstFail) := State.channelResult_firstFail hw hm c x
  refine ⟨?lands, ?judges, ?spurious, ?discards, ?mask, ?inspect, ?groupRetry, ?late⟩
  case lands =>
    intro k hm hk hs hst
    refine State.goesOn_congr ?_
    rw [full hm, State.resultFull_lands hw hk hs]
    unfold State.judgeIfLanded
    rw [State.setHead_head_self]
    exact if_neg fun he => hst he.1
  case judges =>
    intro k hm hst hk hs _ hnodup hmore hlast
    obtain ⟨w', after⟩ := State.resultFull_judges hw hst hk hs hnodup hmore hlast x.toNat
    exact ⟨_, w', State.goesOn_congr (full hm), after⟩
  case spurious =>
    exact fun hm hc => State.goesOn_congr ((full hm).trans (State.resultFull_spurious hw hc _))
  case discards =>
    exact fun hm hk => State.goesOn_congr ((firstFail hm).trans (State.resultFirstFail_none hk w _))
  case mask =>
    rintro k e r rfl hk he hlist ⟨hr, hl, hwait⟩
    have settles (hm : w.mode = .firstFail) := (firstFail hm).trans (State.resultFirstFail_settles hk he x.toNat)
    have only := State.modHead_onlyRec s .mask
      (fun v => { v with pending := v.pending.set c none, resultTimers := v.resultTimers.set c none }) w.ix
    have hr' := (State.rec?_of_ltk (State.modHead_ltk s .mask
      fun v => { v with pending := v.pending.set c none, resultTimers := v.resultTimers.set c none }) w.ix).trans hr
    refine ⟨fun hm hkind hout => ?fails, fun t ht ha => ?tooLate, fun hm hkind hlow hhigh htodo hend hgroup hothers => ?ok⟩
    case fails =>
      obtain ⟨given, diverted, r', -, hrec, fail, -⟩ := State.settleMask_fails only hr' hl hwait he
        (by rw [State.modHead_head]; exact hw) hlist ((readingVerdict_outside hkind hout).imp_right .inl)
      exact ⟨_, State.goesOn_congr (settles hm), given, diverted, r', hrec, fail⟩
    case tooLate =>
      let a := (s.expire t).modHead .mask fun v => { v with resultTimers := v.resultTimers.set c none }
      have late : s.resultTimerExpiry .mask c = a.settlePoint .mask k .noResult :=
        (State.resultTimerExpiry_late hw ht hk he).trans (if_neg (by omega))
      have tunnel : a.ctc = s.ctc := (State.modHead_onlyRec _ _ _ w.ix).ctc.trans ((s.expire_keeps t).ctc rfl)
      obtain ⟨given, -, r', q, hrec, fail, plan, hold, noResult⟩ := State.settleMask_fails (OnlyRec.refl w.ix a)
        ((State.rec?_of_ltk (by simp [a]) w.ix).trans hr) hl (by rw [tunnel]; exact hwait) he
        (by rw [State.modHead_head, State.expire_head]; exact hw) hlist (.inr (.inr rfl))
      exact ⟨_, State.goesOn_congr late, given, r', q, hrec, fail, plan, hold,
        fun room => noResult rfl (holdCodes_length_le room)⟩
    case ok =>
      have ends : s.channelResult .mask c x = _ :=
        (settles hm).trans (congrArg (State.settlePoint _ .mask k) (readingVerdict_present hkind hlow hhigh))
      obtain ⟨given, r', after⟩ := State.settleMask_passes only hr' hl hwait he
        (by rw [State.modHead_head]; exact hw) htodo hend hgroup hothers
      exact ⟨_, r', State.goesOn_congr ends, given, after⟩
  case inspect =>
    rintro k e r rfl hm hk he hlist hkind hhigh ⟨hr, hl, hwait⟩ hroom
    have ends : s.channelResult .inspect c x = _ := ((firstFail hm).trans (State.resultFirstFail_settles hk he x.toNat)).trans
      (congrArg (State.settlePoint _ .inspect k) (readingVerdict_contaminated hkind hhigh))
    have room : (holdCodes r.hold).length < 8 :=
      Nat.lt_succ_of_le (holdCodes_length_le fun q hq => Nat.le_of_lt_succ (hroom q hq))
    exact ⟨_, State.goesOn_congr ends, State.settleInspect_diverts (State.modHead_onlyRec _ _ _ _)
      ((State.rec?_of_ltk (State.modHead_ltk ..) _).trans hr) hl hwait he (by rw [State.modHead_head]; exact hw) hlist room⟩
  case groupRetry =>
    intro k e t _ hgroup he hs ha ht
    have head : (s.expire t).head h = v := State.expire_head s t h
    refine State.goesOn_congr ((State.groupWaitExpiry_some ht).trans ?_)
    rw [State.judge_retries (by rw [head]; exact hw) hgroup he hs ha, head]
  case late =>
    intro k e t ht hk he ha htodo
    refine State.goesOn_congr ((State.resultTimerExpiry_late hw ht hk he).trans ?_)
    rw [State.resultLate_retries (by rw [State.modHead_head, State.expire_head]; exact hw) ha htodo]
    simp only [State.modHead, State.setHead_head_self, State.setHead_setHead, State.expire_head]
    rfl

end Sys2Proof.Machine
end

section
/-! SUPPORT. The frame of a request and of what the part does as it settles: `OnlyIn` composes, and each request changes
at most the parts that `partsOfRequest` lists for it (R26, R172). -/

namespace Sys2Proof.Machine

/-! ## Composing frames -/

/-- Every part of the state. -/
def Blocks.all : Blocks :=
  { ltk := true, rsc := true, req := true, ine := true, scc := true, ctc := true, hmg := true, rep := true, link := true
    mode := true, estop := true, clock := true, pass := true }

/-- The parts that records which leave or enter the line can change. -/
def Blocks.leaving : Blocks :=
  { ltk := true, rsc := true, ine := true, scc := true, ctc := true, hmg := true, rep := true, pass := true }

theorem Blocks.le_all (b : Blocks) : b.le .all = true := by simp [Blocks.le, Blocks.all]

theorem Blocks.le_refl (b : Blocks) : b.le b = true := by simp [Blocks.le]

theorem Blocks.le_withLink (b : Blocks) : b.le { b with link := true } = true := by simp [Blocks.le]

theorem OnlyIn.refl (b : Blocks) (s : State) : OnlyIn b s s := (Keeps.refl b s).onlyIn

theorem OnlyIn.trans {b : Blocks} {s t u : State} (h : OnlyIn b s t) (k : OnlyIn b t u) : OnlyIn b s u where
  pending := k.pending.trans h.pending
  store := k.store.trans h.store
  freeCount := k.freeCount.trans h.freeCount
  ltk e := (k.ltk e).trans (h.ltk e)
  rsc e := (k.rsc e).trans (h.rsc e)
  req e := (k.req e).trans (h.req e)
  ine e := (k.ine e).trans (h.ine e)
  scc e := (k.scc e).trans (h.scc e)
  ctc e := (k.ctc e).trans (h.ctc e)
  hmg e := (k.hmg e).trans (h.hmg e)
  record e := (k.record e).trans (h.record e)
  mode e := (k.mode e).trans (h.mode e)
  estop e := (k.estop e).trans (h.estop e)
  clock e := (k.clock e).trans (h.clock e)
  queue e :=
    let ⟨hreports, hlost, hfull⟩ := h.queue e
    let ⟨kreports, klost, kfull⟩ := k.queue e
    ⟨kreports.trans hreports, klost.trans hlost, kfull.trans hfull⟩
  link e := (k.link e).trans (h.link e)
  pass e i r hr hp :=
    let ⟨r', hr', hp'⟩ := h.pass e i r hr hp
    k.pass e i r' hr' hp'

theorem OnlyIn.mono {a b : Blocks} {s t : State} (h : OnlyIn a s t) (hb : a.le b = true) : OnlyIn b s t := by
  simp only [Blocks.le, Bool.and_eq_true, Bool.or_eq_true, Bool.not_eq_true'] at hb
  obtain ⟨⟨⟨⟨⟨⟨⟨⟨⟨⟨⟨⟨ltk, rsc⟩, req⟩, ine⟩, scc⟩, ctc⟩, hmg⟩, rep⟩, link⟩, mode⟩, estop⟩, clock⟩, pass⟩ := hb
  have outside {x y : Bool} (hxy : x = false ∨ y = true) (hy : y = false) : x = false :=
    hxy.resolve_right (by simp [hy])
  exact { h with
    ltk := fun e => h.ltk (outside ltk e)
    rsc := fun e => h.rsc (outside rsc e)
    req := fun e => h.req (outside req e)
    ine := fun e => h.ine (outside ine e)
    scc := fun e => h.scc (outside scc e)
    ctc := fun e => h.ctc (outside ctc e)
    hmg := fun e => h.hmg (outside hmg e)
    record := fun e => h.record (outside rep e)
    queue := fun e => h.queue (outside rep e)
    link := fun e => h.link (outside link e)
    mode := fun e => h.mode (outside mode e)
    estop := fun e => h.estop (outside estop e)
    clock := fun e => h.clock (outside clock e)
    pass := fun e => h.pass (outside pass e) }

/-- One operation more, which keeps more. -/
theorem OnlyIn.step {a b : Blocks} {s t u : State} (h : OnlyIn b s t) (k : OnlyIn a t u) (hb : a.le b = true) :
    OnlyIn b s u :=
  h.trans (k.mono hb)

theorem OnlyIn.foldl {α : Type} {b : Blocks} {f : State → α → State} (hf : ∀ t a, OnlyIn b t (f t a)) (xs : List α)
    (s : State) : OnlyIn b s (xs.foldl f s) := by
  induction xs generalizing s with
  | nil => exact OnlyIn.refl b s
  | cons x xs ih => exact (hf s x).trans (ih _)

/-- A record set, also one that was FREE. -/
theorem State.setRec_onlyIn (s : State) (i : RecIx) (r : Option CarrierRecord) :
    OnlyIn { ltk := true, pass := true } s (s.setRec i r) :=
  { OnlyIn.refl { ltk := true, pass := true } s with ltk := nofun, pass := nofun }

/-- An update of the Line Interface Unit that leaves the Report Queue and its counts. -/
theorem OnlyIn.liuSet (s : State) (v : Liu) (hreports : v.reports = s.liu.reports) (hlost : v.lost = s.liu.lost)
    (hfull : v.full = s.liu.full) : OnlyIn { link := true } s { s with liu := v } :=
  { OnlyIn.refl { link := true } s with link := nofun, queue := fun _ => ⟨hreports, hlost, hfull⟩ }

/-! ## What follows every command -/

theorem State.startTx_onlyIn (s : State) : OnlyIn { rep := true, link := true } s s.startTx := by
  unfold State.startTx
  split
  · exact OnlyIn.refl _ s
  · split
    · exact (OnlyIn.liuSet s { s.liu with hostTx := some (.reply _), replies := _ } rfl rfl rfl).mono rfl
    · exact { OnlyIn.refl { rep := true, link := true } s with record := nofun, queue := nofun, link := nofun }
    · exact OnlyIn.refl _ s

theorem State.settle_onlyIn (s : State) : OnlyIn { scc := true, rep := true, link := true } s s.settle :=
  (((s.askFetch_keeps .a).trans (State.askFetch_keeps _ .b)).onlyIn.mono rfl).step (State.startTx_onlyIn _) rfl

/-! ## The links -/

theorem State.sendReply_onlyIn (s : State) (l : Link) (r : Reply) : OnlyIn { link := true } s (s.sendReply l r) := by
  cases l <;> exact OnlyIn.liuSet s _ rfl rfl rfl

theorem State.setHeld_onlyIn (s : State) (f : Option Frame) : OnlyIn { link := true } s (s.setHeld f) :=
  OnlyIn.liuSet s _ rfl rfl rfl

theorem State.benchHeard_onlyIn (s : State) : OnlyIn { link := true } s s.benchHeard := OnlyIn.liuSet s _ rfl rfl rfl

theorem State.setRx_onlyIn (s : State) (l : Link) (v : Rx) : OnlyIn { link := true } s (s.setRx l v) := by
  cases l <;> exact OnlyIn.liuSet s _ rfl rfl rfl

theorem State.discard_onlyIn (s : State) (l : Link) (bytes : List Byte) (framing : Bool) :
    OnlyIn { link := true } s (s.discard l bytes framing) := by
  unfold State.discard
  split
  · exact OnlyIn.refl _ s
  · dsimp only
    split
    · exact s.setRx_onlyIn l _
    · exact OnlyIn.refl _ s

theorem State.rxGap_onlyIn (s : State) (l : Link) : OnlyIn { link := true, clock := true } s (s.rxGap l) := by
  unfold State.rxGap
  split
  · exact ((s.reach_keeps _ _).onlyIn.mono rfl).step (State.setRx_onlyIn _ l _) rfl
  · exact OnlyIn.refl _ s

theorem State.dropClaim_onlyIn (s : State) (i : RecIx) : OnlyIn { ltk := true, rep := true } s (s.dropClaim i) := by
  unfold State.dropClaim
  split
  · split
    · split
      · exact (s.setClaim_keeps i none).onlyIn
      · exact OnlyIn.refl _ s
    · exact OnlyIn.refl _ s
  · exact OnlyIn.refl _ s

theorem State.benchSilence_onlyIn (s : State) :
    OnlyIn { ltk := true, rep := true, link := true, clock := true } s s.benchSilence := by
  unfold State.benchSilence
  split
  · dsimp only
    rename_i t _
    refine OnlyIn.step ?_ (OnlyIn.foldl State.dropClaim_onlyIn recIxs _) rfl
    have expired := (s.expire_keeps t).onlyIn
    exact (expired.mono rfl).step (OnlyIn.liuSet _ { (s.expire _).liu with online := _, silence := _ } rfl rfl rfl) rfl
  · exact OnlyIn.refl _ s

/-! ## The requests (R179) -/

section
variable {b : Blocks} {s : State}

theorem State.unless_onlyIn (c : Bool) (st : ReplyStatus) {a : Answer} (h : OnlyIn b s a.1) :
    OnlyIn b s (s.unless c st a).1 := by
  unfold State.unless
  split
  · exact h
  · exact OnlyIn.refl b s

theorem State.withRec_onlyIn (i : Byte) {f : RecIx → Answer} (h : ∀ i, OnlyIn b s (f i).1) :
    OnlyIn b s (s.withRec i f).1 := by
  unfold State.withRec
  split
  · exact h _
  · exact OnlyIn.refl b s

theorem State.withCode_onlyIn {α : Type} (v : Option α) {f : α → Answer} (h : ∀ a, OnlyIn b s (f a).1) :
    OnlyIn b s (s.withCode v f).1 := by
  unfold State.withCode
  split
  · exact h _
  · exact OnlyIn.refl b s

end

theorem State.doModeSet_onlyIn (s : State) (m : LineMode) :
    OnlyIn { ltk := true, ine := true, scc := true, ctc := true, rep := true, mode := true } s (s.doModeSet m).1 := by
  have set (x : LineMode) := (s.setMode_keeps x .lineModeSet).onlyIn
  unfold State.doModeSet
  split
  case h_1 => exact State.unless_onlyIn _ _ (set .run)
  case h_4 => exact State.unless_onlyIn _ _ (set .idle)
  case h_2 | h_3 | h_5 | h_6 | h_7 => exact OnlyIn.refl _ s
  all_goals exact set _

theorem State.doResume_onlyIn (s : State) :
    OnlyIn { ltk := true, ine := true, scc := true, ctc := true, rep := true, mode := true } s s.doResume.1 := by
  unfold State.doResume
  split
  · exact OnlyIn.refl _ s
  · split
    · exact OnlyIn.refl _ s
    · exact (s.setMode_keeps .pause .resume).onlyIn

/-- LINE_CLEAR leaves the host store request, the line mode, the emergency-stop input and the links as they are. -/
theorem State.clearBlocks_onlyIn (s : State) :
    OnlyIn .leaving s s.clearBlocks := by
  have blocks (ltk : Ltk) (rsc : Rsc) (ine : Ine) (scc : Scc) (hreq : rsc.hostReq = s.rsc.hostReq) :
      OnlyIn { ltk := true, rsc := true, ine := true, scc := true, pass := true } s
        { s with ltk := ltk, rsc := rsc, ine := ine, scc := scc } :=
    { OnlyIn.refl { ltk := true, rsc := true, ine := true, scc := true, pass := true } s with
      ltk := nofun, rsc := nofun, req := fun _ => hreq, ine := nofun, scc := nofun, pass := nofun }
  have bench (t : State) : OnlyIn { hmg := true } t { t with hmg := Hmg.reset } :=
    { OnlyIn.refl { hmg := true } t with hmg := nofun }
  have cleared := blocks s.ltk.lineClear s.rsc.lineClear { mask := s.ine.mask.lineClear, inspect := s.ine.inspect.lineClear }
    { a := s.scc.a.lineClear, b := s.scc.b.lineClear } rfl
  exact ((cleared.mono rfl).step (State.clearTunnel_keeps _).onlyIn rfl).step (bench _) rfl

theorem State.doLineClear_onlyIn (s : State) :
    OnlyIn .leaving s s.doLineClear.1 := by
  unfold State.doLineClear
  split
  · exact OnlyIn.refl _ s
  · dsimp only [State.ok]
    split
    · exact (s.clearBlocks_onlyIn.step (State.dropRead_keeps _ .load).onlyIn rfl).step (State.beginArrival_keeps _).onlyIn rfl
    · exact s.clearBlocks_onlyIn

theorem State.doAdmit_onlyIn (s : State) (id : TagId) (n : Nat) (serial : List Byte) :
    OnlyIn .leaving s (s.doAdmit id n serial).1 := by
  have admitted (i : RecIx) (e : LoadEntry) (r : CarrierRecord) :
      OnlyIn .leaving s (s.admitTo i e r) :=
    (((s.setRec_onlyIn i _).mono rfl).step (State.setEntry_keeps _ _).onlyIn rfl).step
      (State.requestLoad_keeps _ i _).onlyIn rfl
  unfold State.doAdmit
  split
  · exact OnlyIn.refl _ s
  · split
    · exact OnlyIn.refl _ s
    · split
      · exact OnlyIn.refl _ s
      · split
        · exact OnlyIn.refl _ s
        · split
          · exact OnlyIn.refl _ s
          · split
            · exact OnlyIn.refl _ s
            · exact admitted _ _ _

theorem State.doRemove_onlyIn (s : State) (i : RecIx) :
    OnlyIn .leaving s (s.doRemove i).1 := by
  have gone := (s.retire_keeps i .removed).onlyIn
  unfold State.doRemove
  split
  · exact OnlyIn.refl _ s
  · split
    · exact (s.modRec_keeps i (fun r => { r with removalPending := true })
        (fun r ok => ⟨{ ok with }, le_refl _, le_refl _⟩) fun _ h => h).onlyIn.mono rfl
    all_goals exact gone

theorem State.doMarkClear_onlyIn (s : State) (id : TagId) : OnlyIn { ltk := true } s (s.doMarkClear id).1 := by
  unfold State.doMarkClear
  split
  · exact OnlyIn.refl _ s
  · exact State.unless_onlyIn _ _ (s.askWrite_keeps .load 0 (.markClear id)).onlyIn

theorem State.doTraceTake_onlyIn (s : State) (i : RecIx) :
    OnlyIn { ltk := true, hmg := true, rep := true, pass := true } s (s.doTraceTake i).1 := by
  unfold State.doTraceTake
  split
  · exact State.unless_onlyIn _ _ (((s.setRec_onlyIn i none).mono rfl).step (State.rematch_keeps _ _ _).onlyIn rfl)
  · exact OnlyIn.refl _ s

/-- A hold part with its texts or its claim changed. -/
theorem State.modHold_onlyIn (s : State) (i : RecIx) (f : Hold → Hold) (hf : ∀ h, HoldStep h (f h)) :
    OnlyIn { ltk := true, rep := true } s (s.modHold i f) :=
  (s.modHold_keeps i f hf).onlyIn.mono rfl

theorem State.doHoldPlace_onlyIn (s : State) (i : RecIx) (v : Severity) :
    OnlyIn { ltk := true, rep := true } s (s.doHoldPlace i v).1 := by
  have raised := (s.raiseReason_keeps i .ordered v).onlyIn
  unfold State.doHoldPlace
  split
  · split
    case h_1 | h_2 => exact raised
    all_goals exact OnlyIn.refl _ s
  · exact OnlyIn.refl _ s

theorem State.doHoldRead_onlyIn (s : State) (l : Link) (i : RecIx) :
    OnlyIn { ltk := true, rep := true } s (s.doHoldRead l i).1 := by
  unfold State.doHoldRead
  split
  · exact OnlyIn.refl _ s
  · cases l with
    | host => exact OnlyIn.refl _ s
    | bench => exact (s.instructionRead_keeps i _).onlyIn

theorem State.doHoldClaim_onlyIn (s : State) (l : Link) (i : RecIx) :
    OnlyIn { ltk := true, rep := true } s (s.doHoldClaim l i).1 := by
  unfold State.doHoldClaim
  split
  · exact OnlyIn.refl _ s
  · split
    · exact (s.setClaim_keeps i _).onlyIn
    · exact State.unless_onlyIn _ _ (OnlyIn.refl _ s)

theorem State.doHoldUnclaim_onlyIn (s : State) (l : Link) (i : RecIx) :
    OnlyIn { ltk := true, rep := true } s (s.doHoldUnclaim l i).1 := by
  unfold State.doHoldUnclaim
  split
  · exact OnlyIn.refl _ s
  · exact State.unless_onlyIn _ _ (s.setClaim_keeps i none).onlyIn

theorem State.doInstructionPost_onlyIn (s : State) (i : RecIx) (text : List Byte) :
    OnlyIn { ltk := true, rep := true } s (s.doInstructionPost i text).1 := by
  unfold State.doInstructionPost
  split
  · exact OnlyIn.refl _ s
  · exact State.unless_onlyIn _ _ (s.modHold_onlyIn i _ fun _ => HoldStep.of_eq rfl rfl)

theorem State.doFindingPost_onlyIn (s : State) (i : RecIx) (text : List Byte) :
    OnlyIn { ltk := true, rep := true } s (s.doFindingPost i text).1 := by
  have posted := (s.modHold_onlyIn i (fun h => { h with finding := newText text }) fun _ => HoldStep.of_eq rfl rfl).step
    (State.holdChanged_keeps _ i .finding).onlyIn rfl
  unfold State.doFindingPost
  split
  · exact OnlyIn.refl _ s
  · split
    case h_3 => exact State.unless_onlyIn _ _ posted
    all_goals exact OnlyIn.refl _ s

theorem State.doFindingRead_onlyIn (s : State) (i : RecIx) :
    OnlyIn { ltk := true, rep := true } s (s.doFindingRead i).1 := by
  unfold State.doFindingRead
  split
  · exact OnlyIn.refl _ s
  · split
    · exact OnlyIn.refl _ s
    · exact s.modHold_onlyIn i _ fun _ => HoldStep.of_eq rfl rfl

theorem State.rework_onlyIn (s : State) (i : RecIx) (r : CarrierRecord) (h : Hold) (d : Disposition) (l : Link) :
    OnlyIn { ltk := true, hmg := true, rep := true, pass := true } s (s.rework i r h d l) := by
  unfold State.rework
  dsimp only
  exact (((s.setRec_onlyIn i _).mono rfl).step (State.holdChanged_keeps _ i _).onlyIn rfl).step
    (State.rematch_keeps _ _ _).onlyIn rfl

theorem State.closeOut_onlyIn (s : State) (i : RecIx) (r : CarrierRecord) (h : Hold) (d : Disposition) (l : Link)
    (outcome : DoneOutcome) :
    OnlyIn .leaving s (s.closeOut i r h d l outcome) := by
  have closed (v : CarrierRecord) (report : ReportBody) :
      OnlyIn .leaving s (((s.setRec i (some v)).queueReport report).retire i outcome) :=
    (((s.setRec_onlyIn i _).mono rfl).step (State.queueReport_keeps _ _).onlyIn rfl).step
      (State.retire_keeps _ i outcome).onlyIn rfl
  unfold State.closeOut
  dsimp only
  split
  · exact (closed _ _).step (State.askWrite_keeps _ _ _ _).onlyIn rfl
  · exact closed _ _

theorem State.doHoldDispose_onlyIn (s : State) (l : Link) (i : RecIx) (d : Disposition) :
    OnlyIn .leaving s (s.doHoldDispose l i d).1 := by
  unfold State.doHoldDispose
  split
  · exact OnlyIn.refl _ s
  · split
    · exact OnlyIn.refl _ s
    · split
      · exact OnlyIn.refl _ s
      · exact s.closeOut_onlyIn i _ _ d l _
      · exact (s.rework_onlyIn i _ _ d l).mono rfl

theorem State.doCellHome_onlyIn (s : State) (c : CellId) : OnlyIn { scc := true, rep := true } s (s.doCellHome c).1 := by
  unfold State.doCellHome
  split
  · exact OnlyIn.refl _ s
  · split
    case h_1 => exact (s.startHoming_keeps c).onlyIn
    all_goals exact OnlyIn.refl _ s

theorem State.doCellAbort_onlyIn (s : State) (c : CellId) :
    OnlyIn { ltk := true, scc := true, rep := true } s (s.doCellAbort c).1 := by
  unfold State.doCellAbort
  split
  · exact (s.abandonProgram_keeps c _ _ _ _ _ _).onlyIn
  · exact OnlyIn.refl _ s

theorem State.doCellClear_onlyIn (s : State) (c : CellId) :
    OnlyIn { scc := true, rep := true } s (s.doCellClear c).1 := by
  unfold State.doCellClear
  split
  · exact OnlyIn.refl _ s
  · exact ((s.modCell_keeps c _).onlyIn.mono rfl).step (State.cellTo_keeps _ c _ _ _).onlyIn rfl

theorem State.doStoreWrite_onlyIn (s : State) (tag : Byte) (o : Nat) (data : List Byte) :
    OnlyIn { rsc := true, req := true } s (s.doStoreWrite tag o data).1 := by
  unfold State.doStoreWrite
  split
  · exact OnlyIn.refl _ s
  · exact (s.setHostReq_keeps _).onlyIn

theorem State.doRecipeCheck_onlyIn (s : State) (tag : Byte) (n : Nat) :
    OnlyIn { rsc := true, req := true } s (s.doRecipeCheck tag n).1 := by
  unfold State.doRecipeCheck
  dsimp only
  split
  · exact OnlyIn.refl _ s
  · split
    · exact OnlyIn.refl _ s
    · split
      · exact OnlyIn.refl _ s
      · exact (s.setHostReq_keeps _).onlyIn

/-- A request changes at most the parts listed for it. -/
theorem State.dispatch_onlyIn (s : State) (l : Link) (tag : Byte) (r : Request) :
    OnlyIn (partsOfRequest r) s (s.dispatch l tag r).1 := by
  cases r with
  | identify | lineStatus | faultRead | benchList | slotList => exact OnlyIn.refl _ s
  | lineModeSet m => exact State.withCode_onlyIn _ s.doModeSet_onlyIn
  | resume => exact s.doResume_onlyIn
  | lineConfig x m => exact State.unless_onlyIn _ _ (s.setLine_keeps _ _).onlyIn
  | lineClear => exact s.doLineClear_onlyIn
  | faultAck c => exact (s.setRecord_keeps _).onlyIn
  | admitCarrier id n serial => exact s.doAdmit_onlyIn id _ serial
  | remove i => exact State.withRec_onlyIn i s.doRemove_onlyIn
  | markClear id => exact s.doMarkClear_onlyIn id
  | carrierRead i => exact State.withRec_onlyIn i fun _ => OnlyIn.refl _ s
  | traceTake i => exact State.withRec_onlyIn i s.doTraceTake_onlyIn
  | holdPlace i v => exact State.withRec_onlyIn i fun i => State.withCode_onlyIn _ (s.doHoldPlace_onlyIn i)
  | holdRead i => exact State.withRec_onlyIn i (s.doHoldRead_onlyIn l)
  | holdClaim i => exact State.withRec_onlyIn i (s.doHoldClaim_onlyIn l)
  | holdUnclaim i => exact State.withRec_onlyIn i (s.doHoldUnclaim_onlyIn l)
  | instructionPost i text => exact State.withRec_onlyIn i fun i => s.doInstructionPost_onlyIn i text
  | findingPost i text => exact State.withRec_onlyIn i fun i => s.doFindingPost_onlyIn i text
  | findingRead i => exact State.withRec_onlyIn i s.doFindingRead_onlyIn
  | holdDispose i d => exact State.withRec_onlyIn i fun i => State.withCode_onlyIn _ (s.doHoldDispose_onlyIn l i)
  | cellHome c => exact State.withCode_onlyIn _ s.doCellHome_onlyIn
  | cellAbort c => exact State.withCode_onlyIn _ s.doCellAbort_onlyIn
  | cellClear c => exact State.withCode_onlyIn _ s.doCellClear_onlyIn
  | headClear h => exact State.withCode_onlyIn _ fun h => (s.clearHead_keeps h).onlyIn
  | lampSet v => exact State.withCode_onlyIn _ fun on => (s.lampSet_keeps on).onlyIn
  | storeRead o n => exact (s.setHostReq_keeps _).onlyIn
  | storeWrite o data => exact s.doStoreWrite_onlyIn tag _ data
  | recipeCheck n => exact s.doRecipeCheck_onlyIn tag _

/-! ## Taking a frame or a request row (R177 to R182) -/

section
variable {b : Blocks} {r : Option Request}

/-- A frame changes the link and what its request changes. -/
theorem State.screen_onlyIn (hlink : b.link = true) (hr : ∀ q, r = some q → (partsOfRequest q).le b = true) (s : State)
    (l : Link) (kind tag : Byte) : OnlyIn b s (s.screen l kind tag r) := by
  have answered : OnlyIn b s (s.screenRequest l kind tag r).1 := by
    unfold State.screenRequest
    split
    · exact OnlyIn.refl b s
    · split
      · exact OnlyIn.refl b s
      · split
        · exact OnlyIn.refl b s
        · rename_i q
          split
          · exact OnlyIn.refl b s
          · split
            · exact OnlyIn.refl b s
            · exact (s.dispatch_onlyIn l tag q).mono (hr q rfl)
  unfold State.screen
  split
  · exact OnlyIn.refl b s
  · unfold Answer.deliver
    split
    · exact answered.step (State.sendReply_onlyIn _ l _) (by simp [Blocks.le, hlink])
    · exact answered

theorem State.take_onlyIn (hlink : b.link = true) (hr : ∀ q, r = some q → (partsOfRequest q).le b = true) (s : State)
    (l : Link) (f : Frame) : OnlyIn b s (s.take l f r) := by
  have link : ({ link := true } : Blocks).le b = true := by simp [Blocks.le, hlink]
  unfold State.take
  split
  · exact OnlyIn.refl b s
  · cases l with
    | bench =>
      dsimp only
      split
      · exact OnlyIn.refl b s
      · exact (s.benchHeard_onlyIn.mono link).trans (State.screen_onlyIn hlink hr _ _ _ _)
    | host =>
      dsimp only
      split
      · exact OnlyIn.refl b s
      · split
        · exact (s.setHeld_onlyIn _).mono link
        · exact State.screen_onlyIn hlink hr s _ _ _

end

theorem State.takeRequest_onlyIn (s : State) (l : Link) (tag : Byte) (r : Request) :
    OnlyIn { partsOfRequest r with link := true } s (s.takeRequest l tag r) := by
  refine State.take_onlyIn rfl (fun q hq => ?_) s l _
  split at hq
  · cases hq
    exact Blocks.le_withLink _
  · cases hq

theorem State.screenHeld_onlyIn (s : State) : OnlyIn .all s s.screenHeld := by
  unfold State.screenHeld
  split
  · split
    · exact OnlyIn.refl _ s
    · exact ((s.setHeld_onlyIn none).mono rfl).trans (State.screen_onlyIn rfl (fun q _ => Blocks.le_all _) _ _ _ _)
  · exact OnlyIn.refl _ s

theorem State.receive_onlyIn (s : State) (l : Link) (bytes : List Byte) : OnlyIn .all s (s.receive l bytes) := by
  refine OnlyIn.foldl (fun t x => ?_) bytes s
  unfold State.receiveByte
  split
  · exact OnlyIn.refl _ t
  · have taken := (t.setRx_onlyIn l (rxByte t.starting t.now (t.freshRx l) x).1).mono (Blocks.le_all _)
    dsimp only
    split
    · exact taken.trans (State.take_onlyIn rfl (fun q _ => Blocks.le_all _) _ _ _)
    · exact taken

end Sys2Proof.Machine
end

section
/-! PROOF. Every command but the ends of accesses goes on within its frame (R26, R172). -/

namespace Sys2Proof.Machine

/-! ## Every command goes on within its frame -/

theorem State.estopEvent_onlyIn (s : State) :
    OnlyIn { ltk := true, ine := true, scc := true, ctc := true, rep := true, mode := true, estop := true } s
      s.estopEvent := by
  unfold State.estopEvent
  split
  · exact OnlyIn.refl _ s
  · split
    · exact (s.setEstop_keeps true).onlyIn.mono rfl
    · exact s.estopActive_keeps.onlyIn

theorem State.ballastEvent_onlyIn (s : State) : OnlyIn { ctc := true, rep := true } s s.ballastEvent := by
  unfold State.ballastEvent
  split
  · exact OnlyIn.refl _ s
  · exact s.ballastActive_keeps.onlyIn

/-- A request row stands for its valid frame on its link. -/
theorem exec_request {c : Instr} {l : Link} {tag : Byte} {r : Request} (h : c.request? = some (l, tag, r)) (s : State) :
    exec c s = .next (s.takeRequest l tag r).settle := by
  cases c <;> cases h <;> rfl

theorem partsOf_request {c : Instr} {l : Link} {tag : Byte} {r : Request} (h : c.request? = some (l, tag, r)) :
    partsOf c = some { partsOfRequest r with link := true } := by
  cases c <;> cases h <;> rfl

/-- The parts that a command can change before the part settles: those listed, and any for a frame. -/
def commandParts (c : Instr) : Blocks := (partsOf c).getD .all

/-- A command that goes on within its frame. -/
def GoesOnWithin (c : Instr) (s : State) : Prop := ∃ u : State, exec c s = .next u.settle ∧ OnlyIn (commandParts c) s u

/-- A request row goes on within the frame of its request and its link. -/
theorem GoesOnWithin.of_request {c : Instr} {l : Link} {tag : Byte} {r : Request} (h : c.request? = some (l, tag, r))
    (s : State) : GoesOnWithin c s := by
  refine ⟨_, exec_request h s, ?_⟩
  rw [commandParts, partsOf_request h]
  exact s.takeRequest_onlyIn l tag r

theorem exec_goesOnWithin (s : State) (c : Instr) (hpor : ∀ f, c ≠ .por f) (hend : c ≠ .storeAccessEnd)
    (htime : c ≠ .storeAccessTimeout) : GoesOnWithin c s := by
  cases c with
  | por f => exact absurd rfl (hpor f)
  | storeAccessEnd => exact absurd rfl hend
  | storeAccessTimeout => exact absurd rfl htime
  | emergencyStop => exact ⟨_, rfl, s.estopEvent_onlyIn⟩
  | emergencyStopRelease => exact ⟨_, rfl, (s.setEstop_keeps false).onlyIn⟩
  | frameValid l bytes => exact ⟨_, rfl, s.receive_onlyIn l bytes⟩
  | frameDiscard l bytes framing => exact ⟨_, rfl, s.discard_onlyIn l bytes framing⟩
  | rxGapTimeout l => exact ⟨_, rfl, s.rxGap_onlyIn l⟩
  | heldFrameScreen => exact ⟨_, rfl, s.screenHeld_onlyIn⟩
  | hostTxDone | benchTxDone => exact ⟨_, rfl, OnlyIn.liuSet s _ rfl rfl rfl⟩
  | benchSilenceExpiry => exact ⟨_, rfl, s.benchSilence_onlyIn⟩
  | storeGrant => exact ⟨_, rfl, s.grant_keeps.onlyIn⟩
  | loadArrival => exact ⟨_, rfl, s.loadPresent_keeps.onlyIn⟩
  | tagReadAttemptEnd p x => exact ⟨_, rfl, (s.readEnd_keeps p x).onlyIn⟩
  | tagWriteAttemptEnd p b => exact ⟨_, rfl, (s.writeEnd_keeps p b).onlyIn⟩
  | loadEntryClear => exact ⟨_, rfl, s.loadClear_keeps.onlyIn⟩
  | moveBegin i => exact ⟨_, rfl, (s.moveBegin_keeps i).onlyIn⟩
  | moveEnd i => exact ⟨_, rfl, (s.moveEnd_keeps i).onlyIn⟩
  | transportTimeout i => exact ⟨_, rfl, (s.moveTimeout_keeps i).onlyIn⟩
  | sourceCleared p => exact ⟨_, rfl, (s.sourceClear_keeps p).onlyIn⟩
  | carrierMissing p => exact ⟨_, rfl, (s.carrierMissing_keeps p).onlyIn⟩
  | carrierLifted p => exact ⟨_, rfl, (s.carrierLifted_keeps p).onlyIn⟩
  | carrierSetBack p => exact ⟨_, rfl, (s.setBack_keeps p).onlyIn⟩
  | doneCarrierLifted p => exact ⟨_, rfl, (s.doneLifted_keeps p).onlyIn⟩
  | benchMoveStart => exact ⟨_, rfl, s.benchMoveStart_keeps.onlyIn⟩
  | walkStart h => exact ⟨_, rfl, (s.startWalk_keeps h).onlyIn⟩
  | positionerArrival h answers => exact ⟨_, rfl, (s.positionerArrival_keeps h answers).onlyIn⟩
  | inspectPositionTimeout h => exact ⟨_, rfl, (s.positionTimeout_keeps h).onlyIn⟩
  | channelResult h k reading => exact ⟨_, rfl, (s.channelResult_keeps h k reading).onlyIn⟩
  | groupWaitExpiry h => exact ⟨_, rfl, (s.groupWaitExpiry_keeps h).onlyIn⟩
  | resultTimerExpiry h k => exact ⟨_, rfl, (s.resultTimerExpiry_keeps h k).onlyIn⟩
  | homeReached x => exact ⟨_, rfl, (s.homeReached_keeps x).onlyIn⟩
  | homeTimeout x => exact ⟨_, rfl, (s.homeTimeout_keeps x).onlyIn⟩
  | programStart x => exact ⟨_, rfl, (s.startProgram_keeps x).onlyIn⟩
  | seekEnd x => exact ⟨_, rfl, (s.seekEnd_keeps x).onlyIn⟩
  | leadTimerExpiry x => exact ⟨_, rfl, (s.leadExpiry_keeps x).onlyIn⟩
  | valveCloseTimer x => exact ⟨_, rfl, (s.valveClose_keeps x).onlyIn⟩
  | motionEnd x => exact ⟨_, rfl, (s.motionEnd_keeps x).onlyIn⟩
  | gantryTimeout x => exact ⟨_, rfl, (s.gantryTimeout_keeps x).onlyIn⟩
  | gantryHaltReport x p q r => exact ⟨_, rfl, (s.haltReport_keeps x p q r).onlyIn⟩
  | starveLimit x => exact ⟨_, rfl, (s.starveLimit_keeps x).onlyIn⟩
  | valveFault x => exact ⟨_, rfl, (s.valveFault_keeps x).onlyIn⟩
  | entryTransferStart => exact ⟨_, rfl, s.entryStart_keeps.onlyIn⟩
  | laneEntryEnd l => exact ⟨_, rfl, (s.laneEntryEnd_keeps l).onlyIn⟩
  | encoderPulse l => exact ⟨_, rfl, (s.encoderPulse_keeps l).onlyIn⟩
  | exitTransferStart => exact ⟨_, rfl, s.exitGrant_keeps.onlyIn⟩
  | exitTransferEnd => exact ⟨_, rfl, s.exitEnd_keeps.onlyIn⟩
  | uvSample raw => exact ⟨_, rfl, (s.uvSample_keeps raw).onlyIn⟩
  | thermalSample adc => exact ⟨_, rfl, (s.thermalSample_keeps adc).onlyIn⟩
  | warmUpEnd => exact ⟨_, rfl, s.warmUpEnd_keeps.onlyIn⟩
  | ballastFault => exact ⟨_, rfl, s.ballastEvent_onlyIn⟩
  | ballastFaultInactive => exact ⟨_, rfl, (s.setBallast_keeps false).onlyIn⟩
  | identify | lineStatus | lineModeSet | resume | lineConfig | lineClear | faultRead | faultAck | admitCarrier | remove
  | markClear | carrierRead | traceTake | holdPlace | holdRead | holdClaim | holdUnclaim | instructionPost | findingPost
  | findingRead | benchList | holdDispose | cellHome | cellAbort | cellClear | headClear | lampSet | storeRead | storeWrite
  | recipeCheck | slotList => exact .of_request rfl s

/-- Every command is POR, the end of an access, or goes on within its frame. -/
theorem exec_cases (c : Instr) (s : State) :
    (∃ f, c = .por f) ∨ c = .storeAccessEnd ∨ c = .storeAccessTimeout ∨ GoesOnWithin c s := by
  by_contra h
  simp only [not_or, not_exists] at h
  obtain ⟨hpor, hend, htime, hwithin⟩ := h
  exact hwithin (exec_goesOnWithin s c hpor hend htime)

/-! ## POR and the ends of accesses -/

theorem AccessOp.inStore_iff (op : AccessOp) : op.inStore = true ↔ op.range.1 + op.range.2 ≤ 262144 := decide_eq_true_iff

/-- An access that reaches beyond byte 262,143 stops (log 30). -/
theorem State.endAccess_fault {s : State} {a : Access} (hp : s.rsc.port = some a)
    (hout : 262144 < a.op.range.1 + a.op.range.2) (f : State → Access → State) :
    s.endAccess f = .fault .storeRange := by
  unfold State.endAccess
  rw [hp]
  exact if_neg (by rw [AccessOp.inStore_iff]; omega)

/-- The end of any other access goes on, and so does one that comes while the port is free (log 2). -/
theorem State.endAccess_next {s : State} (hin : ¬ ∃ a, s.rsc.port = some a ∧ 262144 < a.op.range.1 + a.op.range.2)
    (f : State → Access → State) :
    s.endAccess f = .next s.settle ∨ ∃ a, s.endAccess f = .next (f s a).settle := by
  unfold State.endAccess
  split
  · rename_i a hp
    have inside : a.op.inStore = true := a.op.inStore_iff.2 (Nat.not_lt.1 fun hout => hin ⟨a, hp, hout⟩)
    exact .inr ⟨a, if_pos inside⟩
  · exact .inl rfl

theorem State.spoil_pending (s : State) (op : AccessOp) : (s.spoil op).pending = s.pending := by cases op <;> rfl

theorem State.powerOn_pending (s : State) (fast : Bool) : (s.powerOn fast).pending = s.pending := by
  unfold State.powerOn
  split
  · exact s.spoil_pending _
  · rfl

theorem State.accessEnd_pending (s : State) (a : Access) : (s.accessEnd a).pending = s.pending := by
  unfold State.accessEnd
  split
  · exact (State.handRead_keeps _ _ _).pending
  · exact (State.handWrite_keeps _).pending

theorem State.accessError_pending (s : State) (a : Access) : (s.accessError a).pending = s.pending := by
  unfold State.accessError
  rw [(State.handError_keeps _ _).pending, (State.noteFault_keeps _ _ _ _).pending, State.spoil_pending]
  exact (s.reach_keeps _ _).pending

theorem State.endAccess_pending {s t : State} {f : State → Access → State} (hf : ∀ a, (f s a).pending = s.pending)
    (h : s.endAccess f = .next t) : t.pending = s.pending := by
  by_cases hout : ∃ a, s.rsc.port = some a ∧ 262144 < a.op.range.1 + a.op.range.2
  · obtain ⟨a, hp, hout⟩ := hout
    cases h.symm.trans (State.endAccess_fault hp hout f)
  · rcases State.endAccess_next hout f with e | ⟨a, e⟩
    · cases h.symm.trans e
      exact s.settle_onlyIn.pending
    · cases h.symm.trans e
      exact (State.settle_onlyIn _).pending.trans (hf a)

/-! ## The statements -/

/-- Settles O3: the ends of accesses are the only commands that can stop, and they stop beyond the store alone. -/
theorem onlyAccessesBeyondTheStoreStop : Obligations.OnlyAccessesBeyondTheStoreStop := by
  intro c s
  split
  case isTrue h =>
    obtain ⟨rfl | rfl, a, hp, hout⟩ := h
    · exact State.endAccess_fault hp hout _
    · exact State.endAccess_fault hp hout _
  case isFalse h =>
    have ends (hc : c = .storeAccessEnd ∨ c = .storeAccessTimeout) (f : State → Access → State) :
        ∃ t, s.endAccess f = .next t :=
      (State.endAccess_next (fun hout => h ⟨hc, hout⟩) f).elim (⟨_, ·⟩) fun ⟨_, e⟩ => ⟨_, e⟩
    rcases exec_cases c s with ⟨f, rfl⟩ | rfl | rfl | ⟨u, e, -⟩
    · exact ⟨_, rfl⟩
    · exact ends (.inl rfl) _
    · exact ends (.inr rfl) _
    · exact ⟨_, e⟩

/-- Settles O4: POR and the ends of accesses keep the queue, every other command goes on within its frame. -/
theorem commandsKeepTheirFrames : Obligations.CommandsKeepTheirFrames := by
  refine ⟨fun c s t h => ?queue, fun c b s t hb h => ?frame⟩
  case queue =>
    rcases exec_cases c s with ⟨f, rfl⟩ | rfl | rfl | ⟨u, e, only⟩
    · cases h
      exact ⟨(State.settle_onlyIn _).pending.trans (s.powerOn_pending f), fun hne => absurd rfl (hne f)⟩
    · exact ⟨State.endAccess_pending s.accessEnd_pending h, fun _ hne => absurd rfl hne⟩
    · exact ⟨State.endAccess_pending s.accessError_pending h, fun _ _ hne => absurd rfl hne⟩
    · cases h.symm.trans e
      have settled := u.settle_onlyIn
      refine ⟨settled.pending.trans only.pending, fun _ _ _ => ⟨fun a => ?_, settled.freeCount.trans only.freeCount⟩⟩
      rw [settled.store, only.store]
  case frame =>
    obtain ⟨u, e, only⟩ := exec_goesOnWithin s c (by rintro f rfl; cases hb) (by rintro rfl; cases hb)
      (by rintro rfl; cases hb)
    rw [commandParts, hb] at only
    cases h.symm.trans e
    exact ⟨u, rfl, only⟩

end Sys2Proof.Machine
end

section
/-! PROOF. The Store Port's grants follow R40's precedence (R26, R40, R42, R172). -/

namespace Sys2Proof.Machine

/-! ## Who is granted (R40) -/

theorem State.fetchWaits_iff (s : State) (c : CellId) : s.fetchWaits c = true ↔ (s.cell c).fetch = .waiting :=
  decide_eq_true_iff

/-- Of two waiting fetches the cell's that was not granted last has the turn. -/
theorem State.fetchTurn_some {s : State} {c : CellId} (hc : (s.cell c).fetch = .waiting)
    (hturn : c ≠ s.rsc.lastFetch ∨ ¬ (s.cell (otherCell c)).fetch = .waiting) : s.fetchTurn = some c := by
  unfold State.fetchTurn
  simp only [State.fetchWaits_iff]
  by_cases hlast : c = s.rsc.lastFetch
  · subst hlast
    rw [if_neg (hturn.resolve_left (not_not_intro rfl)), if_pos hc]
  · have hother : otherCell s.rsc.lastFetch = c := by
      cases c <;> cases hl : s.rsc.lastFetch <;> simp_all [otherCell]
    rw [hother, if_pos hc]

theorem State.fetchTurn_none {s : State} (ha : ¬ (s.cell .a).fetch = .waiting) (hb : ¬ (s.cell .b).fetch = .waiting) :
    s.fetchTurn = none := by
  have idle (c : CellId) : ¬ (s.cell c).fetch = .waiting := by cases c <;> assumption
  unfold State.fetchTurn
  simp only [State.fetchWaits_iff]
  rw [if_neg (idle _), if_neg (idle _)]

/-- A grant while an access is in progress changes nothing. -/
theorem State.grant_busy {s : State} (h : s.rsc.port.isSome = true) : s.grant = s := if_pos h

/-- A fetch granted for a program whose record is live (R40). -/
theorem State.grantFetch_live {s : State} {c : CellId} {p : Program} (hp : (s.cell c).program = some p)
    (hlive : (s.live? p.ix).isSome = true) :
    let u := s.setCell c { s.cell c with fetch := .inProgress }
    s.grantFetch c = { u with
      rsc := { u.rsc with
        lastFetch := c
        port := some { who := .fetch c, op := .read (p.offset + 12 * (s.cell c).fetchIndex) 12, since := s.now } } } := by
  unfold State.grantFetch
  split
  · rename_i h
    cases hp.symm.trans h
  · rename_i h
    cases hp.symm.trans h
    rw [if_pos hlive]
    cases c <;> rfl

section
variable {s : State} (hport : s.rsc.port = none) (hstart : s.rsc.startUp = none) (hturn : s.fetchTurn = none)
  (hload : s.loadNow = none)

/-- Without a fetch and a read-back that wait, the loader goes before the other host accesses. -/
theorem State.nextRequestor_loader (hstart : s.rsc.startUp = none) (hturn : s.fetchTurn = none)
    (hreq : ∀ tag o data, s.rsc.hostReq ≠ some (.write tag o data true)) :
    s.nextRequestor = if s.loadNow.isSome then some .loader else s.rsc.hostReq.map hostRequestor := by
  rw [State.nextRequestor, if_neg (by simp [hstart]), hturn]
  split
  · rename_i h
    cases h
  · rename_i h
    exact absurd h (hreq _ _ _)
  · rfl

include hport

theorem State.grant_next : s.grant = match s.nextRequestor with
    | some .startUp => s.grantStartUp
    | some (.fetch c) => s.grantFetch c
    | some .readBack | some .host => s.grantHost
    | some .loader => s.grantLoader
    | none => s := if_neg (by simp [hport])

theorem State.grant_startUp {u : StartUp} (hu : s.rsc.startUp = some u) :
    s.grant = s.openPort .startUp (.read ((if u.directory then 256 else 0) + 64 * u.grant) 64) := by
  rw [State.grant_next hport, State.nextRequestor, if_pos (by simp [hu])]
  simp only [State.grantStartUp, hu]

include hstart

theorem State.grant_fetch {c : CellId} (hturn : s.fetchTurn = some c) : s.grant = s.grantFetch c := by
  rw [State.grant_next hport, State.nextRequestor, if_neg (by simp [hstart]), hturn]

include hturn

theorem State.grant_readBack {tag : Byte} {o : Nat} {data : List Byte} (hreq : s.rsc.hostReq = some (.write tag o data true)) :
    s.grant = s.openPort .readBack (.read (touchedEntries o data.length).1 (touchedEntries o data.length).2) := by
  rw [State.grant_next hport, State.nextRequestor, if_neg (by simp [hstart]), hturn, hreq]
  simp only [State.grantHost, hreq]

theorem State.grant_loader (hreq : ∀ tag o data, s.rsc.hostReq ≠ some (.write tag o data true)) {k : SlotIx} {h : SlotHead}
    {w : ChainWalk} (hload : s.loadNow = some (k, h, w)) :
    s.grant = s.openPort .loader (.read w.nextRead.1 w.nextRead.2) := by
  rw [State.grant_next hport, State.nextRequestor_loader hstart hturn hreq, if_pos (by simp [hload])]
  simp only [State.grantLoader, hload]

include hload

theorem State.grant_nobody (hreq : s.rsc.hostReq = none) : s.grant = s := by
  rw [State.grant_next hport, State.nextRequestor_loader hstart hturn (by simp [hreq]), if_neg (by simp [hload]), hreq]
  rfl

/-- The next access of a host request, but for a read-back, comes last. -/
theorem State.grant_host {r : HostReq} (hreq : s.rsc.hostReq = some r) (hr : hostRequestor r = .host) :
    s.grant = s.grantHost := by
  have notBack : ∀ tag o data, s.rsc.hostReq ≠ some (.write tag o data true) := by
    intro tag o data e
    cases hreq.symm.trans e
    cases hr
  rw [State.grant_next hport, State.nextRequestor_loader hstart hturn notBack, if_neg (by simp [hload]), hreq,
    Option.map_some, hr]

end

/-! ## A host page write (R42) -/

/-- A write of a range touches an extent of a slot. -/
theorem overlaps_any_iff (o n : Nat) (es : List Extent) : es.any (overlaps o n) = true ↔
    ∃ e ∈ es, 0 < n ∧ 0 < e.length ∧ o < e.offset + e.length ∧ e.offset < o + n := by
  simp [overlaps, and_assoc]

/-- The slots that forbid a write: a LOADING one, and a VALID one in use, that it overlaps. -/
theorem slots_forbid_iff (slots : Vector Slot 8) (o n : Nat) : slots.any (Slot.forbids o n) = true ↔
    ∃ k : SlotIx, ∃ h, (slots[k] = .loading h ∨ ∃ q r, slots[k] = .valid h q r ∧ 0 < h.use) ∧
      ∃ e ∈ h.extents, 0 < n ∧ 0 < e.length ∧ o < e.offset + e.length ∧ e.offset < o + n := by
  simp only [← overlaps_any_iff]
  rw [Vector.any_eq_true]
  constructor
  · rintro ⟨i, hi, hf⟩
    refine ⟨⟨i, hi⟩, ?_⟩
    change Slot.forbids o n slots[(⟨i, hi⟩ : SlotIx)] = true at hf
    rcases hs : slots[(⟨i, hi⟩ : SlotIx)] with _ | h | ⟨h, q, r⟩ <;> rw [hs] at hf
    · cases hf
    · exact ⟨h, .inl rfl, hf⟩
    · obtain ⟨huse, hhit⟩ := Bool.and_eq_true_iff.1 hf
      exact ⟨h, .inr ⟨q, r, rfl, of_decide_eq_true huse⟩, hhit⟩
  · rintro ⟨k, h, hs | ⟨q, r, hs, huse⟩, hhit⟩
    · exact ⟨k.val, k.isLt, by rw [show slots[k.val] = _ from hs]; exact hhit⟩
    · exact ⟨k.val, k.isLt, by rw [show slots[k.val] = _ from hs]; simp [Slot.forbids, huse, hhit]⟩

/-- A host page write granted: the access is open, and of the slots those that it overlaps, none in use, are EMPTY. -/
theorem State.grantWrite_opens {s : State} {o : Nat} {data : List Byte}
    (h : ¬ s.rsc.slots.any (Slot.forbids o data.length) = true) (tag : Byte) :
    OnlyIn { rsc := true } s (s.grantWrite tag o data) ∧
    (s.grantWrite tag o data).rsc.port = some { who := .host, op := .write o data, since := s.now } ∧
    ∀ k : SlotIx, (s.grantWrite tag o data).rsc.slots[k] = (s.rsc.slots[k]).afterWrite o data.length := by
  rw [State.grantWrite, if_neg h]
  refine ⟨((s.modRsc_keeps _ rfl).trans (State.openPort_keeps _ _ _)).onlyIn, rfl, fun k => ?_⟩
  exact Vector.getElem_map ..

/-! ## The statement -/

/-- Settles O40, clause by clause in R40's order, then the host page write. -/
theorem grantsFollowThePrecedence : Obligations.GrantsFollowThePrecedence := by
  have granted {s u : State} (h : s.grant = u) : exec .storeGrant s = .next u.settle := State.goesOn_congr h
  refine ⟨fun s => ⟨fun hbusy => ?_, fun hport u hu => ?_, fun hport hstart => ⟨?fetch, fun ha hb => ⟨?readBack,
    fun hreq => ⟨?loader, fun hload => ⟨?nobody, ?read, ?check⟩⟩⟩⟩⟩, ?write⟩
  · exact granted (State.grant_busy hbusy)
  · exact granted (State.grant_startUp hport hu)
  case fetch =>
    intro c p hc hturn hp hlive
    exact granted ((State.grant_fetch hport hstart (State.fetchTurn_some hc hturn)).trans (State.grantFetch_live hp hlive))
  case readBack => exact fun tag o data hreq => granted (State.grant_readBack hport hstart (State.fetchTurn_none ha hb) hreq)
  case loader =>
    exact fun k h w hload => granted (State.grant_loader hport hstart (State.fetchTurn_none ha hb) hreq hload)
  case nobody => exact fun hreq => granted (State.grant_nobody hport hstart (State.fetchTurn_none ha hb) hload hreq)
  case read =>
    intro tag o n got hreq
    refine granted ((State.grant_host hport hstart (State.fetchTurn_none ha hb) hload hreq rfl).trans ?_)
    rw [State.grantHost, hreq]
    rfl
  case check =>
    intro tag w hreq
    refine granted ((State.grant_host hport hstart (State.fetchTurn_none ha hb) hload hreq rfl).trans ?_)
    rw [State.grantHost, hreq]
    rfl
  case write =>
    intro s tag o data hport hstart hturn hload hreq hit blocked
    have forbidden : s.rsc.slots.any (Slot.forbids o data.length) = true ↔ blocked := slots_forbid_iff _ _ _
    have asked : s.grant = s.grantWrite tag o data := by
      rw [State.grant_host hport hstart hturn hload hreq rfl]
      simp only [State.grantHost, hreq]
    refine ⟨fun hb => granted (asked.trans ?_), fun hb => ⟨_, granted asked, ?_⟩⟩
    · rw [State.grantWrite, if_pos (forbidden.2 hb)]
      rfl
    · obtain ⟨only, port, slots⟩ := State.grantWrite_opens (fun h => hb (forbidden.1 h)) tag
      refine ⟨only, port, fun k h q r hs huse => ?_⟩
      have hit_iff : h.extents.any (overlaps o data.length) = true ↔ hit h := overlaps_any_iff _ _ _
      rw [slots, hs]
      exact ⟨fun hh => if_pos ⟨huse, hit_iff.2 hh⟩, fun hh => if_neg fun both => hh (hit_iff.1 both.2)⟩

end Sys2Proof.Machine
end

section
/-! PROOF. STORE_READ, STORE_WRITE and RECIPE_CHECK enter execution or are refused (R31, R41 to R43, R180). -/

namespace Sys2Proof.Machine

/-! ## Requests answered later (R180) -/

/-- A request that the Host Link takes and whose answer is not ready leaves the state that its owner gives it. -/
theorem State.takeRequest_running {s u : State} {r : Request} (ht : s.takesRequest .host = true)
    (ha : wellAsked .host r = true) (tag : Byte) (h : s.dispatch .host tag r = (u, none)) :
    (s.takeRequest .host tag r).goesOn = .next u.settle := by
  refine State.goesOn_congr ?_
  rw [State.takeRequest_host ht ha tag, h]
  rfl

/-! ## Protection (R31) -/

/-- A written byte is unlike the directory copy's. -/
theorem differs_iff (dir : Vector Byte 256) (a : Nat) (data : List Byte) : differs dir a data = true ↔
    ∃ k, ∃ h : k < data.length, ∃ x : Fin 256, a + k = 256 + x.val ∧ dir[x] ≠ data[k] := by
  induction data generalizing a with
  | nil => simp [differs]
  | cons b bs ih =>
    have here : (256 ≤ a ∧ a < 512 ∧ (dir.toList[a - 256]?).getD 0 ≠ b) ↔ ∃ x : Fin 256, a = 256 + x.val ∧ dir[x] ≠ b := by
      constructor
      · rintro ⟨hlow, hhigh, hne⟩
        refine ⟨⟨a - 256, by omega⟩, by simp only; omega, ?_⟩
        simpa [show a - 256 < 256 by omega] using hne
      · rintro ⟨x, rfl, hne⟩
        have hx := x.isLt
        refine ⟨by omega, by omega, ?_⟩
        simpa using hne
    rw [differs, Bool.or_eq_true, ih]
    simp only [Bool.and_eq_true, decide_eq_true_eq, and_assoc, here]
    constructor
    · rintro (⟨x, hx⟩ | ⟨k, hk, x, hx, hne⟩)
      · exact ⟨0, by simp, x, by simpa using hx⟩
      · exact ⟨k + 1, by simpa using hk, x, by omega, by simpa using hne⟩
    · rintro ⟨_ | k, hk, x, hx, hne⟩
      · exact .inl ⟨x, by simpa using hx, by simpa using hne⟩
      · exact .inr ⟨k, by simpa using hk, x, by omega, by simpa using hne⟩

/-- A range that is not empty touches an entry of a recipe 1..q. -/
theorem touchesQualified_iff {q o n : Nat} (hn : 0 < n) : touchesQualified q o n = true ↔
    ∃ a, o ≤ a ∧ a < o + n ∧ 256 ≤ a ∧ a < 256 + 4 * q := by
  simp only [touchesQualified, Bool.and_eq_true, decide_eq_true_eq]
  constructor
  · rintro ⟨⟨hq, hlow⟩, hhigh⟩
    exact ⟨max o 256, by omega, by omega, by omega, by omega⟩
  · rintro ⟨a, ho, hn, hlow, hhigh⟩
    omega

/-- A write within one page touches the locked region exactly when it ends beyond byte 511 and begins below the boundary. -/
theorem touchesLocked_iff {o n b : Nat} (hn : 0 < n) (hpage : o % 64 + n ≤ 64) : (512 < o + n ∧ o < b) ↔
    ∃ a, o ≤ a ∧ a < o + n ∧ 512 ≤ a ∧ a < b := by
  constructor
  · rintro ⟨hlow, hhigh⟩
    exact ⟨o, by omega, by omega, by omega, hhigh⟩
  · rintro ⟨a, ho, hn, hlow, hhigh⟩
    omega

/-- R31's protection in the model, for a write of one page, is the rule's. -/
theorem State.lockedWrite_iff {s : State} {o : Nat} {data : List Byte} (hn : 0 < data.length)
    (hpage : o % 64 + data.length ≤ 64) : s.lockedWrite o data = true ↔ LockedByRule s o data := by
  simp only [State.lockedWrite, LockedByRule, Bool.and_eq_true, Bool.or_eq_true, decide_eq_true_eq, or_assoc,
    touchesQualified_iff hn, differs_iff, touchesLocked_iff hn hpage]

/-- The lengths that STORE_WRITE allows: one byte at least, within one page. -/
theorem wellAsked_storeWrite {o : BitVec 24} {data : List Byte} (h : wellAsked .host (.storeWrite o data) = true) :
    0 < data.length ∧ o.toNat % 64 + data.length ≤ 64 := by
  simp only [wellAsked, Request.lengthOk, rangesOk, Bool.and_eq_true, decide_eq_true_eq] at h
  obtain ⟨⟨-, hlength, -⟩, hpage, -⟩ := h
  exact ⟨hlength, hpage⟩

theorem headerPlaceOk_iff (header : Nat) : headerPlaceOk header = true ↔ 512 ≤ header ∧ header + 16 ≤ 262144 := by
  simp [headerPlaceOk, Config.storeBytes]

/-! ## RECIPE_CHECK (R43) -/

section
variable {s : State} (tag : Byte) {n : Nat}

theorem State.doRecipeCheck_blank (h : s.rsc.storeState = .blank) :
    s.doRecipeCheck tag n = (s, some (.storeBlank, [])) := if_pos h

variable (hstore : s.rsc.storeState ≠ .blank)
include hstore

theorem State.doRecipeCheck_noRecipe (h : entryOffset s.rsc.dir n = 0) :
    s.doRecipeCheck tag n = (s, some (.noRecipe, [])) :=
  (if_neg hstore).trans (if_pos h)

theorem State.doRecipeCheck_bad (h : entryOffset s.rsc.dir n ≠ 0)
    (hplace : entryOffset s.rsc.dir n < 512 ∨ 262144 < entryOffset s.rsc.dir n + 16) :
    s.doRecipeCheck tag n = (s, some (.recipeBad, e24 (entryOffset s.rsc.dir n) ++ [0])) := by
  have outside : (!headerPlaceOk (entryOffset s.rsc.dir n)) = true := by
    rw [Bool.not_eq_true', Bool.eq_false_iff, ne_eq, headerPlaceOk_iff]
    omega
  exact (if_neg hstore).trans ((if_neg h).trans (if_pos outside))

theorem State.doRecipeCheck_runs (hlow : 512 ≤ entryOffset s.rsc.dir n) (hhigh : entryOffset s.rsc.dir n + 16 ≤ 262144) :
    s.doRecipeCheck tag n = (s.setHostReq (some (.check tag (ChainWalk.begin n (entryOffset s.rsc.dir n)))), none) := by
  have inside : ¬ (!headerPlaceOk (entryOffset s.rsc.dir n)) = true := by
    simp [(headerPlaceOk_iff _).2 ⟨hlow, hhigh⟩]
  exact (if_neg hstore).trans ((if_neg (by omega)).trans (if_neg inside))

end

/-! ## The statement -/

/-- Settles O39, request by request: what each does once the Host Link takes it. -/
theorem storeRequestsEnterExecution : Obligations.StoreRequestsEnterExecution := by
  intro s tag n o data ht running header
  refine ⟨fun ha => ?read, fun ha => ?write, fun ha => ?check⟩
  case read => exact State.takeRequest_running ht ha tag rfl
  case write =>
    obtain ⟨hlength, hpage⟩ := wellAsked_storeWrite ha
    have locked := State.lockedWrite_iff (s := s) hlength hpage
    exact ⟨fun h => State.takeRequest_running ht ha tag (if_neg (mt locked.1 h)),
      fun h => State.takeRequest_answered ht ha tag (if_pos (locked.2 h))⟩
  case check =>
    intro refused
    have answered {st : ReplyStatus} {d : List Byte} (h : s.doRecipeCheck tag n.toNat = (s, some (st, d))) : refused st d :=
      State.takeRequest_answered ht ha tag h
    exact ⟨fun hblank => answered (State.doRecipeCheck_blank tag hblank),
      fun hstore hzero => answered (State.doRecipeCheck_noRecipe tag hstore hzero),
      fun hstore hne hplace => answered (State.doRecipeCheck_bad tag hstore hne hplace),
      fun hstore hlow hhigh => State.takeRequest_running ht ha tag (State.doRecipeCheck_runs tag hstore hlow hhigh)⟩

end Sys2Proof.Machine
end

section
/-! PROOF. A walk starts, triggers its points in order, and faults with its positioner (R47 to R51, R58, R61). -/

namespace Sys2Proof.Machine

/-! ## The mask verdicts that a diversion keeps (R19, R58) -/

/-- The mask verdict of every record in use. -/
def Ltk.maskVerdicts (v : Ltk) (i : RecIx) : Option MaskVerdict := (v.table[i]).map CarrierRecord.maskVerdict

theorem State.maskVerdicts_eq (s : State) (i : RecIx) :
    s.ltk.maskVerdicts i = (s.rec? i).map CarrierRecord.maskVerdict := rfl

/-- A record set in the place of one with its mask verdict. -/
theorem State.setRec_maskVerdicts {s : State} {i : RecIx} {r r' : CarrierRecord} (hr : s.rec? i = some r)
    (hv : r'.maskVerdict = r.maskVerdict) : (s.setRec i (some r')).ltk.maskVerdicts = s.ltk.maskVerdicts := by
  funext j
  rw [State.maskVerdicts_eq, State.maskVerdicts_eq, State.setRec_rec]
  split
  next e =>
    rw [e, hr]
    exact congrArg some hv
  next => rfl

@[simp] theorem State.modRec_maskVerdicts (s : State) (i : RecIx) (f : CarrierRecord → CarrierRecord)
    (hf : ∀ r, (f r).maskVerdict = r.maskVerdict) : (s.modRec i f).ltk.maskVerdicts = s.ltk.maskVerdicts := by
  unfold State.modRec
  split
  · exact State.setRec_maskVerdicts ‹_› (hf _)
  · rfl

@[simp] theorem State.bindTo_maskVerdicts (s : State) (w : WaitingBinding) (l : LaneId) :
    (s.bindTo w l).ltk.maskVerdicts = s.ltk.maskVerdicts := by
  unfold State.bindTo
  split
  next => rfl
  next r hr =>
    let t := (s.setLane l { s.lane l with bound := (s.lane l).bound + 1 }).setClass l (some w.cls) .bound
    have same : t.ltk = s.ltk := by simp [t]
    have bound := State.setRec_maskVerdicts (s := t)
      (r' := { r with lane := some l, posInLane := none, status := .active, plan := s.planOnActive w r })
      ((State.rec?_of_ltk same w.ix).trans (State.live?_some hr).1) rfl
    rw [State.queueReport_ltk, ← same]
    exact bound

@[simp] theorem State.retryBinding_maskVerdicts (s : State) : s.retryBinding.ltk.maskVerdicts = s.ltk.maskVerdicts := by
  unfold State.retryBinding State.tryBind
  split
  · split <;> simp
  · rfl

@[simp] theorem State.unbind_maskVerdicts (s : State) (i : RecIx) (cause : LaneCause) :
    (s.unbind i cause).ltk.maskVerdicts = s.ltk.maskVerdicts := by
  unfold State.unbind
  split
  · rfl
  · split
    · rfl
    · dsimp only
      split <;> simp

@[simp] theorem State.enterQueue_maskVerdicts (s : State) (i : RecIx) (stage : Stage) :
    (s.enterQueue i stage).ltk.maskVerdicts = s.ltk.maskVerdicts := by
  unfold State.enterQueue State.modHold
  dsimp only
  split <;> simp

@[simp] theorem State.decideMask_maskVerdicts (s : State) (i : RecIx) :
    (s.decideMask i).ltk.maskVerdicts = s.ltk.maskVerdicts := by
  unfold State.decideMask State.divert
  split
  · split <;> simp
  · rfl

/-! ## A walk that ends (R58, R59) -/

theorem State.endWalk_given (s : State) (h : HeadId) (w : WalkTable) : ResultGiven (s.endWalk h w) h w.ix w.pass := by
  cases h with
  | mask =>
    rw [State.endWalk, State.endMask]
    exact State.giveResult_given _ _ _ _
  | inspect =>
    rw [State.endWalk, State.endInspect]
    exact State.giveResult_given _ _ _ _

/-- A mask walk without a failing point gives the mask verdict OK, also to a record that a retried binding touches. -/
theorem State.endMask_ok {s : State} {w : WalkTable} {r : CarrierRecord} (hr : s.rec? w.ix = some r)
    (hl : r.status.isLive = true) (hall : ∀ y ∈ verdictsOf .mask w, y = .present) :
    ∃ r', (s.endMask w).rec? w.ix = some r' ∧ r'.maskVerdict = .ok := by
  have ok : maskVerdictOf (verdictsOf .mask w) = .ok := maskVerdictOf_ok.2 hall
  have verdict : (s.endMask w).ltk.maskVerdicts w.ix = some .ok := by
    unfold State.endMask
    dsimp only
    rw [ok, if_neg (by simp), State.modLive_eq hr hl, State.modHead_ltk, State.queueReport_ltk,
      State.decideMask_maskVerdicts, State.maskVerdicts_eq, State.setRec_rec_self]
    rfl
  exact Option.map_eq_some_iff.1 verdict

/-! ## WALK_START (R47 to R49) -/

/-- The walk table as a head fills it for a record (R47, R49), with the group that it begins. -/
def filledWalk (s : State) (h : HeadId) (i : RecIx) (r : CarrierRecord) (p : Recipe) (group : List Nat) : WalkTable :=
  { ix := i, pass := r.pass, mode := (walkOf h p).1, points := (walkOf h p).2, group := group, todo := group
    nextGroup := 1, retries := 0, spurious := 0, started := s.now }

section
variable {s : State} {h : HeadId} {i : RecIx} {r : CarrierRecord} {p : Recipe}

theorem State.walkReady_some (hat : s.recordAt (headPlace h) = some i) (hr : s.rec? i = some r)
    (hp : s.recipeOf i = some p) (hidle : (s.head h).state = .idle) (hrun : s.lmf.mode = .run) (hactive : r.status = .active)
    (hcheck : r.tagCheck = .passed) (hmark : (s.head h).given ≠ some { ix := i, pass := r.pass }) :
    s.walkReady h = some (i, r, p) := by
  unfold State.walkReady
  rw [hat]
  dsimp only
  rw [hr, hp]
  exact if_pos ⟨hidle, hrun, hactive, hcheck, hmark⟩

theorem State.walkReady_none (hn : s.lmf.mode ≠ .run ∨ (s.head h).state ≠ .idle ∨ s.recordAt (headPlace h) = none) :
    s.walkReady h = none := by
  unfold State.walkReady
  split
  next => rfl
  next j hat =>
    split
    next =>
      refine if_neg fun ⟨hidle, hrun, _⟩ => ?_
      rcases hn with hmode | hstate | hnone
      · exact hmode hrun
      · exact hstate hidle
      · cases hat.symm.trans hnone
    next => rfl

theorem State.startWalk_none (hn : s.walkReady h = none) : s.startWalk h = s := by
  unfold State.startWalk
  rw [hn]

variable (ready : s.walkReady h = some (i, r, p))
include ready

/-- A walk with points commands the positioner to the first of them (R49, R50). -/
theorem State.startWalk_begins (hp : (walkOf h p).2 ≠ []) :
    s.startWalk h = s.setHead h { s.head h with
      state := .walking, groupTimer := none, posTimer := some { since := s.now, ms := 1000 }
      walk := some (filledWalk s h i r p (groupPoints (walkOf h p).2.length 0)) } := by
  let t := s.modHead h fun v => { v with walk := some (filledWalk s h i r p []) }
  have first : groupPoints (walkOf h p).2.length 0 ≠ [] :=
    List.ne_nil_of_mem (mem_groupPoints.2 ⟨List.length_pos_iff.2 hp, rfl⟩)
  have begun : s.startWalk h = t.beginGroup h (groupPoints (walkOf h p).2.length 0) := by
    unfold State.startWalk
    rw [ready]
    exact if_neg (mt List.isEmpty_iff.1 hp)
  have walk : (t.head h).walk = some (filledWalk s h i r p []) := by rw [State.modHead_head]
  have timer : t.timer Config.positionerMs = { since := s.now, ms := 1000 } := by cases h <;> rfl
  rw [begun, State.beginGroup_head walk first, timer]
  simp only [t, State.modHead, State.setHead_head_self, State.setHead_setHead]
  rfl

/-- A walk without points ends at once (R49). -/
theorem State.startWalk_ends (hp : (walkOf h p).2 = []) :
    s.startWalk h = s.endWalk h { filledWalk s h i r p [] with mode := .full } := by
  unfold State.startWalk
  rw [ready]
  exact if_pos (List.isEmpty_iff.2 hp)

end

/-! ## The positioner (R50, R51) -/

section
variable {s : State} {h : HeadId} {w : WalkTable} {t : Timer} (hw : (s.head h).walk = some w)
  (ht : (s.head h).posTimer = some t)
include hw ht

theorem State.positionerArrival_other : s.positionerArrival h false = s := by
  unfold State.positionerArrival
  rw [hw, ht]

/-- The arrival that answers the command triggers the point, and the next one is commanded (R50). -/
theorem State.positionerArrival_triggers {k : Nat} {rest : List Nat} {e : WalkPoint} (htodo : w.todo = k :: rest)
    (he : w.points[k]? = some e) :
    s.positionerArrival h true = s.setHead h (((s.head h).trigger w k rest e (s.timer Config.resultMs)).command
      (s.timer Config.positionerMs)) := by
  unfold State.positionerArrival
  rw [hw, ht]
  dsimp only
  rw [htodo]
  dsimp only
  rw [he]
  rfl

theorem State.positionTimeout_faults :
    s.positionTimeout h = ((s.expire t).setHead h { (s.head h).emptied with state := .faulted }).noteFault
      .inspectPositionTimeout (.ine h) { ix := some w.ix } := by
  unfold State.positionTimeout
  rw [hw, ht]
  dsimp only
  rw [State.modHead, State.expire_head]

end

/-- What a triggered head is commanded to: the next point, or to evaluate after the last (R50). -/
theorem Head.trigger_command (v : Head) (w : WalkTable) (k : Nat) (rest : List Nat) (e : WalkPoint) (result pos : Timer) :
    (v.trigger w k rest e result).command pos = { v.trigger w k rest e result with
      state := if rest = [] then .evaluating else .walking
      posTimer := if rest = [] then none else some pos } := by
  cases rest with
  | nil => rfl
  | cons j js => rfl

/-! ## The statement -/

/-- Settles O49, command by command: WALK_START with and without a record, the arrivals, the positioner timer's end. -/
theorem walksStartAndTrigger : Obligations.WalksStartAndTrigger := by
  intro s h i r p v
  refine ⟨?start, fun hn => State.goesOn_congr (State.startWalk_none (State.walkReady_none hn)), ?arrival, ?timeout⟩
  case start =>
    intro hat hr hp hidle hrun hactive hcheck hmark g w
    have ready := State.walkReady_some hat hr hp hidle hrun hactive hcheck hmark
    refine ⟨fun hpoints => State.goesOn_congr (State.startWalk_begins ready hpoints), fun hpoints => ?_⟩
    obtain ⟨idle, noWalk, given⟩ := s.endWalk_given h { filledWalk s h i r p [] with mode := .full }
    refine ⟨_, State.goesOn_congr (State.startWalk_ends ready hpoints), idle, noWalk, given, ?_⟩
    rintro rfl
    have live : r.status.isLive = true := by rw [hactive]; rfl
    exact State.endMask_ok (w := { filledWalk s .mask i r p [] with mode := .full }) hr live
      (by simp [verdictsOf, filledWalk, hpoints])
  case arrival =>
    intro w t k rest e hw ht htodo he
    refine ⟨State.goesOn_congr (State.positionerArrival_other hw ht), State.goesOn_congr ?_⟩
    rw [State.positionerArrival_triggers hw ht htodo he, Head.trigger_command]
    rfl
  case timeout => exact fun w t hw ht => State.goesOn_congr (State.positionTimeout_faults hw ht)

end Sys2Proof.Machine
end

section
/-! PROOF. HEAD_CLEAR and LAMP_SET follow the state of head and lamp (R57, R64, R115, R116). -/

namespace Sys2Proof.Machine

/-! ## HEAD_CLEAR (R64) -/

section
variable {s : State} {h : HeadId}

theorem State.clearHead_idle (hs : (s.head h).state = .idle) : s.clearHead h = s := by
  rw [State.clearHead, hs]

theorem State.clearHead_faulted (hs : (s.head h).state = .faulted) :
    s.clearHead h = s.setHead h { s.head h with state := .idle } := by
  rw [State.clearHead, hs]
  rfl

/-- A walk that is cleared is abandoned (R57). -/
theorem State.clearHead_walks (hs : (s.head h).state.walks = true) :
    s.clearHead h = s.setHead h { (s.head h).emptied with state := .idle } := by
  have cleared : s.clearHead h = s.abandonWalk h := by
    unfold State.clearHead
    split
    next faulted => exact nomatch faulted ▸ hs
    next => rfl
    next => rfl
    next idle => exact nomatch idle ▸ hs
  rw [cleared, State.abandonWalk, if_pos hs]
  rfl

end

theorem wellAsked_headClear {v : Byte} {h : HeadId} (hv : headOf v = some h) :
    wellAsked .host (.headClear v) = true := by
  change (headOf v).isSome = true
  rw [hv]
  rfl

theorem State.dispatch_headClear {v : Byte} {h : HeadId} (hv : headOf v = some h) (s : State) (tag : Byte) :
    s.dispatch .host tag (.headClear v) = (s.clearHead h, some (.ok, [])) := by
  change s.withCode (headOf v) s.doHeadClear = _
  rw [hv]
  rfl

/-! ## LAMP_SET (R115, R116) -/

/-- The tunnel with its lamp set and its shutter shut. -/
def State.shutLamp (s : State) (z : Lamp) : State := { s with ctc := { s.ctc with lamp := z, shutterOpen := false } }

@[simp] theorem State.shutLamp_lamp (s : State) (z : Lamp) : (s.shutLamp z).ctc.lamp = z := rfl

/-- A lamp that is neither READY nor LOW has its shutter shut (R118). -/
theorem State.lampTo_shuts {st : LampState} (hready : st ≠ .ready) (hlow : st ≠ .low) (s : State) (z : Lamp)
    (why : LampCause) : (s.setLamp z).lampTo st why =
      (s.shutLamp { z with state := st, count := 0 }).queueReport (.lampState st why s.ctc.measured) := by
  have shut : ((s.setLamp z).setLamp { z with state := st, count := 0 }).evalShutter =
      s.shutLamp { z with state := st, count := 0 } := by
    simp [State.evalShutter, State.setLamp, State.shutLamp, hready, hlow]
  unfold State.lampTo
  dsimp only
  rw [if_neg hlow]
  exact congrArg (State.queueReport · _) shut

/-- A ballast fault that a lamp takes (R116). -/
theorem State.takeBallastFault_faults {s : State} (hs : s.ctc.lamp.state ≠ .fault) :
    s.takeBallastFault = ((s.shutLamp { s.ctc.lamp with
      state := .fault, count := 0, ballastOn := false, warmUp := none }).queueReport
        (.lampState .fault .ballastFault s.ctc.measured)).noteFault .lampFault .ctc {} := by
  rw [State.takeBallastFault, if_neg hs]
  exact congrArg (State.noteFault · _ _ _) (State.lampTo_shuts (by simp) (by simp) s _ _)

/-- A lamp that WARMS: the ballast on, 60 s to go. -/
def State.warmingLamp (s : State) : Lamp :=
  { s.ctc.lamp with state := .warming, count := 0, ballastOn := true, warmUp := some { since := s.now, ms := 60000 } }

/-- The lamp WARMING, its LAMP_STATE queued. -/
def State.warmed (s : State) : State :=
  (s.shutLamp s.warmingLamp).queueReport (.lampState .warming .lampSet s.ctc.measured)

theorem State.warmed_ctc (s : State) : s.warmed.ctc = (s.shutLamp s.warmingLamp).ctc := State.queueReport_ctc _ _

theorem State.startWarming_eq (s : State) :
    s.startWarming = if s.ctc.lamp.ballastFault = true then s.warmed.takeBallastFault else s.warmed := by
  have warmed : (s.setLamp { s.ctc.lamp with ballastOn := true, warmUp := some (s.timer Config.warmUpMs) }).lampTo
      .warming .lampSet = s.warmed := State.lampTo_shuts (by simp) (by simp) s _ _
  have input : s.warmed.ctc.lamp.ballastFault = s.ctc.lamp.ballastFault := by rw [State.warmed_ctc]; rfl
  unfold State.startWarming
  dsimp only
  rw [warmed, input]

/-- An active ballast fault input acts as the lamp begins to warm (R116). -/
theorem State.warmed_faults (s : State) :
    s.warmed.takeBallastFault = ((s.warmed.shutLamp { s.ctc.lamp with
      state := .fault, count := 0, ballastOn := false, warmUp := none }).queueReport
        (.lampState .fault .ballastFault s.ctc.measured)).noteFault .lampFault .ctc {} := by
  have lamp : s.warmed.ctc.lamp = s.warmingLamp := by rw [State.warmed_ctc, State.shutLamp_lamp]
  have measured : s.warmed.ctc.measured = s.ctc.measured := by rw [State.warmed_ctc]; rfl
  rw [State.takeBallastFault_faults (by rw [lamp]; exact nofun), lamp, measured]
  rfl

section
variable {s : State}

theorem State.lampSet_true (hs : s.ctc.lamp.state = .off ∨ s.ctc.lamp.state = .fault) : s.lampSet true = s.startWarming := by
  unfold State.lampSet
  rcases hs with hs | hs <;> rw [hs]

/-- ON leaves a lamp that warms or burns as it is. -/
theorem State.lampSet_true_of_lit (hoff : s.ctc.lamp.state ≠ .off) (hfault : s.ctc.lamp.state ≠ .fault) : s.lampSet true = s := by
  unfold State.lampSet
  cases hs : s.ctc.lamp.state with
  | off => exact absurd hs hoff
  | fault => exact absurd hs hfault
  | warming => rfl
  | ready => rfl
  | low => rfl

theorem State.lampSet_false_of_off (hs : s.ctc.lamp.state = .off) : s.lampSet false = s := by
  unfold State.lampSet
  rw [hs]

theorem State.lampSet_false (hs : s.ctc.lamp.state ≠ .off) :
    s.lampSet false = (s.shutLamp { s.ctc.lamp with
      state := .off, count := 0, ballastOn := false, warmUp := none }).queueReport
        (.lampState .off .lampSet s.ctc.measured) := by
  have off : s.lampSet false = s.lampOff := by
    unfold State.lampSet
    cases hst : s.ctc.lamp.state with
    | off => exact absurd hst hs
    | fault => rfl
    | warming => rfl
    | ready => rfl
    | low => rfl
  exact off.trans (State.lampTo_shuts (by simp) (by simp) s _ _)

end

/-! ## The statement -/

/-- Settles O37, by the states of the head and of the lamp. -/
theorem headClearAndLampSet : Obligations.HeadClearAndLampSet := by
  intro s tag v h ht
  refine ⟨fun hv => ?head, ?on, ?off⟩
  case head =>
    intro reply
    have answered {u : State} (hu : s.clearHead h = u) : reply u :=
      State.takeRequest_answered ht (wellAsked_headClear hv) tag (hu ▸ s.dispatch_headClear hv tag)
    cases hs : (s.head h).state with
    | idle => exact answered (State.clearHead_idle hs)
    | faulted => exact answered (State.clearHead_faulted hs)
    | walking => exact answered (State.clearHead_walks (by rw [hs]; rfl))
    | evaluating => exact answered (State.clearHead_walks (by rw [hs]; rfl))
  case on =>
    rintro rfl
    have answered {u : State} (hu : s.lampSet true = u) :
        exec (.lampSet .host tag 0x01) s = .next (u.answers .host tag (.lampSet 0x01) .ok []).settle :=
      State.takeRequest_answered ht rfl tag (hu ▸ rfl)
    refine ⟨fun hs => ⟨fun hb => ?_, fun hb => ?_⟩, fun hoff hfault => answered (State.lampSet_true_of_lit hoff hfault)⟩
    · exact answered ((State.lampSet_true hs).trans (s.startWarming_eq.trans (if_neg (by simp [hb]))))
    · exact answered ((State.lampSet_true hs).trans (s.startWarming_eq.trans ((if_pos hb).trans s.warmed_faults)))
  case off =>
    rintro rfl
    have answered {u : State} (hu : s.lampSet false = u) :
        exec (.lampSet .host tag 0x00) s = .next (u.answers .host tag (.lampSet 0x00) .ok []).settle :=
      State.takeRequest_answered ht rfl tag (hu ▸ rfl)
    exact ⟨fun hs => answered (State.lampSet_false_of_off hs), fun hs => answered (State.lampSet_false hs)⟩

end Sys2Proof.Machine
end

section
/-! SUPPORT. What each operation of a spray cell leaves in its own cell and in the other one (R75 to R85). -/

namespace Sys2Proof.Machine

/-! ## Its own cell -/

theorem State.modCell_cell (s : State) (c : CellId) (f : SprayCell → SprayCell) : (s.modCell c f).cell c = f (s.cell c) :=
  State.setCell_cell_self s c _

@[simp] theorem State.modLive_cell (s : State) (i : RecIx) (f : CarrierRecord → CarrierRecord) (d : CellId) :
    (s.modLive i f).cell d = s.cell d := by
  unfold State.modLive; split <;> simp

@[simp] theorem State.modLive_now (s : State) (i : RecIx) (f : CarrierRecord → CarrierRecord) :
    (s.modLive i f).now = s.now := by
  unfold State.modLive; split <;> rfl

/-- The cell whose run has been abandoned (R81, R84 step 3). -/
theorem State.abandonRun_cell (s : State) (c : CellId) (i : RecIx) (z : Option Nat) (raise : Bool) :
    (s.abandonRun c i z raise).cell c =
      { s.cell c with
        runZone := (s.cell c).abandonedZone (s.zoneCount i)
        counts := { (s.cell c).counts with abandoned := bump16 (s.cell c).counts.abandoned } } := by
  unfold State.abandonRun
  dsimp only
  rw [State.cell_of_scc ((State.raiseIf_keeps _ _ _ _).scc rfl), State.cell_of_scc ((State.flagZone?_keeps _ _ _).scc rfl),
    State.cell_of_scc ((State.flagZone?_keeps _ _ _).scc rfl), State.modCell_cell]

/-- A record whose program is over: where its spraying ends, the spray-end time set and the film evaluated (R84, R85). -/
def State.filmEnded (s : State) (i : RecIx) (t : LineTime) : State :=
  if s.lastProgram i then (s.modLive i fun r => { r with sprayEnd := some t }).evaluateFilm i else s

theorem State.filmEnded_keeps (s : State) (i : RecIx) (t : LineTime) :
    Keeps { ltk := true, rep := true } s (s.filmEnded i t) := by
  unfold State.filmEnded
  split
  · have ended : Keeps { ltk := true } s (s.modLive i fun r => { r with sprayEnd := some t }) :=
      s.modLive_keeps i _ (fun _ ok => ⟨{ ok with }, le_refl _, le_refl _⟩) fun _ h => h
    exact (ended.mono rfl).trans (State.evaluateFilm_keeps _ i)
  · exact Keeps.refl _ s

/-- What SPRAY_DONE says of a program in a state (R86). -/
def State.sprayDone (s : State) (c : CellId) (p : Program) (o : ProgramOutcome) (f : Option (FaultCode × Nat)) (last : Bool)
    (t : LineTime) : SprayDone :=
  { cell := c, ix := p.ix, pass := p.pass, outcome := o, fault := f, counts := (s.cell c).counts, evaluated := last
    sprayEnd := if last then some t else none }

/-- The end of a program in its steps: the mark, the film, SPRAY_DONE, the cell (R84 steps 5 to 8, R85). -/
theorem State.finishProgram_steps (s : State) (c : CellId) (p : Program) (o : ProgramOutcome) (f : Option (FaultCode × Nat))
    (next : CellState) (cause : CellCause) :
    s.finishProgram c p o f next cause =
      (((((s.markRun c p.ix p.pass).filmEnded p.ix s.now).queueReport
        (.sprayDone (((s.markRun c p.ix p.pass).filmEnded p.ix s.now).sprayDone c p o f
          ((s.markRun c p.ix p.pass).lastProgram p.ix) s.now))).modCell c fun v =>
            { v.stopTimers with program := none, runZone := none, skip := false }).cellTo c next cause (some p.ix)) :=
  rfl

/-- The program-run mark that the end of a program leaves (R84 step 5, R85, R91). -/
def State.markLeft (s : State) (p : Program) : Option RunMark :=
  if (s.live? p.ix).isSome then some { ix := p.ix, pass := p.pass } else none

/-- A cell whose program is over. -/
def SprayCell.finished (v : SprayCell) (mark : Option RunMark) (next : CellState) : SprayCell :=
  { v.stopTimers with runMark := mark, program := none, runZone := none, skip := false, state := next }

theorem State.finishProgram_leaves (s : State) (c : CellId) (p : Program) (o : ProgramOutcome)
    (f : Option (FaultCode × Nat)) (next : CellState) (cause : CellCause) :
    (s.finishProgram c p o f next cause).cell c = (s.cell c).finished (s.markLeft p) next := by
  rw [State.finishProgram_steps, State.cellTo_cell, State.modCell_cell, State.queueReport_cell,
    State.cell_of_scc ((State.filmEnded_keeps _ _ _).scc rfl), State.markRun, State.modCell_cell]
  rfl

/-- A cell whose program has been abandoned, in the state that follows (R84). -/
def SprayCell.abandoned (v : SprayCell) (mark : Option RunMark) (next : CellState) : SprayCell :=
  { ((v.haltFor next).emptied.finished mark next) with counts := { v.counts with abandoned := bump16 v.counts.abandoned } }

/-- A halt shuts the valve and changes nothing else but the gantry (R79). -/
theorem SprayCell.shutAndHalt_eq (v : SprayCell) :
    ∃ g due, v.shutAndHalt = { v with valveOpen := false, gantry := g, haltDue := due } := by
  unfold SprayCell.shutAndHalt
  split
  · exact ⟨_, _, rfl⟩
  · exact ⟨v.gantry, v.haltDue, rfl⟩

/-- So does the halt on the entry to FAULTED (R83). -/
theorem SprayCell.haltFor_eq (v : SprayCell) (next : CellState) :
    ∃ g due, v.haltFor next = { v with valveOpen := false, gantry := g, haltDue := due } := by
  unfold SprayCell.haltFor
  split
  · exact ⟨_, _, rfl⟩
  · exact v.shutAndHalt_eq

theorem SprayCell.haltFor_counts (v : SprayCell) (next : CellState) : (v.haltFor next).counts = v.counts := by
  obtain ⟨g, due, h⟩ := v.haltFor_eq next
  rw [h]

/-- A record stays live or dead where cores are kept. -/
theorem State.live?_isSome_of_core {s t : State} (h : t.ltk.core = s.ltk.core) (i : RecIx) :
    (t.live? i).isSome = (s.live? i).isSome := by
  have read (x : State) : (x.live? i).isSome = (((x.ltk.core.table[i]).map fun r => r.status.isLive).getD false) := by
    unfold State.live? State.rec? Ltk.core
    rcases hx : x.ltk.table[i] with _ | r
    · simp only [Fin.getElem_fin] at hx
      simp [hx]
    · simp only [Fin.getElem_fin] at hx
      cases hl : r.status.isLive <;> simp [hx, hl, CarrierRecord.core]
  rw [read, read, h]

theorem State.markLeft_of_core {s t : State} (h : t.ltk.core = s.ltk.core) (p : Program) : t.markLeft p = s.markLeft p := by
  unfold State.markLeft
  rw [State.live?_isSome_of_core h]

theorem State.abandonProgram_leaves (s : State) (c : CellId) (p : Program) (o : ProgramOutcome)
    (f : Option (FaultCode × Nat)) (z : Option Nat) (next : CellState) (cause : CellCause) :
    (s.abandonProgram c p o f z next cause).cell c = (s.cell c).abandoned (s.markLeft p) next := by
  unfold State.abandonProgram
  dsimp only
  rw [State.finishProgram_leaves, State.modCell_cell, State.abandonRun_cell, State.modCell_cell,
    State.cell_of_scc ((State.cutOff_keeps s c p.ix).scc rfl), State.markLeft_of_core (s := s) (by simp)]
  simp [SprayCell.abandoned, SprayCell.emptied, SprayCell.finished, SprayCell.stopTimers, SprayCell.haltFor_counts]

/-- The cell of a segment that is refused (R68, R82). -/
theorem State.segmentFault_leaves (s : State) (c : CellId) (p : Program) (code : FaultCode) (k : Nat) (z : Option Nat) :
    (s.segmentFault c p code k z).cell c = (s.cell c).abandoned (s.markLeft p) .faulted := by
  unfold State.segmentFault State.faultProgram
  rw [State.abandonProgram_leaves, State.cell_of_scc ((State.noteFault_keeps _ _ _ _).scc rfl),
    State.markLeft_of_core (s := s) (by simp)]

/-- The cell of a program that ends (R85). -/
theorem State.endProgram_leaves (s : State) (c : CellId) (p : Program) :
    (s.endProgram c p).cell c = (s.cell c).emptied.finished (s.markLeft p) .ready := by
  unfold State.endProgram
  rw [State.finishProgram_leaves, State.modCell_cell, State.markLeft_of_core (s := s) (by simp)]

/-- The cell of a segment discarded in a skip (R81). -/
theorem State.discardSegment_leaves (s : State) (c : CellId) (i : RecIx) (g : Segment) :
    ∃ z, (s.discardSegment c i g).cell c =
      { (s.cell c).freeSlot with
        runZone := (s.cell c).runZone.or z
        counts := { (s.cell c).counts with discarded := bump16 (s.cell c).counts.discarded } } := by
  unfold State.discardSegment
  dsimp only
  rw [State.cell_of_scc ((State.flagZone?_keeps _ _ _).scc rfl), State.modCell_cell]
  exact ⟨_, rfl⟩

/-- The cell of a starve (R80). -/
theorem State.starve_leaves (s : State) (c : CellId) (i : RecIx) :
    (s.starve c i).cell c =
      { s.cell c with
        state := .starved, starveTimer := some (s.timer 250)
        counts := { (s.cell c).counts with starves := bump16 (s.cell c).counts.starves } } := by
  unfold State.starve
  dsimp only
  rw [State.cellTo_cell, State.modCell_cell, State.modLive_cell]
  rfl

/-! ## The next segment, by the slot at the execution pointer (R75, R80, R81, R85) -/

section
variable {s : State} {c : CellId} {p : Program} {fuel : Nat}

theorem State.bringNext_idle (hp : (s.cell c).program = none) : s.bringNext c (fuel + 1) = s := by
  rw [State.bringNext]
  simp only [hp]

theorem State.bringNext_empty (hp : (s.cell c).program = some p) (hb : (s.cell c).buffer[(s.cell c).exec] = none) :
    s.bringNext c (fuel + 1) =
      if p.count ≤ p.next then s.endProgram c p else if (s.cell c).skip then s else s.starve c p.ix := by
  rw [State.bringNext]
  simp only [hp]
  rw [hb]

theorem State.bringNext_full {f : Fetched} (hp : (s.cell c).program = some p)
    (hb : (s.cell c).buffer[(s.cell c).exec] = some f) :
    s.bringNext c (fuel + 1) =
      if (enteredByRule (s.cell c) f).skip then
        ((s.modCell c (enteredByRule · f)).discardSegment c p.ix (decodeSegment f.bits)).bringNext c fuel
      else (s.modCell c (enteredByRule · f)).executeSegment c p f.index (decodeSegment f.bits) := by
  have entered : (if (decodeSegment f.bits).runStart ∧ f.index ≠ 0 then s.modCell c SprayCell.newRun else s) =
      s.modCell c (enteredByRule · f) := by
    unfold State.modCell enteredByRule
    split
    · rfl
    · exact (State.setCell_self s c).symm
  rw [State.bringNext]
  simp only [hp]
  rw [hb]
  dsimp only
  rw [entered, State.modCell_cell]

end

/-! ## The other cell -/

/-- Of the two cells at most one changes. -/
def OnlyCell (c : CellId) (s t : State) : Prop := ∀ d, d ≠ c → t.cell d = s.cell d

theorem OnlyCell.refl (c : CellId) (s : State) : OnlyCell c s s := fun _ _ => rfl

theorem OnlyCell.trans {c : CellId} {s t u : State} (h : OnlyCell c s t) (k : OnlyCell c t u) : OnlyCell c s u :=
  fun d hd => (k d hd).trans (h d hd)

/-- An operation that changes no cell. -/
theorem Keeps.onlyCell {b : Blocks} {s t : State} (h : Keeps b s t) (hb : b.scc = false) (c : CellId) : OnlyCell c s t :=
  fun d _ => State.cell_of_scc (h.scc hb) d

theorem State.modLive_onlyCell (s : State) (i : RecIx) (f : CarrierRecord → CarrierRecord) (c : CellId) :
    OnlyCell c s (s.modLive i f) :=
  fun d _ => s.modLive_cell i f d

theorem State.modCell_onlyCell (s : State) (c : CellId) (f : SprayCell → SprayCell) : OnlyCell c s (s.modCell c f) :=
  fun _ hd => s.modCell_cell_of_ne hd f

theorem State.cellTo_onlyCell (s : State) (c : CellId) (st : CellState) (why : CellCause) (i : Option RecIx) :
    OnlyCell c s (s.cellTo c st why i) :=
  fun _ hd => s.cellTo_cell_of_ne hd st why i

theorem State.finishProgram_onlyCell (s : State) (c : CellId) (p : Program) (o : ProgramOutcome)
    (f : Option (FaultCode × Nat)) (next : CellState) (cause : CellCause) :
    OnlyCell c s (s.finishProgram c p o f next cause) :=
  fun _ hd => s.finishProgram_cell_of_ne hd p o f next cause

theorem State.abandonRun_onlyCell (s : State) (c : CellId) (i : RecIx) (z : Option Nat) (raise : Bool) :
    OnlyCell c s (s.abandonRun c i z raise) :=
  (((s.modCell_onlyCell c _).trans ((State.flagZone?_keeps _ _ _).onlyCell rfl c)).trans
    ((State.flagZone?_keeps _ _ _).onlyCell rfl c)).trans ((State.raiseIf_keeps _ _ _ _).onlyCell rfl c)

theorem State.abandonProgram_onlyCell (s : State) (c : CellId) (p : Program) (o : ProgramOutcome)
    (f : Option (FaultCode × Nat)) (z : Option Nat) (next : CellState) (cause : CellCause) :
    OnlyCell c s (s.abandonProgram c p o f z next cause) :=
  (((((s.cutOff_keeps c p.ix).onlyCell rfl c).trans (State.modCell_onlyCell _ c _)).trans
    (State.abandonRun_onlyCell _ c p.ix z _)).trans (State.modCell_onlyCell _ c _)).trans
      (State.finishProgram_onlyCell _ c p o f next cause)

theorem State.segmentFault_onlyCell (s : State) (c : CellId) (p : Program) (code : FaultCode) (k : Nat) (z : Option Nat) :
    OnlyCell c s (s.segmentFault c p code k z) :=
  ((s.noteFault_keeps _ _ _).onlyCell rfl c).trans (State.abandonProgram_onlyCell _ c p _ _ z _ _)

theorem State.endProgram_onlyCell (s : State) (c : CellId) (p : Program) : OnlyCell c s (s.endProgram c p) :=
  (s.modCell_onlyCell c _).trans (State.finishProgram_onlyCell _ c p _ _ _ _)

theorem State.beginMotion_onlyCell (s : State) (c : CellId) (e : Executing) : OnlyCell c s (s.beginMotion c e) :=
  s.modCell_onlyCell c _

theorem State.beginStroke_onlyCell (s : State) (c : CellId) (e : Executing) : OnlyCell c s (s.beginStroke c e) := by
  unfold State.beginStroke
  dsimp only
  split
  · exact s.beginMotion_onlyCell c e
  · split
    · exact (s.modCell_onlyCell c _).trans (State.beginMotion_onlyCell _ c e)
    · exact (s.modCell_onlyCell c _).trans (State.modCell_onlyCell _ c _)

theorem State.beginSegment_onlyCell (s : State) (c : CellId) (e : Executing) : OnlyCell c s (s.beginSegment c e) := by
  unfold State.beginSegment
  split
  · exact s.beginStroke_onlyCell c e
  · exact s.modCell_onlyCell c _

theorem State.formSegment_onlyCell (s : State) (c : CellId) (p : Program) (m : Material) (k : SegKind) (q : GantryPos)
    (g : Segment) : OnlyCell c s (s.formSegment c p m k q g) := by
  unfold State.formSegment
  dsimp only
  split
  · exact ((s.modLive_onlyCell _ _ c).trans (State.modCell_onlyCell _ c _)).trans (State.beginSegment_onlyCell _ c _)
  · exact (s.modCell_onlyCell c _).trans (State.beginSegment_onlyCell _ c _)

theorem State.executeSegment_onlyCell (s : State) (c : CellId) (p : Program) (k : Nat) (g : Segment) :
    OnlyCell c s (s.executeSegment c p k g) := by
  unfold State.executeSegment
  split
  · split
    · exact s.segmentFault_onlyCell c p _ _ _
    · exact s.formSegment_onlyCell c p _ _ _ g
  · exact s.segmentFault_onlyCell c p _ _ _

theorem State.discardSegment_onlyCell (s : State) (c : CellId) (i : RecIx) (g : Segment) :
    OnlyCell c s (s.discardSegment c i g) :=
  (s.modCell_onlyCell c _).trans ((State.flagZone?_keeps _ _ _).onlyCell rfl c)

theorem State.starve_onlyCell (s : State) (c : CellId) (i : RecIx) : OnlyCell c s (s.starve c i) :=
  ((s.modLive_onlyCell _ _ c).trans (State.modCell_onlyCell _ c _)).trans (State.cellTo_onlyCell _ c _ _ _)

theorem State.bringNext_onlyCell (c : CellId) (fuel : Nat) : ∀ s : State, OnlyCell c s (s.bringNext c fuel) := by
  induction fuel with
  | zero => exact OnlyCell.refl c
  | succ fuel ih =>
    intro s
    rcases hp : (s.cell c).program with _ | p
    · rw [State.bringNext_idle hp]
      exact OnlyCell.refl c s
    · rcases hb : (s.cell c).buffer[(s.cell c).exec] with _ | f
      · rw [State.bringNext_empty hp hb]
        split
        · exact s.endProgram_onlyCell c p
        · split
          · exact OnlyCell.refl c s
          · exact s.starve_onlyCell c p.ix
      · rw [State.bringNext_full hp hb]
        have entered := s.modCell_onlyCell c (enteredByRule · f)
        split
        · exact (entered.trans (State.discardSegment_onlyCell _ c _ _)).trans (ih _)
        · exact entered.trans (State.executeSegment_onlyCell _ c p _ _)

theorem State.nextSegment_onlyCell (s : State) (c : CellId) : OnlyCell c s (s.nextSegment c) := State.bringNext_onlyCell c 6 s

end Sys2Proof.Machine
end

section
/-! SUPPORT. The law that ties a cell's program, execution and valve (R78, R83, R89, R91), cell by cell: what a lawful cell
is, when a step keeps the law, and that what a cell does in its program does. -/

namespace Sys2Proof.Machine

/-! ## Lawful cells -/

/-- A cell works while it has a program, executes only while it runs one, and has its valve open only in the LEAD or MOTION of
a segment that sprays (R78, R83). -/
structure SprayCell.Lawful (v : SprayCell) : Prop where
  program : v.program.isSome = true → v.state.working = true
  executing : ∀ e, v.executing = some e →
    v.program.isSome = true ∧ v.state = .running ∧ (0 < e.feff → e.seg.kind = some .spray)
  valve : v.valveOpen = true → ∃ e, v.executing = some e ∧ e.phase ≠ .seek ∧ 0 < e.feff

/-- A program of a record can be in progress: the line is in RUN or PAUSE and the record in its pass (R89, R91). -/
def State.LetsRun (s : State) (i : RecIx) : Prop :=
  (s.lmf.mode = .run ∨ s.lmf.mode = .pause) ∧ ∃ r, s.rec? i = some r ∧ r.status.inPass = true

theorem cellOk_iff (s : State) (c : CellId) :
    CellOk s c ↔ (s.cell c).Lawful ∧ ∀ p, (s.cell c).program = some p → s.LetsRun p.ix := by
  constructor
  · rintro ⟨program, executing, valve⟩
    refine ⟨⟨fun hp => ?_, executing, valve⟩, fun p hp => ⟨(program p hp).1, (program p hp).2.2⟩⟩
    obtain ⟨p, hp⟩ := Option.isSome_iff_exists.1 hp
    exact (program p hp).2.1
  · rintro ⟨⟨program, executing, valve⟩, lets⟩
    exact ⟨fun p hp => ⟨(lets p hp).1, program (by simp [hp]), (lets p hp).2⟩, executing, valve⟩

/-- A cell without a program, a segment or an open valve. -/
structure SprayCell.Resting (v : SprayCell) : Prop where
  program : v.program = none
  executing : v.executing = none
  valve : v.valveOpen = false

theorem SprayCell.Resting.lawful {v : SprayCell} (h : v.Resting) : v.Lawful where
  program hp := by rw [h.program] at hp; cases hp
  executing e he := by rw [h.executing] at he; cases he
  valve hv := by rw [h.valve] at hv; cases hv

/-- A resting cell keeps its law in any state. -/
theorem SprayCell.Resting.cellOk {s : State} {c : CellId} (h : (s.cell c).Resting) : CellOk s c :=
  (cellOk_iff s c).2 ⟨h.lawful, fun p hp => by rw [h.program] at hp; cases hp⟩

/-- A lawful cell without a program rests. -/
theorem SprayCell.Lawful.resting {v : SprayCell} (h : v.Lawful) (hp : v.program = none) : v.Resting := by
  have executing : v.executing = none := Option.eq_none_iff_forall_ne_some.2 fun e he => by
    have := (h.executing e he).1
    rw [hp] at this
    cases this
  refine ⟨hp, executing, Bool.eq_false_iff.2 fun hv => ?_⟩
  obtain ⟨e, he, -⟩ := h.valve hv
  rw [executing] at he
  cases he

/-- A lawful cell that does not work rests. -/
theorem SprayCell.Lawful.resting_of_idle {v : SprayCell} (h : v.Lawful) (hs : v.state.working = false) : v.Resting :=
  h.resting (Option.not_isSome_iff_eq_none.1 fun hp => by rw [h.program hp] at hs; cases hs)

/-- A lawful cell that does not run executes nothing and has its valve shut. -/
theorem SprayCell.Lawful.shut {v : SprayCell} (h : v.Lawful) (he : v.executing = none) : v.valveOpen = false :=
  Bool.eq_false_iff.2 fun hv => by
    obtain ⟨e, he', -⟩ := h.valve hv
    rw [he] at he'
    cases he'

theorem SprayCell.Lawful.executes_nothing {v : SprayCell} (h : v.Lawful) (hs : v.state ≠ .running) : v.executing = none :=
  Option.eq_none_iff_forall_ne_some.2 fun e he => hs (h.executing e he).2.1

/-- A lawful cell that follows another: a program that it has is of the record whose program the other has. -/
structure SprayCell.LawfulAfter (v w : SprayCell) : Prop where
  lawful : w.Lawful
  continues : ∀ q, w.program = some q → ∃ p, v.program = some p ∧ p.ix = q.ix

theorem SprayCell.Resting.after {v w : SprayCell} (h : w.Resting) : v.LawfulAfter w :=
  ⟨h.lawful, fun q hq => by rw [h.program] at hq; cases hq⟩

/-- A lawful cell with the program of the other. -/
theorem SprayCell.LawfulAfter.of_lawful {v w : SprayCell} (h : w.Lawful) (hp : w.program = v.program) : v.LawfulAfter w :=
  ⟨h, fun q hq => ⟨q, hp ▸ hq, rfl⟩⟩

/-- A working cell that goes on with its program, executes nothing and has its valve shut. -/
theorem SprayCell.LawfulAfter.of_shut {v w : SprayCell} (hp : w.program = v.program) (hs : w.state.working = true)
    (he : w.executing = none) (hv : w.valveOpen = false) : v.LawfulAfter w :=
  .of_lawful ⟨fun _ => hs, fun e h => (by rw [he] at h; cases h), fun h => (by rw [hv] at h; cases h)⟩ hp

/-- A cell that runs a segment of its program, which has flow only when it sprays. -/
theorem SprayCell.LawfulAfter.of_executing {v w : SprayCell} {e : Executing} (hp : w.program = v.program)
    (hprogram : v.program.isSome = true) (hs : w.state = .running) (he : w.executing = some e)
    (hk : 0 < e.feff → e.seg.kind = some .spray) (hv : w.valveOpen = true → e.phase ≠ .seek ∧ 0 < e.feff) :
    v.LawfulAfter w :=
  .of_lawful ⟨fun _ => by rw [hs]; rfl, fun d hd => by cases he.symm.trans hd; exact ⟨hp ▸ hprogram, hs, hk⟩,
    fun h => ⟨e, he, hv h⟩⟩ hp

theorem SprayCell.LawfulAfter.trans {u v w : SprayCell} (h : v.LawfulAfter w)
    (k : ∀ q, v.program = some q → ∃ p, u.program = some p ∧ p.ix = q.ix) : u.LawfulAfter w :=
  ⟨h.lawful, fun q hq => by
    obtain ⟨p, hp, e⟩ := h.continues q hq
    obtain ⟨p', hp', e'⟩ := k p hp
    exact ⟨p', hp', e'.trans e⟩⟩

/-- The program, state, execution and valve of two cells agree. -/
structure SprayCell.SameWork (v w : SprayCell) : Prop where
  program : w.program = v.program
  state : w.state = v.state
  executing : w.executing = v.executing
  valve : w.valveOpen = v.valveOpen

theorem SprayCell.SameWork.of_eq {v w : SprayCell} (h : w = v) : v.SameWork w := by subst h; exact ⟨rfl, rfl, rfl, rfl⟩

theorem SprayCell.SameWork.trans {u v w : SprayCell} (h : u.SameWork v) (k : v.SameWork w) : u.SameWork w :=
  ⟨k.program.trans h.program, k.state.trans h.state, k.executing.trans h.executing, k.valve.trans h.valve⟩

theorem SprayCell.Lawful.same {v w : SprayCell} (h : v.Lawful) (k : v.SameWork w) : w.Lawful := by
  obtain ⟨hp, hs, he, hv⟩ := k
  exact ⟨by rw [hp, hs]; exact h.program, by rw [he, hp, hs]; exact h.executing, by rw [hv, he]; exact h.valve⟩

/-! ## Steps that keep the law -/

/-- A step keeps the law of both cells. -/
def KeepsCellLaw (s t : State) : Prop := CellLaw s → CellLaw t

theorem KeepsCellLaw.refl (s : State) : KeepsCellLaw s s := id

theorem KeepsCellLaw.trans {s t u : State} (h : KeepsCellLaw s t) (k : KeepsCellLaw t u) : KeepsCellLaw s u := k ∘ h

/-- A program that can be in progress still can where the mode stays and no record leaves its pass. -/
theorem OnlyIn.letsRun {b : Blocks} {s t : State} (h : OnlyIn b s t) (hm : b.mode = false) (hp : b.pass = false)
    {i : RecIx} (hi : s.LetsRun i) : t.LetsRun i := by
  obtain ⟨mode, r, hr, pass⟩ := hi
  exact ⟨by rw [h.mode hm]; exact mode, h.pass hp i r hr pass⟩

/-- A step that changes neither program, state, execution or valve of a cell, under a line that still lets both run. -/
theorem KeepsCellLaw.of_sameWork {s t : State} (cells : ∀ c, (s.cell c).SameWork (t.cell c))
    (lets : ∀ i, s.LetsRun i → t.LetsRun i) : KeepsCellLaw s t := fun law c =>
  have ⟨lawful, run⟩ := (cellOk_iff s c).1 (law c)
  (cellOk_iff t c).2 ⟨lawful.same (cells c), fun p hp => lets _ (run p ((cells c).program ▸ hp))⟩

/-- The parts whose change leaves the law as it is: all but the cells, the line mode and the records' leaving their pass. -/
def Blocks.apart (b : Blocks) : Bool := !b.scc && !b.mode && !b.pass

theorem OnlyIn.keepsCellLaw {b : Blocks} {s t : State} (h : OnlyIn b s t) (hb : b.apart = true) : KeepsCellLaw s t := by
  simp only [Blocks.apart, Bool.and_eq_true, Bool.not_eq_true'] at hb
  obtain ⟨⟨hs, hm⟩, hp⟩ := hb
  exact .of_sameWork (fun c => .of_eq (State.cell_of_scc (h.scc hs) c)) fun _ => h.letsRun hm hp

theorem Keeps.keepsCellLaw {b : Blocks} {s t : State} (h : Keeps b s t) (hb : b.apart = true) : KeepsCellLaw s t :=
  h.onlyIn.keepsCellLaw hb

theorem KeepsCellLaw.foldl {α : Type} {f : State → α → State} (hf : ∀ t x, KeepsCellLaw t (f t x)) (xs : List α)
    (s : State) : KeepsCellLaw s (xs.foldl f s) := by
  induction xs generalizing s with
  | nil => exact KeepsCellLaw.refl s
  | cons x xs ih => exact (hf s x).trans (ih _)

/-- What one cell does keeps the law when, from a lawful cell, it leaves a lawful one that goes on for the same record. -/
theorem KeepsCellLaw.of_cell {b : Blocks} {s t : State} {c : CellId} (h : Keeps b s t) (hm : b.mode = false)
    (hp : b.pass = false) (other : OnlyCell c s t) (own : (s.cell c).Lawful → (s.cell c).LawfulAfter (t.cell c)) :
    KeepsCellLaw s t := fun law d => by
  obtain ⟨lawful, run⟩ := (cellOk_iff s d).1 (law d)
  refine (cellOk_iff t d).2 ?_
  by_cases hd : d = c
  · subst hd
    obtain ⟨after, continues⟩ := own lawful
    refine ⟨after, fun q hq => ?_⟩
    obtain ⟨p, hp', e⟩ := continues q hq
    exact h.onlyIn.letsRun hm hp (e ▸ run p hp')
  · rw [other d hd]
    exact ⟨lawful, fun p hp' => h.onlyIn.letsRun hm hp (run p hp')⟩

/-! ## A program abandoned or ended leaves its cell resting (R84, R85) -/

theorem SprayCell.haltFor_valve (v : SprayCell) (next : CellState) : (v.haltFor next).valveOpen = false := by
  obtain ⟨g, due, h⟩ := v.haltFor_eq next
  rw [h]

theorem SprayCell.abandoned_resting (v : SprayCell) (mark : Option RunMark) (next : CellState) :
    (v.abandoned mark next).Resting := ⟨rfl, rfl, v.haltFor_valve next⟩

theorem State.abandonProgram_resting (s : State) (c : CellId) (p : Program) (o : ProgramOutcome)
    (f : Option (FaultCode × Nat)) (z : Option Nat) (next : CellState) (cause : CellCause) :
    ((s.abandonProgram c p o f z next cause).cell c).Resting := by
  rw [State.abandonProgram_leaves]
  exact SprayCell.abandoned_resting _ _ _

theorem State.segmentFault_resting (s : State) (c : CellId) (p : Program) (code : FaultCode) (k : Nat) (z : Option Nat) :
    ((s.segmentFault c p code k z).cell c).Resting := by
  rw [State.segmentFault_leaves]
  exact SprayCell.abandoned_resting _ _ _

theorem State.abandonProgram_keepsCellLaw (s : State) (c : CellId) (p : Program) (o : ProgramOutcome)
    (f : Option (FaultCode × Nat)) (z : Option Nat) (next : CellState) (cause : CellCause) :
    KeepsCellLaw s (s.abandonProgram c p o f z next cause) :=
  .of_cell (s.abandonProgram_keeps c p o f z next cause) rfl rfl (s.abandonProgram_onlyCell c p o f z next cause)
    fun _ => (s.abandonProgram_resting c p o f z next cause).after

/-! ## The next segment (R75, R80 to R82, R85) -/

/-- A RUNNING cell between two segments of its program. -/
structure SprayCell.Between (v : SprayCell) : Prop where
  program : v.program.isSome = true
  state : v.state = .running
  executing : v.executing = none
  valve : v.valveOpen = false

theorem SprayCell.Between.lawful {v : SprayCell} (h : v.Between) : v.Lawful where
  program _ := by rw [h.state]; rfl
  executing e he := by rw [h.executing] at he; cases he
  valve hv := by rw [h.valve] at hv; cases hv

/-- A segment with flow only when it sprays is begun lawfully (R75 to R78). -/
theorem SprayCell.Between.begun {v : SprayCell} (h : v.Between) (now : LineTime) {e : Executing}
    (hk : 0 < e.feff → e.seg.kind = some .spray) : v.LawfulAfter (begunByRule now v e) := by
  have valve {P : Prop} (hv : v.valveOpen = true) : P := by rw [h.valve] at hv; cases hv
  unfold begunByRule
  dsimp only
  split
  · exact .of_executing rfl h.program h.state rfl hk valve
  · split
    · exact .of_executing rfl h.program h.state rfl hk valve
    · rename_i hflow
      have opens : 0 < e.feff := Nat.pos_of_ne_zero hflow
      split
      · exact .of_executing rfl h.program h.state rfl hk fun _ => ⟨nofun, opens⟩
      · exact .of_executing rfl h.program h.state rfl hk fun _ => ⟨nofun, opens⟩

theorem formValues_sprays {zones : Nat} {g : Segment} {k : SegKind} {q : GantryPos} (h : checkSegment zones g = some (k, q))
    (m : Material) (fmax : Nat) : 0 < (formValues m fmax k q g).feff → (formValues m fmax k q g).seg.kind = some .spray := by
  intro hflow
  cases k with
  | move => exact absurd hflow (lt_irrefl 0)
  | spray => exact (checkSegment_eq_some.1 h).1

section
variable {s : State} {c : CellId} (h : (s.cell c).Between)
include h

theorem State.formSegment_lawful (p : Program) (m : Material) {zones : Nat} {k : SegKind} {q : GantryPos} {g : Segment}
    (hg : checkSegment zones g = some (k, q)) : (s.cell c).LawfulAfter ((s.formSegment c p m k q g).cell c) := by
  have begun (t : State) (ht : t.cell c = s.cell c) (z : Option Nat) (fmax : Nat) :
      (s.cell c).LawfulAfter
        (((t.modCell c fun v => { v with runZone := z }).beginSegment c (formValues m fmax k q g)).cell c) := by
    have between : ({ s.cell c with runZone := z } : SprayCell).Between := ⟨h.program, h.state, h.executing, h.valve⟩
    rw [State.beginSegment_eq _ _ _ (by rw [State.modCell_cell, ht]; exact h.valve), State.setCell_cell_self,
      State.modCell_cell, ht]
    exact (between.begun _ (formValues_sprays hg m fmax)).trans fun p hp => ⟨p, hp, rfl⟩
  have zone (t : State) :
      (t.modCell c fun v => { v with runZone := if k = .spray then v.runZone.or (some g.zone) else v.runZone })
      = t.modCell c fun v =>
        { v with runZone := if k = .spray then (t.cell c).runZone.or (some g.zone) else (t.cell c).runZone } := rfl
  unfold State.formSegment
  dsimp only
  rw [zone]
  split
  · exact begun _ (State.modLive_cell _ _ _ _) _ _
  · exact begun s rfl _ _

theorem State.executeSegment_lawful (p : Program) (k : Nat) (g : Segment) :
    (s.cell c).LawfulAfter ((s.executeSegment c p k g).cell c) := by
  unfold State.executeSegment
  split
  · rename_i hg _
    split
    · exact (s.segmentFault_resting c p _ _ _).after
    · exact State.formSegment_lawful h p _ hg
  · exact (s.segmentFault_resting c p _ _ _).after

end

theorem SprayCell.Between.entered {v : SprayCell} (h : v.Between) (f : Fetched) :
    (enteredByRule v f).Between ∧ (enteredByRule v f).program = v.program := by
  unfold enteredByRule
  split
  · exact ⟨⟨h.program, h.state, h.executing, h.valve⟩, rfl⟩
  · exact ⟨h, rfl⟩

theorem State.bringNext_lawful (c : CellId) (fuel : Nat) : ∀ s : State, (s.cell c).Between →
    (s.cell c).LawfulAfter ((s.bringNext c fuel).cell c) := by
  induction fuel with
  | zero => exact fun s h => .of_lawful h.lawful rfl
  | succ fuel ih =>
    intro s h
    obtain ⟨p, hp⟩ := Option.isSome_iff_exists.1 h.program
    rcases hb : (s.cell c).buffer[(s.cell c).exec] with _ | f
    · rw [State.bringNext_empty hp hb]
      split
      · rw [State.endProgram_leaves]
        exact SprayCell.Resting.after ⟨rfl, rfl, h.valve⟩
      · split
        · exact .of_lawful h.lawful rfl
        · rw [State.starve_leaves]
          exact .of_shut rfl rfl h.executing h.valve
    · rw [State.bringNext_full hp hb]
      obtain ⟨between, same⟩ := h.entered f
      rw [← State.modCell_cell s c (enteredByRule · f)] at between same
      generalize s.modCell c (enteredByRule · f) = t at between same
      have continues (q : Program) (hq : (t.cell c).program = some q) : ∃ p, (s.cell c).program = some p ∧ p.ix = q.ix :=
        ⟨q, same ▸ hq, rfl⟩
      split
      · obtain ⟨z, hz⟩ := t.discardSegment_leaves c p.ix (decodeSegment f.bits)
        have freed : ((t.discardSegment c p.ix (decodeSegment f.bits)).cell c).Between := by
          rw [hz]
          exact ⟨by simpa [SprayCell.freeSlot] using between.program, between.state, rfl, between.valve⟩
        refine ((ih _ freed).trans fun q hq => ?_).trans continues
        rw [hz] at hq
        obtain ⟨p', hp', rfl⟩ := Option.map_eq_some_iff.1 hq
        exact ⟨p', hp', rfl⟩
      · exact (State.executeSegment_lawful between p _ _).trans continues

theorem State.nextSegment_lawful {s : State} {c : CellId} (h : (s.cell c).Between) :
    (s.cell c).LawfulAfter ((s.nextSegment c).cell c) := State.bringNext_lawful c 6 s h

end Sys2Proof.Machine
end

section
/-! PROOF. The cells' own events keep the law of program, execution and valve (R70 to R91). -/

namespace Sys2Proof.Machine

/-! ## A stroke begun (R77) -/

/-- A cell in MOTION (R77). -/
def SprayCell.inMotion (v : SprayCell) (now : LineTime) (e : Executing) : SprayCell :=
  { v with
    executing := some { e with phase := .motion }
    gantryTimer := some { since := now, ms := e.time + 2000 }
    valveTimer := if v.valveOpen then some { since := now, ms := e.time - e.trail } else none }

/-- A cell in LEAD (R77). -/
def SprayCell.inLead (v : SprayCell) (now : LineTime) (e : Executing) : SprayCell :=
  { v with
    executing := some { e with phase := .lead }, valveOpen := true, leadTimer := some { since := now, ms := e.lead } }

theorem State.beginMotion_eq (s : State) (c : CellId) (e : Executing) :
    s.beginMotion c e = s.setCell c ((s.cell c).inMotion s.now e) := rfl

theorem State.beginStroke_of_dry {e : Executing} (hf : e.feff = 0) (s : State) (c : CellId) :
    s.beginStroke c e = s.setCell c ((s.cell c).inMotion s.now e) := by
  rw [State.beginStroke, if_pos hf, State.beginMotion_eq]

theorem State.beginStroke_of_noLead {e : Executing} (hf : 0 < e.feff) (hl : e.lead = 0) (s : State) (c : CellId) :
    s.beginStroke c e = s.setCell c (({ s.cell c with valveOpen := true } : SprayCell).inMotion s.now e) := by
  rw [State.beginStroke, if_neg hf.ne']
  dsimp only
  rw [if_pos hl, State.beginMotion_eq]
  simp only [State.modCell, State.setCell_setCell, State.setCell_cell_self, State.setCell_now]

theorem State.beginStroke_of_lead {e : Executing} (hf : 0 < e.feff) (hl : e.lead ≠ 0) (s : State) (c : CellId) :
    s.beginStroke c e = s.setCell c ((s.cell c).inLead s.now e) := by
  rw [State.beginStroke, if_neg hf.ne']
  dsimp only
  rw [if_neg hl]
  simp only [State.modCell, State.setCell_setCell, State.setCell_cell_self, State.timer]
  rfl

/-- A lawful cell that executes a segment in another phase than SEEK. -/
theorem SprayCell.Lawful.phased {v w : SprayCell} {e : Executing} (h : v.Lawful) (he : v.executing = some e) {ph : Phase}
    (hp : w.program = v.program) (hs : w.state = v.state) (hw : w.executing = some { e with phase := ph })
    (hv : w.valveOpen = true → ph ≠ .seek ∧ 0 < e.feff) : v.LawfulAfter w := by
  obtain ⟨program, state, kind⟩ := h.executing e he
  exact .of_executing hp program (hs.trans state) hw kind hv

/-- The stroke begun after a seek is lawful (R77, R78). -/
theorem State.beginStroke_lawful {s : State} {c : CellId} {e : Executing} (h : (s.cell c).Lawful)
    (he : (s.cell c).executing = some e) (hph : e.phase = .seek) :
    (s.cell c).LawfulAfter ((s.beginStroke c e).cell c) := by
  have shut : (s.cell c).valveOpen = false := Bool.eq_false_iff.2 fun hv => by
    obtain ⟨d, hd, moving, -⟩ := h.valve hv
    exact moving (Option.some.inj (he.symm.trans hd) ▸ hph)
  rcases Nat.eq_zero_or_pos e.feff with hf | hf
  · rw [State.beginStroke_of_dry hf, State.setCell_cell_self]
    exact h.phased he rfl rfl rfl fun hv => by cases shut.symm.trans hv
  · by_cases hl : e.lead = 0
    · rw [State.beginStroke_of_noLead hf hl, State.setCell_cell_self]
      exact h.phased he rfl rfl rfl fun _ => ⟨nofun, hf⟩
    · rw [State.beginStroke_of_lead hf hl, State.setCell_cell_self]
      exact h.phased he rfl rfl rfl fun _ => ⟨nofun, hf⟩

/-! ## One cell changed -/

theorem SprayCell.SameWork.after {v w : SprayCell} (k : v.SameWork w) (h : v.Lawful) : v.LawfulAfter w :=
  .of_lawful (h.same k) k.program

theorem State.modCell_keepsCellLaw (s : State) (c : CellId) {f : SprayCell → SprayCell}
    (hf : (s.cell c).Lawful → (s.cell c).LawfulAfter (f (s.cell c))) : KeepsCellLaw s (s.modCell c f) :=
  .of_cell (s.modCell_keeps c f) rfl rfl (s.modCell_onlyCell c f) (by rw [State.modCell_cell]; exact hf)

theorem State.modCell_keepsWork (s : State) (c : CellId) {f : SprayCell → SprayCell}
    (hf : (s.cell c).SameWork (f (s.cell c))) : KeepsCellLaw s (s.modCell c f) := s.modCell_keepsCellLaw c hf.after

/-- A cell that does not work goes to another state. -/
theorem State.cellTo_keepsCellLaw (s : State) {c : CellId} (hs : (s.cell c).state.working = false) (st : CellState)
    (why : CellCause) (i : Option RecIx) : KeepsCellLaw s (s.cellTo c st why i) :=
  .of_cell (s.cellTo_keeps c st why i) rfl rfl (s.cellTo_onlyCell c st why i) fun h => by
    obtain ⟨program, executing, valve⟩ := h.resting_of_idle hs
    rw [State.cellTo_cell]
    exact SprayCell.Resting.after ⟨program, executing, valve⟩

/-- A step of one cell to a resting one. -/
theorem KeepsCellLaw.of_resting {b : Blocks} {s t : State} {c : CellId} (h : Keeps b s t) (hm : b.mode = false)
    (hp : b.pass = false) (other : OnlyCell c s t) (rests : (s.cell c).Lawful → (t.cell c).Resting) : KeepsCellLaw s t :=
  .of_cell h hm hp other fun lawful => (rests lawful).after

/-! ## Homing, seeking and strokes (R70 to R79) -/

theorem State.expire_keepsCellLaw (s : State) (t : Timer) : KeepsCellLaw s (s.expire t) := (s.expire_keeps t).keepsCellLaw rfl

theorem State.noteFault_keepsCellLaw (s : State) (code : FaultCode) (o : Origin) (d : FaultDetail) :
    KeepsCellLaw s (s.noteFault code o d) := (s.noteFault_keeps code o d).keepsCellLaw rfl

@[simp] theorem State.expire_cell (s : State) (t : Timer) (c : CellId) : (s.expire t).cell c = s.cell c :=
  State.cell_of_scc ((s.expire_keeps t).scc rfl) c

@[simp] theorem State.noteFault_cell (s : State) (code : FaultCode) (o : Origin) (d : FaultDetail) (c : CellId) :
    (s.noteFault code o d).cell c = s.cell c := State.cell_of_scc ((s.noteFault_keeps code o d).scc rfl) c

theorem State.startHoming_keepsCellLaw (s : State) {c : CellId} (hs : (s.cell c).state = .unhomed) :
    KeepsCellLaw s (s.startHoming c) :=
  (s.modCell_keepsWork c ⟨rfl, rfl, rfl, rfl⟩).trans
    (State.cellTo_keepsCellLaw _ (by rw [State.modCell_cell]; simp [hs, CellState.working]) _ _ _)

theorem State.homeReached_keepsCellLaw (s : State) (c : CellId) : KeepsCellLaw s (s.homeReached c) := by
  unfold State.homeReached
  split
  · rename_i hs
    exact (s.modCell_keepsWork c ⟨rfl, rfl, rfl, rfl⟩).trans
      (State.cellTo_keepsCellLaw _ (by rw [State.modCell_cell]; simp [hs, CellState.working]) _ _ _)
  · exact .refl s

theorem State.homeTimeout_keepsCellLaw (s : State) (c : CellId) : KeepsCellLaw s (s.homeTimeout c) := by
  unfold State.homeTimeout
  split
  · rename_i t hs _
    have idle : ((s.expire t).cell c).state.working = false := by rw [State.expire_cell, hs]; rfl
    let halted := (s.expire t).modCell c fun v => { v.faultHalt with homeTimer := none }
    let noted := halted.noteFault .homeTimeout (.scc c) {}
    have halts : KeepsCellLaw (s.expire t) halted := State.modCell_keepsCellLaw _ c fun h =>
      have ⟨program, executing, _⟩ := h.resting_of_idle idle
      SprayCell.Resting.after ⟨program, executing, rfl⟩
    have notes : KeepsCellLaw halted noted := halted.noteFault_keepsCellLaw _ _ _
    have faults := noted.cellTo_keepsCellLaw (c := c)
      (by rw [State.noteFault_cell, State.modCell_cell]; exact idle) .faulted .homeTimeout none
    exact (((s.expire_keepsCellLaw t).trans halts).trans notes).trans faults
  · exact .refl s

theorem State.seekEnd_keepsCellLaw (s : State) (c : CellId) : KeepsCellLaw s (s.seekEnd c) := by
  unfold State.seekEnd
  split
  · rename_i e he
    split
    · rename_i hph
      let t := s.modCell c fun v =>
        { v with gantryTimer := none, gantry := some ⟨e.seg.x, e.seg.y, e.seg.z⟩, haltDue := false }
      have stood : KeepsCellLaw s t := s.modCell_keepsWork c ⟨rfl, rfl, rfl, rfl⟩
      exact stood.trans (.of_cell (t.beginStroke_keeps c e) rfl rfl (t.beginStroke_onlyCell c e) fun h =>
        State.beginStroke_lawful h (by simp only [t, State.modCell_cell]; exact he) hph)
    · exact .refl s
  · exact .refl s

theorem State.leadExpiry_keepsCellLaw (s : State) (c : CellId) : KeepsCellLaw s (s.leadExpiry c) := by
  unfold State.leadExpiry
  split
  · rename_i e t he _
    split
    · have expired : KeepsCellLaw (s.expire t) ((s.expire t).modCell c fun v => { v with leadTimer := none }) :=
        State.modCell_keepsWork _ c ⟨rfl, rfl, rfl, rfl⟩
      refine ((s.expire_keepsCellLaw t).trans expired).trans (State.modCell_keepsCellLaw _ c fun h => ?_)
      refine h.phased (e := e) (by rw [State.modCell_cell, State.expire_cell]; exact he) rfl rfl rfl fun hv => ⟨nofun, ?_⟩
      obtain ⟨d, hd, -, hf⟩ := h.valve hv
      rw [State.modCell_cell, State.expire_cell] at hd
      exact Option.some.inj (he.symm.trans hd) ▸ hf
    · exact .refl s
  · exact .refl s

theorem State.valveClose_keepsCellLaw (s : State) (c : CellId) : KeepsCellLaw s (s.valveClose c) := by
  unfold State.valveClose
  split
  · exact (s.expire_keepsCellLaw _).trans (State.modCell_keepsCellLaw _ c fun h =>
      .of_lawful ⟨h.program, h.executing, nofun⟩ rfl)
  · exact .refl s

theorem State.haltReport_keepsCellLaw (s : State) (c : CellId) (x y z : Nat) : KeepsCellLaw s (s.haltReport c x y z) := by
  unfold State.haltReport
  split
  · exact s.modCell_keepsWork c ⟨rfl, rfl, rfl, rfl⟩
  · exact .refl s

/-! ## Programs (R72 to R85) -/

/-- The record whose program can start: ACTIVE, at a READY cell of a line in RUN (R72). -/
theorem State.programReady_some {s : State} {c : CellId} {i : RecIx} {r : CarrierRecord} {p : Recipe}
    (h : s.programReady c = some (i, r, p)) :
    (s.cell c).state = .ready ∧ s.lmf.mode = .run ∧ s.rec? i = some r ∧ r.status = .active := by
  unfold State.programReady at h
  split at h
  · cases h
  · split at h
    · rename_i hr _
      split at h
      · rename_i conditions
        obtain ⟨state, mode, active, -⟩ := conditions
        cases h
        exact ⟨state, mode, hr, active⟩
      · cases h
    · cases h

/-- A program that starts belongs to an ACTIVE record in RUN (R72). -/
theorem State.startProgram_keepsCellLaw (s : State) (c : CellId) : KeepsCellLaw s (s.startProgram c) := by
  unfold State.startProgram
  split
  · rename_i i r p hready
    obtain ⟨state, mode, hr, active⟩ := State.programReady_some hready
    have started := ((s.modCell_keeps c fun v => v.started i r.pass (progOf c p)).mono rfl).trans
      (State.cellTo_keeps _ c .priming .programStart (some i))
    have other := (s.modCell_onlyCell c fun v => v.started i r.pass (progOf c p)).trans
      (State.cellTo_onlyCell _ c .priming .programStart (some i))
    intro law d
    obtain ⟨lawful, lets⟩ := (cellOk_iff s d).1 (law d)
    refine (cellOk_iff _ d).2 ?_
    by_cases hd : d = c
    · subst hd
      rw [State.cellTo_cell, State.modCell_cell]
      have shut := (lawful.resting_of_idle (by rw [state]; rfl)).valve
      refine ⟨⟨fun _ => rfl, nofun, fun hv => by cases shut.symm.trans hv⟩, fun q hq => ?_⟩
      cases hq
      exact started.onlyIn.letsRun rfl rfl ⟨.inl mode, r, hr, by rw [active]; rfl⟩
    · rw [other d hd]
      exact ⟨lawful, fun p hp => started.onlyIn.letsRun rfl rfl (lets p hp)⟩
  · exact .refl s

/-- A working cell that goes to RUNNING, from a state in which it executes nothing, and takes its next segment (R73, R80,
R81). -/
theorem State.runOn_keepsCellLaw (s : State) {c : CellId} {p : Program} (hp : (s.cell c).program = some p)
    (hs : (s.cell c).state ≠ .running) (why : CellCause) (i : Option RecIx) :
    KeepsCellLaw s ((s.cellTo c .running why i).nextSegment c) := by
  have told := s.cellTo_keeps c .running why i
  refine .of_cell ((told.mono rfl).trans (State.nextSegment_keeps _ c)) rfl rfl
    ((s.cellTo_onlyCell c _ _ _).trans (State.nextSegment_onlyCell _ c)) fun h => ?_
  have executing := h.executes_nothing hs
  have between : ((s.cellTo c .running why i).cell c).Between := by
    rw [State.cellTo_cell]
    exact ⟨by simp [hp], rfl, executing, h.shut executing⟩
  refine (State.nextSegment_lawful between).trans fun q hq => ?_
  rw [State.cellTo_cell] at hq
  exact ⟨q, hq, rfl⟩

/-- A RUNNING cell that awaits its next segment takes it (R81). -/
theorem State.awaited_keepsCellLaw (s : State) {c : CellId} {p : Program} (hp : (s.cell c).program = some p)
    (hs : (s.cell c).state = .running) (he : (s.cell c).executing = none) : KeepsCellLaw s (s.nextSegment c) :=
  .of_cell (s.nextSegment_keeps c) rfl rfl (s.nextSegment_onlyCell c) fun h =>
    State.nextSegment_lawful ⟨by simp [hp], hs, he, h.shut he⟩

theorem State.afterLanding_keepsCellLaw (s : State) (c : CellId) : KeepsCellLaw s (s.afterLanding c) := by
  unfold State.afterLanding
  split
  · rename_i p hs hp
    split
    · exact s.runOn_keepsCellLaw hp (by rw [hs]; exact nofun) _ _
    · exact .refl s
  · rename_i p hs hp
    split
    · let t := s.modCell c fun v => { v with starveTimer := none }
      have stopped : KeepsCellLaw s t := s.modCell_keepsWork c ⟨rfl, rfl, rfl, rfl⟩
      have cell : (t.noteFault .starveRecovered (.scc c) { ix := some p.ix }).cell c =
          { s.cell c with starveTimer := none } := by rw [State.noteFault_cell]; exact s.modCell_cell c _
      exact (stopped.trans (State.noteFault_keepsCellLaw _ _ _ _)).trans
        (State.runOn_keepsCellLaw _ (p := p) (by rw [cell]; exact hp) (by rw [cell]; simp [hs]) _ _)
    · exact .refl s
  · rename_i p hs hp
    split
    · rename_i he
      exact s.awaited_keepsCellLaw hp hs (Option.isNone_iff_eq_none.1 he)
    · exact .refl s
  · exact .refl s

theorem State.landFetch_keepsCellLaw (s : State) (c : CellId) (bytes : List Byte) :
    KeepsCellLaw s (s.landFetch c bytes) := by
  unfold State.landFetch
  split
  · exact (s.modCell_keepsWork c ⟨rfl, rfl, rfl, rfl⟩).trans (State.afterLanding_keepsCellLaw _ c)
  all_goals exact s.modCell_keepsWork c ⟨rfl, rfl, rfl, rfl⟩

theorem State.failFetch_keepsCellLaw (s : State) (c : CellId) : KeepsCellLaw s (s.failFetch c) := by
  have withdrawn : KeepsCellLaw s (s.modCell c fun v => { v with fetch := .none }) :=
    s.modCell_keepsWork c ⟨rfl, rfl, rfl, rfl⟩
  unfold State.failFetch
  dsimp only
  split
  · exact withdrawn.trans (State.abandonProgram_keepsCellLaw _ c _ _ _ _ _ _)
  · exact withdrawn

/-- The end of a motion: the segment credited, its slot freed, the next one taken (R77). -/
theorem State.motionEnd_keepsCellLaw (s : State) (c : CellId) : KeepsCellLaw s (s.motionEnd c) := by
  unfold State.motionEnd
  split
  · rename_i e p he hp
    split
    · have credited := s.credit_keeps p.ix e
      have cell : ((s.credit p.ix e).modCell c fun v => v.motionDone e).cell c = (s.cell c).motionDone e := by
        rw [State.modCell_cell, State.cell_of_scc (credited.scc rfl)]
      refine .of_cell (((credited.mono rfl).step (State.modCell_keeps _ c _) rfl).trans (State.nextSegment_keeps _ c)) rfl rfl
        (((credited.onlyCell rfl c).trans (State.modCell_onlyCell _ c _)).trans (State.nextSegment_onlyCell _ c)) fun h => ?_
      have between : (((s.credit p.ix e).modCell c fun v => v.motionDone e).cell c).Between := by
        rw [cell]
        exact ⟨by simp [SprayCell.motionDone, SprayCell.freeSlot, hp], (h.executing e he).2.1, rfl, rfl⟩
      refine (State.nextSegment_lawful between).trans fun q hq => ?_
      rw [cell] at hq
      obtain ⟨p', hp', rfl⟩ := Option.map_eq_some_iff.1 hq
      exact ⟨p', hp', rfl⟩
    · exact .refl s
  · exact .refl s

theorem State.segmentFault_keepsCellLaw (s : State) (c : CellId) (p : Program) (code : FaultCode) (k : Nat) (z : Option Nat) :
    KeepsCellLaw s (s.segmentFault c p code k z) :=
  (s.noteFault_keepsCellLaw _ _ _).trans (State.abandonProgram_keepsCellLaw _ c p _ _ _ _ _)

theorem State.gantryTimeout_keepsCellLaw (s : State) (c : CellId) : KeepsCellLaw s (s.gantryTimeout c) := by
  unfold State.gantryTimeout
  split
  · exact (s.expire_keepsCellLaw _).trans (State.segmentFault_keepsCellLaw _ c _ _ _ _)
  · exact .refl s

theorem State.abandonRun_keepsCellLaw (s : State) (c : CellId) (i : RecIx) (z : Option Nat) (raise : Bool) :
    KeepsCellLaw s (s.abandonRun c i z raise) :=
  .of_cell (s.abandonRun_keeps c i z raise) rfl rfl (s.abandonRun_onlyCell c i z raise) fun h => by
    rw [State.abandonRun_cell]
    exact SprayCell.SameWork.after ⟨rfl, rfl, rfl, rfl⟩ h

theorem State.starveLimit_keepsCellLaw (s : State) (c : CellId) : KeepsCellLaw s (s.starveLimit c) := by
  unfold State.starveLimit
  split
  · rename_i t p hs _ hp
    let a := (s.expire t).modCell c fun v => { v with starveTimer := none }
    let b := a.noteFault .starveLimit (.scc c) { ix := some p.ix }
    let d := (b.abandonRun c p.ix none true).modCell c fun v => { v with skip := true }
    have ha : KeepsCellLaw s a := (s.expire_keepsCellLaw t).trans (State.modCell_keepsWork _ c ⟨rfl, rfl, rfl, rfl⟩)
    have hb : KeepsCellLaw a b := a.noteFault_keepsCellLaw _ _ _
    have hd : KeepsCellLaw b d := (b.abandonRun_keepsCellLaw c _ _ _).trans (State.modCell_keepsWork _ c ⟨rfl, rfl, rfl, rfl⟩)
    have same : (d.cell c).program = (s.cell c).program ∧ (d.cell c).state = (s.cell c).state := by
      simp only [d, b, a, State.modCell_cell, State.abandonRun_cell, State.noteFault_cell, State.expire_cell, and_self]
    exact ((ha.trans hb).trans hd).trans
      (d.runOn_keepsCellLaw (same.1.trans hp) (by rw [same.2, hs]; exact nofun) .programStart (some p.ix))
  · exact .refl s

theorem State.valveFault_keepsCellLaw (s : State) (c : CellId) : KeepsCellLaw s (s.valveFault c) := by
  unfold State.valveFault
  split
  · exact .refl s
  · split
    · exact (s.noteFault_keepsCellLaw _ _ _).trans (State.abandonProgram_keepsCellLaw _ c _ _ _ _ _ _)
    · rename_i hp
      have noted := s.noteFault_keeps .valveFault (.scc c) {}
      refine .of_resting ((noted.mono rfl).step (State.modCell_keeps _ c _) rfl |>.trans (State.cellTo_keeps _ c _ _ _)) rfl rfl
        (((noted.onlyCell rfl c).trans (State.modCell_onlyCell _ c _)).trans (State.cellTo_onlyCell _ c _ _ _)) fun h => ?_
      rw [State.cellTo_cell, State.modCell_cell, State.noteFault_cell]
      exact ⟨hp, (h.resting hp).executing, rfl⟩

/-! ## A program taken off its cell (R84, R88 to R91) -/

theorem State.dropProgram_keepsCellLaw (s : State) (c : CellId) (i : RecIx) (o : ProgramOutcome) (cause : CellCause) :
    KeepsCellLaw s (s.dropProgram c i o cause) := by
  unfold State.dropProgram
  split
  · split
    · exact s.abandonProgram_keepsCellLaw c _ _ _ _ _ _
    · exact .refl s
  · exact .refl s

theorem State.grantFetch_keepsCellLaw (s : State) (c : CellId) : KeepsCellLaw s (s.grantFetch c) := by
  have fetches (f : Fetch) : KeepsCellLaw s (s.modCell c fun v => { v with fetch := f }) :=
    s.modCell_keepsWork c ⟨rfl, rfl, rfl, rfl⟩
  unfold State.grantFetch
  split
  · exact fetches _
  · split
    · exact ((fetches _).trans ((State.modRsc_keeps _ _ rfl).keepsCellLaw rfl)).trans
        ((State.openPort_keeps _ _ _).keepsCellLaw rfl)
    · exact (fetches _).trans (State.dropProgram_keepsCellLaw _ c _ _ _)

theorem State.doCellClear_keepsCellLaw (s : State) (c : CellId) : KeepsCellLaw s (s.doCellClear c).1 := by
  unfold State.doCellClear
  split
  · exact .refl s
  · rename_i hs
    refine .of_resting ((s.modCell_keeps c _).mono rfl |>.trans (State.cellTo_keeps _ c _ _ _)) rfl rfl
      ((s.modCell_onlyCell c _).trans (State.cellTo_onlyCell _ c _ _ _)) fun h => ?_
    obtain ⟨program, executing, -⟩ := h.resting_of_idle (Bool.eq_false_iff.2 hs)
    rw [State.ok, State.cellTo_cell, State.modCell_cell]
    exact ⟨program, executing, rfl⟩

theorem State.doCellHome_keepsCellLaw (s : State) (c : CellId) : KeepsCellLaw s (s.doCellHome c).1 := by
  unfold State.doCellHome
  split
  · exact .refl s
  · split
    · exact s.startHoming_keepsCellLaw ‹_›
    all_goals exact .refl s

theorem State.doCellAbort_keepsCellLaw (s : State) (c : CellId) : KeepsCellLaw s (s.doCellAbort c).1 := by
  unfold State.doCellAbort
  split
  · exact s.abandonProgram_keepsCellLaw c _ _ _ _ _ _
  · exact .refl s

/-- STOP leaves a lawful cell resting (R89). -/
theorem State.cellStop_resting {s : State} {c : CellId} (h : (s.cell c).Lawful) : ((s.cellStop c).cell c).Resting := by
  unfold State.cellStop
  split
  · exact s.abandonProgram_resting c _ _ _ _ _ _
  · rename_i hp
    obtain ⟨program, executing, valve⟩ := h.resting hp
    split
    · rw [State.cellTo_cell, State.modCell_cell]
      obtain ⟨g, due, halted⟩ := (s.cell c).shutAndHalt_eq
      rw [halted]
      exact ⟨program, executing, rfl⟩
    all_goals exact ⟨program, executing, valve⟩

theorem State.cellStop_onlyCell (s : State) (c : CellId) : OnlyCell c s (s.cellStop c) := by
  unfold State.cellStop
  split
  · exact s.abandonProgram_onlyCell c _ _ _ _ _ _
  · split
    case h_1 => exact (s.modCell_onlyCell c _).trans (State.cellTo_onlyCell _ c _ _ _)
    all_goals exact OnlyCell.refl c s

/-- The emergency stop leaves a lawful cell resting (R90). -/
theorem State.cellEmergency_resting {s : State} {c : CellId} (h : (s.cell c).Lawful) :
    ((s.cellEmergency c).cell c).Resting := by
  unfold State.cellEmergency
  split
  · rw [State.modCell_cell]
    obtain ⟨program, executing, -⟩ := s.abandonProgram_resting c _ .stopped none none .unhomed .emergencyStop
    exact ⟨program, executing, rfl⟩
  · rename_i hp
    rw [State.cellTo_cell, State.modCell_cell]
    exact ⟨hp, (h.resting hp).executing, rfl⟩

theorem State.cellEmergency_onlyCell (s : State) (c : CellId) : OnlyCell c s (s.cellEmergency c) := by
  unfold State.cellEmergency
  split
  · exact (s.abandonProgram_onlyCell c _ _ _ _ _ _).trans (State.modCell_onlyCell _ c _)
  · exact (s.modCell_onlyCell c _).trans (State.cellTo_onlyCell _ c _ _ _)

/-! ## What the part does as it settles (R73, R181) -/

theorem State.askFetch_keepsCellLaw (s : State) (c : CellId) : KeepsCellLaw s (s.askFetch c) := by
  unfold State.askFetch
  split
  · exact s.modCell_keepsWork c ⟨rfl, rfl, rfl, rfl⟩
  · exact .refl s

theorem State.settle_keepsCellLaw (s : State) : KeepsCellLaw s s.settle :=
  ((s.askFetch_keepsCellLaw .a).trans (State.askFetch_keepsCellLaw _ .b)).trans
    ((State.startTx_onlyIn _).keepsCellLaw rfl)

end Sys2Proof.Machine
end

section
/-! PROOF. The line mode, the records that leave the line, the moves and the requests keep the cells' law (R16, R89 to R91,
R163 to R169). -/

namespace Sys2Proof.Machine

/-! ## The line mode (R89, R90, R163 to R166) -/

/-- Every cell rests. -/
def AllRest (s : State) : Prop := ∀ c, (s.cell c).Resting

theorem AllRest.cellLaw {s : State} (h : AllRest s) : CellLaw s := fun c => (h c).cellOk

theorem AllRest.of_scc {s t : State} (h : AllRest s) (hs : t.scc = s.scc) : AllRest t := fun c => by
  rw [State.cell_of_scc hs]
  exact h c

theorem CellLaw.lawful {s : State} (h : CellLaw s) (c : CellId) : (s.cell c).Lawful := ((cellOk_iff s c).1 (h c)).1

theorem State.cellsMode_rest {s : State} (h : ∀ c, (s.cell c).Lawful) : AllRest (s.cellsMode .stop) := by
  have shown : s.cellsMode .stop = (s.cellStop .a).cellStop .b := rfl
  rw [shown]
  have other : ((s.cellStop .a).cell .b).Lawful := by
    rw [s.cellStop_onlyCell .a .b nofun]
    exact h .b
  rintro (_ | _)
  · rw [State.cellStop_onlyCell _ .b .a nofun]
    exact State.cellStop_resting (h .a)
  · exact State.cellStop_resting other

theorem State.cellsEmergency_rest {s : State} (h : ∀ c, (s.cell c).Lawful) : AllRest s.cellsEmergency := by
  have shown : s.cellsEmergency = (s.cellEmergency .a).cellEmergency .b := rfl
  rw [shown]
  have other : ((s.cellEmergency .a).cell .b).Lawful := by
    rw [s.cellEmergency_onlyCell .a .b nofun]
    exact h .b
  rintro (_ | _)
  · rw [State.cellEmergency_onlyCell _ .b .a nofun]
    exact State.cellEmergency_resting (h .a)
  · exact State.cellEmergency_resting other

/-- The blocks that take a mode before the cells do leave the cells as they are. -/
theorem State.beforeCells_scc (s : State) (m prev : LineMode) (cause : ModeCause) :
    (((s.putMode m cause).trackerMode m prev).headsMode m).scc = s.scc :=
  ((State.headsMode_keeps _ m).scc rfl).trans (((State.trackerMode_keeps _ m prev).scc rfl).trans
    ((s.putMode_keeps m cause).scc rfl))

theorem State.setMode_mode (s : State) (m : LineMode) (cause : ModeCause) : (s.setMode m cause).lmf.mode = m := by
  unfold State.setMode
  split
  · assumption
  · rw [(State.tunnelMode_keeps _).mode rfl, (State.cellsMode_keeps _ m).mode rfl, (State.headsMode_keeps _ m).mode rfl,
      (State.trackerMode_keeps _ m _).mode rfl, State.putMode_mode]

/-- A mode other than STOP leaves the cells as they are. -/
theorem State.setMode_scc (s : State) {m : LineMode} (hm : m ≠ .stop) (cause : ModeCause) :
    (s.setMode m cause).scc = s.scc := by
  have cells (t : State) : t.cellsMode m = t := by
    cases m with
    | stop => exact absurd rfl hm
    | run | pause | idle => rfl
  unfold State.setMode
  split
  · rfl
  · rw [(State.tunnelMode_keeps _).scc rfl, cells]
    exact s.beforeCells_scc m _ cause

/-- No program is in progress while no record is live. -/
theorem CellLaw.rest_of_noneLive {s : State} (law : CellLaw s) (hn : s.noneLive = true) : AllRest s := fun c => by
  obtain ⟨lawful, lets⟩ := (cellOk_iff s c).1 (law c)
  refine lawful.resting (Option.eq_none_iff_forall_ne_some.2 fun p hp => ?_)
  obtain ⟨-, r, hr, pass⟩ := lets p hp
  have live : r.status.isLive = true := by
    cases hs : r.status <;> simp_all [Status.inPass, Status.isLive]
  have dead := List.all_eq_true.1 hn p.ix (by simp [recIxs])
  simp [State.live?, hr, live] at dead

/-- A change of mode keeps the law, IDLE when no record is live (R164). -/
theorem State.setMode_keepsCellLaw (s : State) (m : LineMode) (cause : ModeCause) (hidle : m = .idle → s.noneLive = true) :
    KeepsCellLaw s (s.setMode m cause) := by
  intro law
  have runs (hm : m = .run ∨ m = .pause) : CellLaw (s.setMode m cause) := by
    have only := (s.setMode_keeps m cause).onlyIn
    refine KeepsCellLaw.of_sameWork (fun c => .of_eq (State.cell_of_scc (s.setMode_scc ?_ cause) c)) (fun i lets => ?_) law
    · rcases hm with rfl | rfl <;> exact nofun
    · exact ⟨by rw [State.setMode_mode]; exact hm, let ⟨r, hr, pass⟩ := lets.2; only.pass rfl i r hr pass⟩
  cases m with
  | run => exact runs (.inl rfl)
  | pause => exact runs (.inr rfl)
  | idle => exact (AllRest.of_scc (law.rest_of_noneLive (hidle rfl)) (s.setMode_scc (m := .idle) nofun cause)).cellLaw
  | stop =>
    unfold State.setMode
    split
    · exact law
    · refine (AllRest.of_scc (State.cellsMode_rest fun c => ?_) ((State.tunnelMode_keeps _).scc rfl)).cellLaw
      rw [State.cell_of_scc (s.beforeCells_scc .stop s.lmf.mode cause)]
      exact law.lawful c

theorem State.emergency_keepsCellLaw (s : State) : KeepsCellLaw s s.emergency := by
  intro law
  unfold State.emergency
  split
  · exact (State.cellsEmergency_rest law.lawful).cellLaw
  · refine (AllRest.of_scc (State.cellsEmergency_rest fun c => ?_) ((State.tunnelMode_keeps _).scc rfl)).cellLaw
    rw [State.cell_of_scc (s.beforeCells_scc .stop s.lmf.mode .emergencyStop)]
    exact law.lawful c

theorem State.raiseFault_keepsCellLaw (s : State) (code : FaultCode) (o : Origin) (d : FaultDetail) :
    KeepsCellLaw s (s.raiseFault code o d) := by
  have changes (t : State) : KeepsCellLaw t (t.faultMode code) := by
    unfold State.faultMode
    split
    · exact t.setMode_keepsCellLaw .stop _ nofun
    · exact .refl t
    · split
      · exact t.setMode_keepsCellLaw .pause _ nofun
      · exact .refl t
  exact (s.noteFault_keepsCellLaw code o d).trans (changes _)

theorem State.estopEvent_keepsCellLaw (s : State) : KeepsCellLaw s s.estopEvent := by
  unfold State.estopEvent
  split
  · exact .refl s
  · split
    · exact (s.setEstop_keeps true).keepsCellLaw rfl
    · exact ((s.setEstop_keeps true).keepsCellLaw rfl).trans (State.emergency_keepsCellLaw _)

/-! ## Records that leave their pass (R7, R13, R16, R25) -/

/-- A record set where none is in its pass, or in the place of one by one that is. -/
theorem State.setRec_keepsCellLaw (s : State) (i : RecIx) (v : Option CarrierRecord)
    (h : ∀ r, s.rec? i = some r → r.status.inPass = true → ∃ r', v = some r' ∧ r'.status.inPass = true) :
    KeepsCellLaw s (s.setRec i v) := by
  refine .of_sameWork (fun c => .of_eq (State.setRec_cell s i v c)) fun j lets => ⟨lets.1, ?_⟩
  obtain ⟨r, hr, pass⟩ := lets.2
  by_cases e : j = i
  · subst e
    rw [State.setRec_rec_self]
    exact h r hr pass
  · exact ⟨r, (s.setRec_rec?_of_ne e v).trans hr, pass⟩

theorem State.dropProgram_lawfulAfter {s : State} {d : CellId} (h : (s.cell d).Lawful) (c : CellId) (i : RecIx)
    (o : ProgramOutcome) (cause : CellCause) : (s.cell d).LawfulAfter ((s.dropProgram c i o cause).cell d) := by
  by_cases hd : d = c
  · subst hd
    unfold State.dropProgram
    split
    · split
      · exact (s.abandonProgram_resting d _ _ _ _ _ _).after
      · exact .of_lawful h rfl
    · exact .of_lawful h rfl
  · rw [s.dropProgram_cell_of_ne hd]
    exact .of_lawful h rfl

/-- The stations drop a record's program; the other cell's goes on (R16, R91). -/
theorem State.retireStations_lawful {s : State} {c : CellId} (h : (s.cell c).Lawful) (i : RecIx) :
    (s.cell c).LawfulAfter ((s.retireStations i).cell c) ∧
      ∀ p, ((s.retireStations i).cell c).program = some p → p.ix ≠ i := by
  let t := s.dropWalks i
  have walks : t.cell c = s.cell c := State.cell_of_scc ((s.dropWalks_keeps i).scc rfl) c
  let u := t.dropProgram .a i .removed .removed
  let v := u.dropProgram .b i .removed .removed
  have hu : (t.cell c).LawfulAfter (u.cell c) := State.dropProgram_lawfulAfter (by rw [walks]; exact h) .a i _ _
  have hv : (u.cell c).LawfulAfter (v.cell c) := State.dropProgram_lawfulAfter hu.lawful .b i _ _
  have marks : (v.cell c).SameWork ((s.retireStations i).cell c) := by
    change (v.cell c).SameWork ((v.dropMarks i).cell c)
    rw [State.dropMarks_cell]
    exact ⟨rfl, rfl, rfl, rfl⟩
  refine ⟨?_, fun p hp => ?_⟩
  · rw [← walks]
    exact ((marks.after hv.lawful).trans hv.continues).trans hu.continues
  · rw [marks.program] at hp
    cases c with
    | a =>
      rw [show v.cell .a = u.cell .a from u.dropProgram_cell_of_ne (c := .b) (d := .a) nofun _ _ _] at hp
      exact t.dropProgram_names .a i _ _ p hp
    | b => exact u.dropProgram_names .b i _ _ p hp

/-- A record that becomes DONE takes its program off its cell (R16, R91). -/
theorem State.retire_keepsCellLaw (s : State) (i : RecIx) (o : DoneOutcome) : KeepsCellLaw s (s.retire i o) := by
  intro law c
  let done := s.modRec i fun r => { r with status := .done o, plan := if o = .removed then [] else r.plan }
  let used := (done.retireTracker i).releaseUse i
  have cells : done.scc = s.scc := by
    simp only [done, State.modRec]
    split <;> rfl
  have before : Keeps { ltk := true, rsc := true } done used :=
    ((done.retireTracker_keeps i).mono rfl).step (State.releaseUse_keeps _ i) rfl
  have after : Keeps { ltk := true, ctc := true, hmg := true, rep := true } (used.retireStations i) (s.retire i o) :=
    ((State.retireTunnel_keeps _ i).mono rfl).step (State.retireBench_keeps _ i) rfl
  have cell : used.cell c = s.cell c := (State.cell_of_scc (before.scc rfl) c).trans (State.cell_of_scc cells c)
  obtain ⟨lawful, lets⟩ := (cellOk_iff s c).1 (law c)
  obtain ⟨⟨lawful', continues⟩, names⟩ := State.retireStations_lawful (s := used) (c := c) (by rw [cell]; exact lawful) i
  refine (cellOk_iff _ c).2 ?_
  rw [State.cell_of_scc (after.scc rfl)]
  refine ⟨lawful', fun q hq => ?_⟩
  obtain ⟨p, hp, e⟩ := continues q hq
  obtain ⟨mode, r, hr, pass⟩ := lets p (cell ▸ hp)
  have still : done.LetsRun q.ix := by
    refine ⟨?_, r, ?_, pass⟩
    · simp only [done, State.modRec]
      split <;> exact mode
    · have ne : q.ix ≠ i := names q hq
      simp only [done, State.modRec]
      split
      · rw [State.setRec_rec?_of_ne _ ne]
        exact e ▸ hr
      · exact e ▸ hr
  exact after.onlyIn.letsRun rfl rfl ((State.retireStations_keeps used i).onlyIn.letsRun rfl rfl
    (before.onlyIn.letsRun rfl rfl still))

theorem Status.loading_not_inPass {r : CarrierRecord} (h : r.status = .loading) : ¬ r.status.inPass = true := by
  rw [h]
  exact nofun

theorem State.loadSucceeded_keepsCellLaw (s : State) (i : RecIx) (k : SlotIx) (q : Bool) (p : Recipe) :
    KeepsCellLaw s (s.loadSucceeded i k q p) := by
  unfold State.loadSucceeded
  split
  · exact .refl s
  · split
    · exact ((s.releaseSlot_keeps k).keepsCellLaw rfl).trans (State.retire_keepsCellLaw _ i _)
    · exact (s.setRec_keepsCellLaw i _ fun _ _ _ => ⟨_, rfl, rfl⟩).trans
        ((State.requestBinding_keeps _ _ _).keepsCellLaw rfl)

theorem State.loadFailed_keepsCellLaw (s : State) (i : RecIx) (why : LoadFailure) : KeepsCellLaw s (s.loadFailed i why) := by
  unfold State.loadFailed
  split
  · exact .refl s
  · rename_i r hr
    obtain ⟨hr, loading⟩ := State.loading?_some hr
    split
    · exact s.retire_keepsCellLaw i _
    · have freed : KeepsCellLaw (s.queueReport (.admitFailed r.tagId why))
          ((s.queueReport (.admitFailed r.tagId why)).setRec i none) :=
        State.setRec_keepsCellLaw _ i none fun q hq pass => by
          rw [State.queueReport_rec?] at hq
          cases hr.symm.trans hq
          exact absurd pass (Status.loading_not_inPass loading)
      exact (((s.queueReport_keeps _).keepsCellLaw rfl).trans freed).trans
        (((State.dropChecks_keeps _ i).keepsCellLaw rfl).trans ((State.returnEntry_keeps _ i).keepsCellLaw rfl))

/-! ## Loads (R36 to R38) -/

theorem State.failLoad_keepsCellLaw (s : State) (k : SlotIx) (recipe : Nat) (why : LoadFailure) :
    KeepsCellLaw s (s.failLoad k recipe why) :=
  (((s.setSlot_keeps k .empty).keepsCellLaw rfl).trans ((State.popLoad_keeps _).keepsCellLaw rfl)).trans
    (KeepsCellLaw.foldl (fun t i => t.loadFailed_keepsCellLaw i why) _ _)

theorem State.finishLoad_keepsCellLaw (s : State) (k : SlotIx) (h : SlotHead) (header : Nat) (p : Recipe) :
    KeepsCellLaw s (s.finishLoad k h header p) :=
  (((s.setSlot_keeps k _).keepsCellLaw rfl).trans ((State.popLoad_keeps _).keepsCellLaw rfl)).trans
    (KeepsCellLaw.foldl (fun t i => t.loadSucceeded_keepsCellLaw i k _ p) _ _)

theorem State.startLoads_keepsCellLaw (fuel : Nat) : ∀ s : State, KeepsCellLaw s (s.startLoads fuel) := by
  induction fuel with
  | zero => exact KeepsCellLaw.refl
  | succ fuel ih =>
    intro s
    rw [State.startLoads]
    split
    · exact .refl s
    · split
      · exact .refl s
      · split
        · split
          · exact (s.failLoad_keepsCellLaw _ _ _).trans (ih _)
          · exact (s.beginLoad_keeps _ _).keepsCellLaw rfl
        · exact (s.popLoad_keeps.keepsCellLaw rfl).trans (ih _)
        · exact (s.popLoad_keeps.keepsCellLaw rfl).trans (ih _)

theorem State.requestLoad_keepsCellLaw (s : State) (i : RecIx) (recipe : Nat) :
    KeepsCellLaw s (s.requestLoad i recipe) := by
  have slot (t : State) (k : SlotIx) (v : Slot) : KeepsCellLaw t (t.setSlot k v) := (t.setSlot_keeps k v).keepsCellLaw rfl
  unfold State.requestLoad
  split
  · split
    · exact (slot s _ _).trans (State.loadSucceeded_keepsCellLaw _ i _ _ _)
    all_goals exact .refl s
  · split
    · exact slot s _ _
    all_goals exact .refl s
  · exact ((slot s _ _).trans ((State.modRsc_keeps _ _ rfl).keepsCellLaw rfl)).trans (State.startLoads_keepsCellLaw 9 _)
  · exact s.loadFailed_keepsCellLaw i _

theorem State.loaderTakes_keepsCellLaw (s : State) (bytes : List Byte) : KeepsCellLaw s (s.loaderTakes bytes) := by
  unfold State.loaderTakes
  split
  · exact .refl s
  · split
    · exact ((s.addExtents_keeps _ _).keepsCellLaw rfl).trans ((State.modRsc_keeps _ _ rfl).keepsCellLaw rfl)
    · exact (s.finishLoad_keepsCellLaw _ _ _ _).trans (State.startLoads_keepsCellLaw 9 _)
    · exact (s.failLoad_keepsCellLaw _ _ _).trans (State.startLoads_keepsCellLaw 9 _)

theorem State.loaderFails_keepsCellLaw (s : State) : KeepsCellLaw s s.loaderFails := by
  unfold State.loaderFails
  split
  · exact .refl s
  · exact (s.failLoad_keepsCellLaw _ _ _).trans (State.startLoads_keepsCellLaw 9 _)

/-! ## Start-up (R172) -/

theorem State.endStartUp_keepsCellLaw (s : State) (config : LiveConfig) : KeepsCellLaw s (s.endStartUp config) := by
  let told := (s.modRsc fun v => { v with startUp := none, live := config }).queueReport
    (.lineMode s.lmf.mode .idle s.now .startUp)
  have tells : KeepsCellLaw s told :=
    ((s.modRsc_keeps _ rfl).keepsCellLaw rfl).trans ((State.queueReport_keeps _ _).keepsCellLaw rfl)
  have stops : KeepsCellLaw told (if told.lmf.estop then told.emergency else told) := by
    split
    · exact told.emergency_keepsCellLaw
    · exact .refl told
  have arrives (t : State) : KeepsCellLaw t (if t.present .load then t.beginArrival else t) := by
    split
    · exact t.beginArrival_keeps.keepsCellLaw rfl
    · exact .refl t
  exact (tells.trans stops).trans (arrives _)

theorem State.takeHeader_keepsCellLaw (s : State) (u : StartUp) : KeepsCellLaw s (s.takeHeader u) := by
  have header {t : State} (f : Rsc → Rsc) (hf : (f s.rsc).hostReq = s.rsc.hostReq) (h : KeepsCellLaw (s.modRsc f) t) :
      KeepsCellLaw s t := ((s.modRsc_keeps f hf).keepsCellLaw rfl).trans h
  unfold State.takeHeader
  generalize (if u.failed then StoreState.blank else storeStateOf u.bytes) = st
  dsimp only
  split
  · exact header _ rfl (State.endStartUp_keepsCellLaw _ _)
  · exact header _ rfl ((State.setStartUp_keeps _ _).keepsCellLaw rfl)

theorem State.startUpTakes_keepsCellLaw (s : State) (bytes : Option (List Byte)) : KeepsCellLaw s (s.startUpTakes bytes) := by
  have sets (t : State) (u : Option StartUp) : KeepsCellLaw t (t.setStartUp u) := (t.setStartUp_keeps u).keepsCellLaw rfl
  unfold State.startUpTakes
  split
  · exact .refl s
  · dsimp only
    split
    · exact sets s _
    · split
      · exact ((s.modRsc_keeps _ rfl).keepsCellLaw rfl).trans (State.endStartUp_keepsCellLaw _ _)
      · exact s.takeHeader_keepsCellLaw _

/-! ## Tag reads, missing carriers and moves (R2, R21 to R24, R111, R125) -/

theorem State.loseCarrier_keepsCellLaw (s : State) (i : RecIx) (p : Place) : KeepsCellLaw s (s.loseCarrier i p) := by
  have walks : KeepsCellLaw s (s.dropWalks i) := (s.dropWalks_keeps i).keepsCellLaw rfl
  unfold State.loseCarrier
  dsimp only
  split
  · exact walks.trans (State.dropProgram_keepsCellLaw _ _ i _ _)
  · exact walks

/-- An edit of a record that leaves its status. -/
theorem State.modRec_keepsCellLaw (s : State) (i : RecIx) {f : CarrierRecord → CarrierRecord} (hf : ∀ r, RecStep r (f r))
    (hs : ∀ r, (f r).status = r.status) : KeepsCellLaw s (s.modRec i f) :=
  (s.modRec_keeps i f hf fun r h => hs r ▸ h).keepsCellLaw rfl

/-- A lane written with the bound it had. -/
theorem State.setLane_keepsCellLaw (s : State) (l : LaneId) {v : Lane} (hv : v.bound = (s.lane l).bound) :
    KeepsCellLaw s (s.setLane l v) :=
  (s.setLane_keeps l v fun h => hv ▸ h).keepsCellLaw rfl

/-- The tunnel's block written with the bounds it had. -/
theorem State.setCtc_keepsCellLaw (s : State) {v : Ctc} (h1 : v.lane1.bound = s.ctc.lane1.bound)
    (h2 : v.lane2.bound = s.ctc.lane2.bound) : KeepsCellLaw s { s with ctc := v } :=
  (Keeps.ctcSet s v h1 h2).keepsCellLaw rfl

/-- A record's tag check written. -/
theorem State.setCheck_keepsCellLaw (s : State) (i : RecIx) (v : TagCheck) :
    KeepsCellLaw s (s.modRec i fun r => { r with tagCheck := v }) :=
  s.modRec_keepsCellLaw i (fun _ ok => ⟨{ ok with }, le_refl _, le_refl _⟩) fun _ => rfl

theorem State.carrierMissing_keepsCellLaw (s : State) (p : Place) : KeepsCellLaw s (s.carrierMissing p) := by
  unfold State.carrierMissing
  split
  · split
    · exact (((((s.setSensor_keeps p false).keepsCellLaw rfl).trans ((State.dropRead_keeps _ p).keepsCellLaw rfl)).trans
        (State.setCheck_keepsCellLaw _ _ .failed)).trans (State.raiseFault_keepsCellLaw _ _ _ _)).trans
          (State.loseCarrier_keepsCellLaw _ _ p)
    · exact .refl s
  · exact .refl s

theorem State.completePass_keepsCellLaw (s : State) (i : RecIx) : KeepsCellLaw s (s.completePass i) := by
  unfold State.completePass
  split
  · exact .refl s
  · split
    · exact (s.askWrite_keeps _ _ _).keepsCellLaw rfl
    · split
      · exact (s.retire_keepsCellLaw i .good).trans ((State.queueReport_keeps _ _).keepsCellLaw rfl)
      · exact .refl s

theorem State.checkPassed_keepsCellLaw (s : State) (i : RecIx) (p : Place) : KeepsCellLaw s (s.checkPassed i p) := by
  have passed : KeepsCellLaw s ((s.dropRead p).modRec i fun r => { r with tagCheck := .passed }) :=
    ((s.dropRead_keeps p).keepsCellLaw rfl).trans (State.setCheck_keepsCellLaw _ i .passed)
  unfold State.checkPassed
  dsimp only
  split
  · exact passed.trans (State.completePass_keepsCellLaw _ i)
  · exact passed.trans ((State.arriveBench_keeps _ _ i).keepsCellLaw rfl)
  all_goals exact passed

theorem State.checkFailed_keepsCellLaw (s : State) (i : RecIx) (p : Place) : KeepsCellLaw s (s.checkFailed i p) :=
  ((((s.dropRead_keeps p).keepsCellLaw rfl).trans (State.setCheck_keepsCellLaw _ i .failed)).trans
    ((State.dropWalks_keeps _ i).keepsCellLaw rfl)).trans (State.raiseFault_keepsCellLaw _ _ _ _)

theorem State.readEnd_keepsCellLaw (s : State) (p : Place) (result : Option TagRead) : KeepsCellLaw s (s.readEnd p result) := by
  have again (q : Place) : KeepsCellLaw s (s.nextAttempt q) := (s.nextAttempt_keeps q).keepsCellLaw rfl
  have told (t : State) : KeepsCellLaw t t.arrivalTold := t.arrivalTold_keeps.keepsCellLaw rfl
  unfold State.readEnd
  split
  · exact .refl s
  · split
    · exact (((s.dropRead_keeps p).keepsCellLaw rfl).trans ((State.takeMatch_keeps _ _).keepsCellLaw rfl)).trans (told _)
    · split
      · exact again p
      · exact (s.unreadable_keeps.keepsCellLaw rfl).trans (told _)
    · unfold State.checkAttempt
      split
      · exact (s.dropRead_keeps _).keepsCellLaw rfl
      · split
        · exact s.checkPassed_keepsCellLaw _ _
        · exact s.checkFailed_keepsCellLaw _ _
      · split
        · exact again _
        · exact s.checkFailed_keepsCellLaw _ _

theorem State.leaveStation_keepsCellLaw (s : State) (src : Place) (i : RecIx) : KeepsCellLaw s (s.leaveStation src i) := by
  have marks (c : CellId) : KeepsCellLaw s (s.dropRunMark c i) :=
    s.modCell_keepsWork c (f := fun v => { v with runMark := dropMark i v.runMark }) ⟨rfl, rfl, rfl, rfl⟩
  have given (h : HeadId) : KeepsCellLaw s (s.dropGiven h i) := (s.dropGiven_keeps h i).keepsCellLaw rfl
  unfold State.leaveStation
  split
  · exact given _
  · exact given _
  · exact marks _
  · exact marks _
  all_goals exact .refl s

theorem State.beginMove_keepsCellLaw (s : State) (i : RecIx) (src dst : Place) : KeepsCellLaw s (s.beginMove i src dst) := by
  have moved : KeepsCellLaw s (s.modRec i fun r => { r with position := .inTransit src dst }) :=
    s.modRec_keepsCellLaw i (fun _ ok => ⟨{ ok with }, le_refl _, le_refl _⟩) fun _ => rfl
  exact ((moved.trans ((State.setMoves_keeps _ _).keepsCellLaw rfl)).trans (State.leaveStation_keepsCellLaw _ src i)).trans
    ((State.leaveLoad_keeps _ src i).keepsCellLaw rfl)

theorem State.moveBegin_keepsCellLaw (s : State) (i : RecIx) : KeepsCellLaw s (s.moveBegin i) := by
  unfold State.moveBegin
  split
  · split
    · exact .refl s
    · exact s.beginMove_keepsCellLaw i _ _
  · exact .refl s

theorem State.moveTimeout_keepsCellLaw (s : State) (i : RecIx) : KeepsCellLaw s (s.moveTimeout i) := by
  unfold State.moveTimeout
  split
  · exact ((s.expire_keepsCellLaw _).trans ((State.timeOutMove_keeps _ i).keepsCellLaw rfl)).trans
      (State.raiseFault_keepsCellLaw _ _ _ _)
  · exact .refl s

theorem State.benchMoveStart_keepsCellLaw (s : State) : KeepsCellLaw s s.benchMoveStart := by
  unfold State.benchMoveStart
  split
  · split
    · split
      · split
        · exact ((s.setQueue_keeps _).keepsCellLaw rfl).trans (State.beginMove_keepsCellLaw _ _ _ _)
        · exact .refl s
      · exact .refl s
    · exact .refl s
  · exact .refl s

theorem State.entryStart_keepsCellLaw (s : State) : KeepsCellLaw s s.entryStart := by
  unfold State.entryStart
  split
  · exact ((s.leaveWetQueue_keeps _).keepsCellLaw rfl).trans (State.beginMove_keepsCellLaw _ _ _ _)
  · exact .refl s

theorem State.exitStart_keepsCellLaw (s : State) (l : LaneId) : KeepsCellLaw s (s.exitStart l) := by
  have out (rest : List RecIx) : KeepsCellLaw s (s.setLane l { s.lane l with order := rest, arrival := none }) :=
    s.setLane_keepsCellLaw l rfl
  have holds (t : State) (i : RecIx) : KeepsCellLaw t { t with ctc := { t.ctc with exitHolder := some i } } :=
    t.setCtc_keepsCellLaw rfl rfl
  have planned (t : State) (i : RecIx) : KeepsCellLaw t (t.modRec i fun r => { r with plan := r.plan.tail }) :=
    t.modRec_keepsCellLaw i (fun _ ok => ⟨{ ok with }, le_refl _, le_refl _⟩) fun _ => rfl
  have judged (t : State) (i : RecIx) (v : CureVerdict) (e : Option LineTime) :
      KeepsCellLaw t (t.modRec i fun r => { r with cureVerdict := v, exitTime := e }) :=
    t.modRec_keepsCellLaw i (fun _ ok => ⟨{ ok with }, le_refl _, le_refl _⟩) fun _ => rfl
  have staged (t : State) (i : RecIx) : KeepsCellLaw t (t.modHold i fun h => { h with stage := .exit }) :=
    (t.modHold_keeps i (fun h => { h with stage := .exit }) fun _ => HoldStep.of_eq rfl rfl).keepsCellLaw rfl
  unfold State.exitStart
  split
  · rename_i i rest t _ _
    dsimp only
    refine KeepsCellLaw.trans ?_ ((State.unbind_keeps _ _ _).keepsCellLaw rfl)
    have exits := (((out rest).trans (holds _ i)).trans
      (State.beginMove_keepsCellLaw _ i (lanePlace l) (s.exitTarget i))).trans (planned _ i)
    have raised {t : State} (h : KeepsCellLaw s t) (i : RecIx) (l : List ReasonCode) :
        KeepsCellLaw s ((t.raiseAll i l).modHold i fun h => { h with stage := .exit }) :=
      (h.trans ((State.raiseAll_keeps _ _ _).keepsCellLaw rfl)).trans (staged _ _)
    split
    · exact ((raised exits _ _).trans (judged _ _ _ _)).trans ((State.queueReport_keeps _ _).keepsCellLaw rfl)
    · exact (raised exits _ _).trans (judged _ _ _ _)
  · exact .refl s

theorem State.encoderPulse_keepsCellLaw (s : State) (l : LaneId) : KeepsCellLaw s (s.encoderPulse l) := by
  have advanced : KeepsCellLaw s (s.advanceLane l) := (s.advanceLane_keeps l).keepsCellLaw rfl
  have arrives (t : State) : KeepsCellLaw t (t.exitArrival l) := by
    have taken : KeepsCellLaw t (t.setLane l { t.lane l with arrival := some t.now }) := t.setLane_keepsCellLaw l rfl
    unfold State.exitArrival
    dsimp only
    split
    · exact taken.trans (State.exitStart_keepsCellLaw _ l)
    · exact taken.trans ((State.deriveLane_keeps _ l _).keepsCellLaw rfl)
  unfold State.encoderPulse
  dsimp only
  split
  · exact advanced.trans (arrives _)
  · exact advanced

theorem State.exitGrant_keepsCellLaw (s : State) : KeepsCellLaw s s.exitGrant := by
  unfold State.exitGrant
  split
  · exact s.exitStart_keepsCellLaw _
  · exact .refl s

theorem State.zoneFaults_keepsCellLaw (s : State) (z : ZoneIx) (old new : ZoneSense) (k : Option (Fin 8)) :
    KeepsCellLaw s (s.zoneFaults z old new k) := by
  have raised {t : State} (h : KeepsCellLaw s t) (code : FaultCode) (d : FaultDetail) :
      KeepsCellLaw s (t.raiseFault code .ctc d) := h.trans (t.raiseFault_keepsCellLaw _ _ _)
  have given {b : Prop} [Decidable b] {t u : State} (ht : KeepsCellLaw s t) (hu : KeepsCellLaw s u) :
      KeepsCellLaw s (if b then t else u) := by
    split
    · exact ht
    · exact hu
  have degraded {b : Prop} [Decidable b] : KeepsCellLaw s
      (if b then s.raiseFault .sensorDegraded .ctc { zone := some z, channel := k } else s) :=
    given (raised (.refl s) _ _) (.refl s)
  unfold State.zoneFaults
  dsimp only
  refine given (raised ?_ _ _) ?_
  all_goals exact given (raised degraded _ _) degraded

theorem State.sampleZone_keepsCellLaw (s : State) (adc : Vector (Option Int) 8) (z : ZoneIx) :
    KeepsCellLaw s (s.sampleZone adc z) :=
  ((s.setZone_keeps z _).keepsCellLaw rfl).trans (State.zoneFaults_keepsCellLaw _ _ _ _ _)

theorem State.thermalSample_keepsCellLaw (s : State) (adc : Vector (Option Int) 8) : KeepsCellLaw s (s.thermalSample adc) := by
  have noted (u : State) (t : LineTime) : KeepsCellLaw u { u with ctc := { u.ctc with thermalAt := t } } :=
    u.setCtc_keepsCellLaw rfl rfl
  have sampled (u : State) : KeepsCellLaw u (zoneIxs.foldl (fun v z => v.sampleZone adc z) u) :=
    KeepsCellLaw.foldl (fun v z => v.sampleZone_keepsCellLaw adc z) _ _
  have dosed (u : State) : KeepsCellLaw u u.thermalDoses := u.thermalDoses_keeps.keepsCellLaw rfl
  unfold State.thermalSample
  generalize s.sampleTime 1000 s.ctc.thermalAt = t
  exact ((((s.atTime_keeps t).keepsCellLaw rfl).trans (noted _ t)).trans (sampled _)).trans (dosed _)

end Sys2Proof.Machine
end

section
/-! PROOF. Every step keeps the ties between program, execution and valve (R78, R83, R89, R91): the requests, the store's
accesses, and all the commands. -/

namespace Sys2Proof.Machine

/-! ## Requests that touch neither cells, mode nor passes -/

theorem State.unless_keepsCellLaw {s : State} (c : Bool) (st : ReplyStatus) {a : Answer}
    (h : c = true → KeepsCellLaw s a.1) : KeepsCellLaw s (s.unless c st a).1 := by
  unfold State.unless
  split
  · exact h ‹_›
  · exact .refl s

theorem State.withRec_keepsCellLaw {s : State} (i : Byte) {f : RecIx → Answer} (h : ∀ i, KeepsCellLaw s (f i).1) :
    KeepsCellLaw s (s.withRec i f).1 := by
  unfold State.withRec
  split
  · exact h _
  · exact .refl s

theorem State.withCode_keepsCellLaw {s : State} {α : Type} (v : Option α) {f : α → Answer}
    (h : ∀ a, KeepsCellLaw s (f a).1) : KeepsCellLaw s (s.withCode v f).1 := by
  unfold State.withCode
  split
  · exact h _
  · exact .refl s

/-! ## The line mode and LINE_CLEAR (R164 to R169) -/

theorem State.doModeSet_keepsCellLaw (s : State) (m : LineMode) : KeepsCellLaw s (s.doModeSet m).1 := by
  have sets {x : LineMode} (hx : x ≠ .idle) : KeepsCellLaw s (s.setMode x .lineModeSet) :=
    s.setMode_keepsCellLaw x _ fun h => absurd h hx
  have still (h : s.lmf.mode = .idle) : KeepsCellLaw s (s.setMode .idle .lineModeSet) := by
    rw [State.setMode, if_pos h]
    exact .refl s
  unfold State.doModeSet
  split
  case h_1 => exact State.unless_keepsCellLaw _ _ fun _ => sets nofun
  case h_4 => exact State.unless_keepsCellLaw _ _ fun none => s.setMode_keepsCellLaw .idle _ fun _ => none
  case h_2 | h_3 | h_5 | h_6 | h_7 => exact .refl s
  case h_9 => exact still ‹_›
  all_goals exact sets nofun

theorem State.doResume_keepsCellLaw (s : State) : KeepsCellLaw s s.doResume.1 := by
  unfold State.doResume
  split
  · exact .refl s
  · split
    · exact .refl s
    · exact s.setMode_keepsCellLaw .pause _ nofun

/-- No program is in progress in STOP. -/
theorem CellLaw.rest_of_stop {s : State} (law : CellLaw s) (hm : s.lmf.mode = .stop) : AllRest s := fun c => by
  obtain ⟨lawful, lets⟩ := (cellOk_iff s c).1 (law c)
  refine lawful.resting (Option.eq_none_iff_forall_ne_some.2 fun p hp => ?_)
  obtain ⟨mode, -⟩ := lets p hp
  rw [hm] at mode
  exact mode.elim nofun nofun

theorem SprayCell.Resting.sameWork {v w : SprayCell} (h : v.Resting) (k : v.SameWork w) : w.Resting := by
  obtain ⟨program, executing, valve⟩ := h
  obtain ⟨hp, -, he, hv⟩ := k
  exact ⟨hp.trans program, he.trans executing, hv.trans valve⟩

theorem State.clearBlocks_rest {s : State} (h : AllRest s) : AllRest s.clearBlocks := fun c => by
  let s₁ : State :=
    { s with
      ltk := s.ltk.lineClear, rsc := s.rsc.lineClear
      ine := { mask := s.ine.mask.lineClear, inspect := s.ine.inspect.lineClear }
      scc := { a := s.scc.a.lineClear, b := s.scc.b.lineClear } }
  have cells : s.clearBlocks.cell c = s₁.cell c := State.cell_of_scc (s₁.clearTunnel_keeps.scc rfl) c
  rw [cells]
  refine (h c).sameWork ?_
  cases c <;> exact ⟨rfl, rfl, rfl, rfl⟩

theorem State.doLineClear_keepsCellLaw (s : State) : KeepsCellLaw s s.doLineClear.1 := by
  unfold State.doLineClear
  split
  · exact .refl s
  · rename_i hm
    have cleared : KeepsCellLaw s s.clearBlocks := fun law =>
      (State.clearBlocks_rest (law.rest_of_stop (not_not.1 hm))).cellLaw
    dsimp only [State.ok]
    split
    · exact (cleared.trans ((State.dropRead_keeps _ .load).keepsCellLaw rfl)).trans
        ((State.beginArrival_keeps _).keepsCellLaw rfl)
    · exact cleared

/-! ## Records admitted, removed, taken and disposed (R12, R16, R25, R155 to R160) -/

theorem State.lowestFree_none {s : State} {i : RecIx} (h : s.lowestFree = some i) : s.rec? i = none := by
  simpa using List.find?_some h

theorem State.admitTo_keepsCellLaw {s : State} {i : RecIx} (hi : s.rec? i = none) (e : LoadEntry) (r : CarrierRecord) :
    KeepsCellLaw s (s.admitTo i e r) := by
  have filled : KeepsCellLaw s (s.setRec i (some r)) :=
    s.setRec_keepsCellLaw i _ fun q hq _ => by rw [hi] at hq; cases hq
  exact (filled.trans ((State.setEntry_keeps _ _).keepsCellLaw rfl)).trans (State.requestLoad_keepsCellLaw _ i _)

theorem State.doAdmit_keepsCellLaw (s : State) (id : TagId) (n : Nat) (serial : List Byte) :
    KeepsCellLaw s (s.doAdmit id n serial).1 := by
  unfold State.doAdmit
  split
  · exact .refl s
  · split
    · exact .refl s
    · split
      · exact .refl s
      · split
        · exact .refl s
        · rename_i i hi
          split
          · exact .refl s
          · split
            · exact .refl s
            · exact State.admitTo_keepsCellLaw (State.lowestFree_none hi) _ _

theorem State.doRemove_keepsCellLaw (s : State) (i : RecIx) : KeepsCellLaw s (s.doRemove i).1 := by
  have pending : KeepsCellLaw s (s.modRec i fun r => { r with removalPending := true }) :=
    s.modRec_keepsCellLaw i (fun _ ok => ⟨{ ok with }, le_refl _, le_refl _⟩) fun _ => rfl
  unfold State.doRemove
  split
  · exact .refl s
  · split
    · exact pending
    all_goals exact s.retire_keepsCellLaw i .removed

theorem CarrierRecord.isDone_not_inPass {r : CarrierRecord} (h : r.isDone = true) : ¬ r.status.inPass = true := by
  unfold CarrierRecord.isDone at h
  cases hs : r.status <;> simp_all [Status.inPass]

theorem State.doTraceTake_keepsCellLaw (s : State) (i : RecIx) : KeepsCellLaw s (s.doTraceTake i).1 := by
  unfold State.doTraceTake
  split
  · rename_i r hr
    refine State.unless_keepsCellLaw _ _ fun done => ?_
    have freed : KeepsCellLaw s (s.setRec i none) := s.setRec_keepsCellLaw i none fun q hq pass => by
      cases hr.symm.trans hq
      exact absurd pass (CarrierRecord.isDone_not_inPass done)
    exact freed.trans ((State.rematch_keeps _ _ _).keepsCellLaw rfl)
  · exact .refl s

/-- A record written with the status it had. -/
theorem State.setRec_keepsCellLaw_of_status {s : State} {i : RecIx} {r r' : CarrierRecord} (hr : s.rec? i = some r)
    (hs : r'.status = r.status) : KeepsCellLaw s (s.setRec i (some r')) :=
  s.setRec_keepsCellLaw i _ fun q hq pass => by
    cases hr.symm.trans hq
    exact ⟨r', rfl, hs ▸ pass⟩

theorem State.rework_keepsCellLaw {s : State} {i : RecIx} {r : CarrierRecord} (hr : s.rec? i = some r) (h : Hold)
    (d : Disposition) (l : Link) : KeepsCellLaw s (s.rework i r h d l) := by
  have status (b : Prop) [Decidable b] (q : CarrierRecord) : (if b then stripRecord q else q).status = q.status := by
    split <;> rfl
  unfold State.rework
  dsimp only
  exact ((State.setRec_keepsCellLaw_of_status hr (status _ { r with hold := some (h.disposed d l s.now) })).trans
    ((State.holdChanged_keeps _ i _).keepsCellLaw rfl)).trans ((State.rematch_keeps _ _ _).keepsCellLaw rfl)

theorem State.closeOut_keepsCellLaw {s : State} {i : RecIx} {r : CarrierRecord} (hr : s.rec? i = some r) (h : Hold)
    (d : Disposition) (l : Link) (o : DoneOutcome) : KeepsCellLaw s (s.closeOut i r h d l o) := by
  have closed (g : List HistoryEntry) (b : ReportBody) :
      KeepsCellLaw s (((s.setRec i (some { r with hold := none, history := g })).queueReport b).retire i o) :=
    ((State.setRec_keepsCellLaw_of_status (r' := { r with hold := none, history := g }) hr rfl).trans
      ((State.queueReport_keeps _ b).keepsCellLaw rfl)).trans
      (State.retire_keepsCellLaw _ i o)
  unfold State.closeOut
  dsimp only
  split
  · exact (closed _ _).trans ((State.askWrite_keeps _ _ _ _).keepsCellLaw rfl)
  · exact closed _ _

theorem State.doHoldDispose_keepsCellLaw (s : State) (l : Link) (i : RecIx) (d : Disposition) :
    KeepsCellLaw s (s.doHoldDispose l i d).1 := by
  unfold State.doHoldDispose
  split
  · exact .refl s
  · rename_i e
    obtain ⟨hr, -⟩ := State.holdOpenTo_some e
    split
    · exact .refl s
    · split
      · exact .refl s
      · exact State.closeOut_keepsCellLaw hr _ _ _ _
      · exact State.rework_keepsCellLaw hr _ _ _

/-! ## A request taken (R177 to R179) -/

theorem State.dispatch_keepsCellLaw (s : State) (l : Link) (tag : Byte) (r : Request) :
    KeepsCellLaw s (s.dispatch l tag r).1 := by
  have apart (hr : (partsOfRequest r).apart = true) := (s.dispatch_onlyIn l tag r).keepsCellLaw hr
  cases r with
  | lineModeSet m => exact State.withCode_keepsCellLaw _ s.doModeSet_keepsCellLaw
  | resume => exact s.doResume_keepsCellLaw
  | lineClear => exact s.doLineClear_keepsCellLaw
  | admitCarrier id n serial => exact s.doAdmit_keepsCellLaw id _ serial
  | remove i => exact State.withRec_keepsCellLaw i s.doRemove_keepsCellLaw
  | traceTake i => exact State.withRec_keepsCellLaw i s.doTraceTake_keepsCellLaw
  | holdDispose i d =>
    exact State.withRec_keepsCellLaw i fun i => State.withCode_keepsCellLaw _ (s.doHoldDispose_keepsCellLaw l i)
  | cellHome c => exact State.withCode_keepsCellLaw _ s.doCellHome_keepsCellLaw
  | cellAbort c => exact State.withCode_keepsCellLaw _ s.doCellAbort_keepsCellLaw
  | cellClear c => exact State.withCode_keepsCellLaw _ s.doCellClear_keepsCellLaw
  | identify | lineStatus | faultRead | carrierRead | benchList | slotList | lineConfig | faultAck | markClear
  | holdPlace | holdRead | holdClaim | holdUnclaim | instructionPost | findingPost | findingRead | headClear | lampSet
  | storeRead | storeWrite | recipeCheck => exact apart rfl

theorem State.screen_keepsCellLaw (s : State) (l : Link) (kind tag : Byte) (r : Option Request) :
    KeepsCellLaw s (s.screen l kind tag r) := by
  have screened : KeepsCellLaw s (s.screenRequest l kind tag r).1 := by
    unfold State.screenRequest
    split
    · exact .refl s
    · split
      · exact .refl s
      · split
        · exact .refl s
        · split
          · exact .refl s
          · split
            · exact .refl s
            · exact s.dispatch_keepsCellLaw l tag _
  unfold State.screen
  split
  · exact .refl s
  · unfold Answer.deliver
    split
    · exact screened.trans ((State.sendReply_onlyIn _ l _).keepsCellLaw rfl)
    · exact screened

theorem State.take_keepsCellLaw (s : State) (l : Link) (f : Frame) (r : Option Request) : KeepsCellLaw s (s.take l f r) := by
  unfold State.take
  split
  · exact .refl s
  · cases l with
    | bench =>
      dsimp only
      split
      · exact .refl s
      · exact (s.benchHeard_onlyIn.keepsCellLaw rfl).trans (State.screen_keepsCellLaw _ _ _ _ _)
    | host =>
      dsimp only
      split
      · exact .refl s
      · split
        · exact (s.setHeld_onlyIn _).keepsCellLaw rfl
        · exact s.screen_keepsCellLaw _ _ _ _

theorem State.screenHeld_keepsCellLaw (s : State) : KeepsCellLaw s s.screenHeld := by
  unfold State.screenHeld
  split
  · split
    · exact .refl s
    · exact ((s.setHeld_onlyIn none).keepsCellLaw rfl).trans (State.screen_keepsCellLaw _ _ _ _ _)
  · exact .refl s

theorem State.receive_keepsCellLaw (s : State) (l : Link) (bytes : List Byte) : KeepsCellLaw s (s.receive l bytes) := by
  refine KeepsCellLaw.foldl (fun t x => ?_) bytes s
  unfold State.receiveByte
  split
  · exact .refl t
  · have heard (v : Rx) : KeepsCellLaw t (t.setRx l v) := (t.setRx_onlyIn l v).keepsCellLaw rfl
    dsimp only
    split
    · exact (heard _).trans (State.take_keepsCellLaw _ _ _ _)
    · exact heard _

/-! ## The store's accesses (R26, R40) -/

theorem State.grant_keepsCellLaw (s : State) : KeepsCellLaw s s.grant := by
  unfold State.grant
  split
  · exact .refl s
  · split
    · exact s.grantStartUp_keeps.keepsCellLaw rfl
    · exact s.grantFetch_keepsCellLaw _
    · exact s.grantHost_keeps.keepsCellLaw rfl
    · exact s.grantHost_keeps.keepsCellLaw rfl
    · exact s.grantLoader_keeps.keepsCellLaw rfl
    · exact .refl s

theorem State.handRead_keepsCellLaw (s : State) (who : Requestor) (bytes : List Byte) :
    KeepsCellLaw s (s.handRead who bytes) := by
  unfold State.handRead
  split
  · exact s.startUpTakes_keepsCellLaw _
  · exact s.landFetch_keepsCellLaw _ _
  · split
    · exact (s.readBackEnd_keeps _ _ _).keepsCellLaw rfl
    all_goals exact .refl s
  · exact s.loaderTakes_keepsCellLaw _
  · exact (s.hostTakes_keeps _).keepsCellLaw rfl

theorem State.handError_keepsCellLaw (s : State) (who : Requestor) : KeepsCellLaw s (s.handError who) := by
  unfold State.handError
  split
  · exact s.startUpTakes_keepsCellLaw _
  · exact s.failFetch_keepsCellLaw _
  · split
    · exact (s.readBackEnd_keeps _ _ _).keepsCellLaw rfl
    all_goals exact .refl s
  · exact s.loaderFails_keepsCellLaw
  · exact s.hostFails_keeps.keepsCellLaw rfl

/-- The store's bytes and the free values of the model are no part of the law. -/
theorem State.setStore_keepsCellLaw (s : State) (store : List Host.Cell) (n : Nat) :
    KeepsCellLaw s { s with store := store, freeCount := n } :=
  .of_sameWork (fun c => .of_eq (by cases c <;> rfl)) fun _ => id

theorem State.accessEnd_keepsCellLaw (s : State) (a : Access) : KeepsCellLaw s (s.accessEnd a) := by
  have closed : KeepsCellLaw s s.closePort := s.closePort_keeps.keepsCellLaw rfl
  unfold State.accessEnd
  split
  · exact closed.trans (State.handRead_keepsCellLaw _ _ _)
  · rename_i o data _
    have put : KeepsCellLaw s.closePort (s.closePort.putStore o data) := State.setStore_keepsCellLaw _ _ s.closePort.freeCount
    exact (closed.trans put).trans ((State.handWrite_keeps _).keepsCellLaw rfl)

theorem State.spoil_keepsCellLaw (s : State) (op : AccessOp) : KeepsCellLaw s (s.spoil op) := by
  cases op with
  | read => exact .refl s
  | write => exact s.setStore_keepsCellLaw _ _

theorem State.accessError_keepsCellLaw (s : State) (a : Access) : KeepsCellLaw s (s.accessError a) := by
  unfold State.accessError
  exact (((((s.reach_keeps _ _).keepsCellLaw rfl).trans ((State.closePort_keeps _).keepsCellLaw rfl)).trans
    (State.spoil_keepsCellLaw _ _)).trans (State.noteFault_keepsCellLaw _ _ _ _)).trans (State.handError_keepsCellLaw _ _)

/-! ## Every command keeps the law -/

theorem State.powerOn_rest (s : State) (fast : Bool) : AllRest (s.powerOn fast) := by
  intro c
  have off : (s.powerOn fast).cell c = SprayCell.reset := by cases c <;> rfl
  rw [off]
  exact ⟨rfl, rfl, rfl⟩

/-- What a command goes on to keeps the law. -/
def LeadsToCellLaw (s : State) (o : Host.Outcome State Fault Refusal) : Prop := ∀ t, o = .next t → KeepsCellLaw s t

theorem State.goesOn_leadsToCellLaw {s u : State} (h : KeepsCellLaw s u) : LeadsToCellLaw s u.goesOn := fun t e => by
  cases e
  exact h.trans u.settle_keepsCellLaw

theorem State.endAccess_leadsToCellLaw {s : State} {f : State → Access → State} (hf : ∀ a, KeepsCellLaw s (f s a)) :
    LeadsToCellLaw s (s.endAccess f) := by
  unfold State.endAccess
  split
  · split
    · exact State.goesOn_leadsToCellLaw (hf _)
    · exact fun _ e => nomatch e
  · exact State.goesOn_leadsToCellLaw (.refl s)

/-- A command that goes on within parts that are no part of the law. -/
theorem GoesOnWithin.leadsToCellLaw {c : Instr} {s : State} (h : GoesOnWithin c s) (hc : (commandParts c).apart = true) :
    LeadsToCellLaw s (exec c s) := by
  obtain ⟨u, e, only⟩ := h
  rw [e]
  exact State.goesOn_leadsToCellLaw (only.keepsCellLaw hc)

theorem exec_leadsToCellLaw (s : State) (c : Instr) : LeadsToCellLaw s (exec c s) := by
  have goesOn {u : State} (h : KeepsCellLaw s u) := State.goesOn_leadsToCellLaw h
  cases c with
  | por fast => exact goesOn fun _ => (s.powerOn_rest fast).cellLaw
  | emergencyStop => exact goesOn s.estopEvent_keepsCellLaw
  | frameValid l bytes => exact goesOn (s.receive_keepsCellLaw l bytes)
  | heldFrameScreen => exact goesOn s.screenHeld_keepsCellLaw
  | storeGrant => exact goesOn s.grant_keepsCellLaw
  | storeAccessEnd => exact State.endAccess_leadsToCellLaw s.accessEnd_keepsCellLaw
  | storeAccessTimeout => exact State.endAccess_leadsToCellLaw s.accessError_keepsCellLaw
  | tagReadAttemptEnd p x => exact goesOn (s.readEnd_keepsCellLaw p x)
  | moveBegin i => exact goesOn (s.moveBegin_keepsCellLaw i)
  | transportTimeout i => exact goesOn (s.moveTimeout_keepsCellLaw i)
  | carrierMissing p => exact goesOn (s.carrierMissing_keepsCellLaw p)
  | benchMoveStart => exact goesOn s.benchMoveStart_keepsCellLaw
  | homeReached x => exact goesOn (s.homeReached_keepsCellLaw x)
  | homeTimeout x => exact goesOn (s.homeTimeout_keepsCellLaw x)
  | programStart x => exact goesOn (s.startProgram_keepsCellLaw x)
  | seekEnd x => exact goesOn (s.seekEnd_keepsCellLaw x)
  | leadTimerExpiry x => exact goesOn (s.leadExpiry_keepsCellLaw x)
  | valveCloseTimer x => exact goesOn (s.valveClose_keepsCellLaw x)
  | motionEnd x => exact goesOn (s.motionEnd_keepsCellLaw x)
  | valveFault x => exact goesOn (s.valveFault_keepsCellLaw x)
  | gantryTimeout x => exact goesOn (s.gantryTimeout_keepsCellLaw x)
  | gantryHaltReport x => exact goesOn (s.haltReport_keepsCellLaw x _ _ _)
  | starveLimit x => exact goesOn (s.starveLimit_keepsCellLaw x)
  | entryTransferStart => exact goesOn s.entryStart_keepsCellLaw
  | encoderPulse l => exact goesOn (s.encoderPulse_keepsCellLaw l)
  | exitTransferStart => exact goesOn s.exitGrant_keepsCellLaw
  | thermalSample adc => exact goesOn (s.thermalSample_keepsCellLaw adc)
  | emergencyStopRelease | frameDiscard | rxGapTimeout | hostTxDone | benchTxDone | benchSilenceExpiry | loadArrival
  | tagWriteAttemptEnd | loadEntryClear | moveEnd | sourceCleared | carrierLifted | carrierSetBack | doneCarrierLifted
  | walkStart | positionerArrival | inspectPositionTimeout | channelResult | groupWaitExpiry | resultTimerExpiry
  | laneEntryEnd | uvSample | warmUpEnd | ballastFault | ballastFaultInactive | exitTransferEnd =>
    exact GoesOnWithin.leadsToCellLaw (exec_goesOnWithin s _ (fun _ h => nomatch h) (fun h => nomatch h) fun h => nomatch h) rfl
  | identify | lineStatus | lineModeSet | resume | lineConfig | lineClear | faultRead | faultAck | admitCarrier | remove
  | markClear | carrierRead | traceTake | holdPlace | holdRead | holdClaim | holdUnclaim | instructionPost | findingPost
  | findingRead | benchList | holdDispose | cellHome | cellAbort | cellClear | headClear | lampSet | storeRead | storeWrite
  | recipeCheck | slotList => exact goesOn (s.take_keepsCellLaw _ _ _)

/-- Settles O7: each command keeps the law of both cells, and so does the part as it settles. -/
theorem stepsKeepTheValveLaw : Obligations.StepsKeepTheValveLaw := by
  intro s t law e
  unfold step at e
  split at e
  · rename_i c rest _
    have lawful : KeepsCellLaw s { s with pending := rest } :=
      .of_sameWork (fun c => .of_eq (by cases c <;> rfl)) fun _ => id
    exact exec_leadsToCellLaw _ c t e (lawful law)
  · cases e
    exact (s.atTime_keeps _).keepsCellLaw rfl law

end Sys2Proof.Machine
end

section
/-! SUPPORT. A request heard and refused (R179); a cell that goes to another state with CELL_STATE (R86); the record that stands
at a place. -/

namespace Sys2Proof.Machine

/-! ## A request that is heard is screened (R177 to R179) -/

theorem kindOf_request (r : Request) : requestKinds.contains (kindOf r) = true := by cases r <;> rfl

theorem State.takeRequest_heard {s : State} {l : Link} (h : s.hears l = true) (tag : Byte) (r : Request) :
    s.takeRequest l tag r = (s.heard l).screen l (kindOf r) tag (if r.lengthOk then some r else none) := by
  unfold State.takeRequest State.take
  cases l with
  | host =>
    simp only [State.hears, Bool.and_eq_true, Bool.not_eq_true', decide_eq_true_eq, Option.isNone_iff_eq_none] at h
    obtain ⟨hstart, hheld, hplaces⟩ := h
    rw [if_neg (by simp [hstart])]
    dsimp only
    rw [if_neg (by simp [hheld]), if_neg (by omega)]
    rfl
  | bench =>
    simp only [State.hears, Bool.and_eq_true, Bool.not_eq_true', Option.isNone_iff_eq_none] at h
    obtain ⟨hstart, hfree⟩ := h
    rw [if_neg (by simp [hstart])]
    dsimp only
    rw [if_neg (by simp [hfree])]
    rfl

/-- A request screened and answered without an effect. -/
theorem State.takeRequest_refused {s : State} {l : Link} (h : s.hears l = true) (tag : Byte) {r : Request} {st : ReplyStatus}
    (hs : (s.heard l).screenRequest l (kindOf r) tag (if r.lengthOk then some r else none) = (s.heard l).refuse st) :
    (s.takeRequest l tag r).goesOn = .next ((s.heard l).answers l tag r st []).settle := by
  refine State.goesOn_congr ?_
  rw [State.takeRequest_heard h, State.screen, if_neg (Nat.not_le.2 (request_kind_lt _ (kindOf_request r))), hs]
  rfl

/-- A request that its link does not carry (R179 step 3). -/
theorem State.takeRequest_notCarried {s : State} {l : Link} (h : s.hears l = true) (tag : Byte) {r : Request}
    (hc : carries l (kindOf r) = false) :
    (s.takeRequest l tag r).goesOn = .next ((s.heard l).answers l tag r .notPermitted []).settle := by
  refine State.takeRequest_refused h tag ?_
  unfold State.screenRequest
  rw [if_neg (by rw [kindOf_request]; exact nofun), if_pos (by simp [hc])]

/-- A request with a field out of its range (R179 step 5). -/
theorem State.takeRequest_outOfRange {s : State} {l : Link} (h : s.hears l = true) (tag : Byte) {r : Request}
    (hc : carries l (kindOf r) = true) (hl : r.lengthOk = true) (hr : rangesOk r = false) :
    (s.takeRequest l tag r).goesOn = .next ((s.heard l).answers l tag r .badValue []).settle := by
  refine State.takeRequest_refused h tag ?_
  unfold State.screenRequest
  rw [if_neg (by rw [kindOf_request]; exact nofun), if_neg (by simp [hc]), if_pos hl]
  exact if_pos (by simp [hr])

theorem State.hears_of_takesRequest {s : State} {l : Link} (h : s.takesRequest l = true) : s.hears l = true := by
  unfold State.takesRequest at h
  exact (Bool.and_eq_true _ _ ▸ h).1

/-! ## A cell goes to a state (R86) -/

section
variable (s : State) (c : CellId)

theorem State.setCell_queueReport (v : SprayCell) (b : ReportBody) :
    (s.setCell c v).queueReport b = (s.queueReport b).setCell c v := by
  unfold State.queueReport
  rw [State.setCell_liu]
  by_cases room : s.liu.reports.length < Config.reportQueueMax
  · rw [if_pos room, if_pos room]
    cases c <;> rfl
  · rw [if_neg room, if_neg room]
    by_cases full : s.liu.full
    · rw [if_pos full, if_pos full]
      cases c <;> rfl
    · rw [if_neg full, if_neg full]
      cases c <;> rfl

theorem State.setCell_noteFault (v : SprayCell) (code : FaultCode) (o : Origin) (d : FaultDetail) :
    (s.setCell c v).noteFault code o d = (s.noteFault code o d).setCell c v := by
  have noted : (s.setCell c v).noteFault code o d =
      ((s.setRecord (s.lmf.record.note (s.faultEntry code o d))).setCell c v).queueReport
        (.fault code.cls (s.faultEntry code o d)) := by cases c <;> rfl
  rw [noted, State.setCell_queueReport]
  rfl

/-- A cell edited and taken to another state, told by CELL_STATE. -/
theorem State.modCell_cellTo_told {f : SprayCell → SprayCell} {st : CellState} (h : (f (s.cell c)).state.reported st = true)
    (why : CellCause) (i : Option RecIx) :
    (s.modCell c f).cellTo c st why i =
      (s.setCell c { f (s.cell c) with state := st }).queueReport (.cellState c st why i) := by
  unfold State.cellTo
  dsimp only
  rw [State.modCell_cell, if_pos h]
  simp only [State.modCell, State.setCell_cell_self, State.setCell_setCell]

/-- A cell edited and left in its state, or moved between working states: no CELL_STATE. -/
theorem State.modCell_cellTo_still {f : SprayCell → SprayCell} {st : CellState} (h : (f (s.cell c)).state.reported st = false)
    (why : CellCause) (i : Option RecIx) :
    (s.modCell c f).cellTo c st why i = s.setCell c { f (s.cell c) with state := st } := by
  unfold State.cellTo
  dsimp only
  rw [State.modCell_cell, if_neg (by simp [h])]
  simp only [State.modCell, State.setCell_cell_self, State.setCell_setCell]

end

end Sys2Proof.Machine
end

section
/-! PROOF. CELL_HOME and CELL_CLEAR (R70, R88); homing and halt reports (R71, R79, R86). -/

namespace Sys2Proof.Machine

/-! ## CELL_HOME and CELL_CLEAR (R70, R88) -/

theorem cellOf_none {v : Byte} (h : 2 ≤ v.toNat) : cellOf v = none := by
  unfold cellOf
  rw [if_neg (by rintro rfl; simp at h), if_neg (by rintro rfl; simp at h)]

theorem wellAsked_cellHome {v : Byte} {c : CellId} (hv : cellOf v = some c) : wellAsked .host (.cellHome v) = true := by
  change (cellOf v).isSome = true
  rw [hv]
  rfl

theorem wellAsked_cellClear {v : Byte} {c : CellId} (hv : cellOf v = some c) : wellAsked .host (.cellClear v) = true := by
  change (cellOf v).isSome = true
  rw [hv]
  rfl

theorem wellAsked_cellAbort {v : Byte} {c : CellId} (hv : cellOf v = some c) : wellAsked .host (.cellAbort v) = true := by
  change (cellOf v).isSome = true
  rw [hv]
  rfl

theorem State.withCode_some {α : Type} {v : Option α} {a : α} (h : v = some a) (s : State) (f : α → Answer) :
    s.withCode v f = f a := by
  rw [h]
  rfl

/-- CELL_HOME in a mode other than STOP, by the state of the cell (R70). -/
theorem State.doCellHome_eq {s : State} (hm : s.lmf.mode ≠ .stop) (c : CellId) :
    s.doCellHome c =
      match (s.cell c).state with
      | .unhomed => (s.startHoming c).ok []
      | .homing | .ready => s.ok []
      | .priming | .running | .starved | .faulted => s.refuse .notPermitted := if_neg hm

theorem State.startHoming_eq {s : State} {c : CellId} (hs : (s.cell c).state = .unhomed) :
    s.startHoming c =
      (s.setCell c { s.cell c with state := .homing, homeTimer := some { since := s.now, ms := 10000 } }).queueReport
        (.cellState c .homing .cellHome none) :=
  State.modCell_cellTo_told s c (by rw [hs]; rfl) _ _

/-- The cell that CELL_CLEAR leaves (R88). -/
theorem State.doCellClear_eq {s : State} {c : CellId} (hs : (s.cell c).state.working = false) :
    s.doCellClear c = ((s.modCell c SprayCell.lostHoming).cellTo c .unhomed .cellClear none).ok [] :=
  if_neg (by simp [hs])

theorem State.doCellClear_working {s : State} {c : CellId} (hs : (s.cell c).state.working = true) :
    s.doCellClear c = s.refuse .notPermitted := if_pos hs

/-- Settles O36, by the states of the cell. -/
theorem cellHomeAndCellClear : Obligations.CellHomeAndCellClear := by
  refine ⟨fun s tag v c => ⟨fun hb => ?bench, fun ht => ?home⟩, fun s tag v c ht hv => ?clear⟩
  case bench => exact State.takeRequest_notCarried hb tag rfl
  case home =>
    intro reply
    have answered {u : State} {st : ReplyStatus} (hv : cellOf v = some c) (hu : s.doCellHome c = (u, some (st, []))) :
        reply u st :=
      State.takeRequest_answered ht (wellAsked_cellHome hv) tag ((State.withCode_some hv s s.doCellHome).trans hu)
    refine ⟨fun h => ?_, fun hv hm => answered hv (if_pos hm), fun hv hm => ?_⟩
    · exact State.takeRequest_outOfRange (State.hears_of_takesRequest ht) tag rfl rfl
        (by change (cellOf v).isSome = false; rw [cellOf_none h]; rfl)
    · have acts := State.doCellHome_eq hm c
      cases hs : (s.cell c).state with
      | unhomed =>
        rw [hs] at acts
        exact answered hv (acts.trans (congrArg (fun u : State => u.ok []) (State.startHoming_eq hs)))
      | homing | ready | priming | running | starved | faulted =>
        rw [hs] at acts
        exact answered hv acts
  case clear =>
    intro reply u
    have answered {u : State} {st : ReplyStatus} (hu : s.doCellClear c = (u, some (st, []))) : reply u st :=
      State.takeRequest_answered ht (wellAsked_cellClear hv) tag ((State.withCode_some hv s s.doCellClear).trans hu)
    cases hs : (s.cell c).state with
    | priming | running | starved => exact answered (State.doCellClear_working (by rw [hs]; rfl))
    | unhomed =>
      have still := State.modCell_cellTo_still s c (f := SprayCell.lostHoming) (st := .unhomed)
        (by simp [SprayCell.lostHoming, SprayCell.stopTimers, hs, CellState.reported]) .cellClear none
      exact answered ((State.doCellClear_eq (by rw [hs]; rfl)).trans (congrArg (fun u : State => u.ok []) still))
    | homing | ready | faulted =>
      have told := State.modCell_cellTo_told s c (f := SprayCell.lostHoming) (st := .unhomed)
        (by simp [SprayCell.lostHoming, SprayCell.stopTimers, hs, CellState.reported, CellState.working]) .cellClear none
      exact answered ((State.doCellClear_eq (by rw [hs]; rfl)).trans (congrArg (fun u : State => u.ok []) told))

/-! ## Homing and halt reports (R71, R79, R86) -/

theorem State.homeReached_homing {s : State} {c : CellId} (hs : (s.cell c).state = .homing) :
    s.homeReached c =
      (s.setCell c { s.cell c with state := .ready, homeTimer := none, gantry := some ⟨0, 0, 300⟩, haltDue := false
        }).queueReport (.cellState c .ready .homeReached none) := by
  unfold State.homeReached
  rw [if_pos hs]
  exact State.modCell_cellTo_told s c (by simp [hs, CellState.reported, CellState.working]) _ _

theorem State.homeTimeout_homing {s : State} {c : CellId} {t : Timer} (hs : (s.cell c).state = .homing)
    (ht : (s.cell c).homeTimer = some t) :
    s.homeTimeout c =
      (((s.expire t).noteFault .homeTimeout (.scc c) {}).setCell c
        { s.cell c with state := .faulted, homeTimer := none, gantry := none, haltDue := true, valveOpen := false
        }).queueReport (.cellState c .faulted .homeTimeout none) := by
  unfold State.homeTimeout
  simp only [hs, ht]
  have noted : ((s.expire t).modCell c fun v => { v.faultHalt with homeTimer := none }).noteFault .homeTimeout (.scc c) {} =
      ((s.expire t).noteFault .homeTimeout (.scc c) {}).modCell c fun v => { v.faultHalt with homeTimer := none } := by
    rw [State.modCell, State.setCell_noteFault, State.modCell, State.noteFault_cell]
  rw [noted, State.modCell_cellTo_told _ _ (by
    simp [SprayCell.faultHalt, hs, CellState.reported, CellState.working]), State.noteFault_cell, State.expire_cell]
  rfl

/-- Settles O51, event by event. -/
theorem cellsHomeAndHalt : Obligations.CellsHomeAndHalt := by
  intro s c x y z v
  refine ⟨fun hs => ⟨State.goesOn_congr (State.homeReached_homing hs), fun t ht => ?_⟩, fun hs => ⟨?_, ?_⟩, rfl⟩
  · exact State.goesOn_congr (State.homeTimeout_homing hs ht)
  · exact State.goesOn_congr (if_neg hs)
  · refine State.goesOn_congr ?_
    unfold State.homeTimeout
    split
    · exact absurd ‹_› hs
    · rfl

end Sys2Proof.Machine
end

section
/-! PROOF. A program starts, and its segments go through SEEK, LEAD and MOTION (R72, R76, R77). -/

namespace Sys2Proof.Machine

section
variable {s : State} {c : CellId} {i : RecIx} {r : CarrierRecord} {p : Recipe}

/-- The conditions of PROGRAM_START (R72). -/
theorem State.programReady_of (hat : s.recordAt (cellPlace c) = some i) (hr : s.rec? i = some r)
    (hp : s.recipeOf i = some p) (hs : (s.cell c).state = .ready) (hm : s.lmf.mode = .run) (ha : r.status = .active)
    (ht : r.tagCheck = .passed) (hmark : (s.cell c).runMark ≠ some { ix := i, pass := r.pass }) :
    s.programReady c = some (i, r, p) := by
  unfold State.programReady
  simp only [hat, hr, hp]
  exact if_pos ⟨hs, hm, ha, ht, by simpa [SprayCell.marked] using hmark⟩

theorem State.programReady_none (h : s.lmf.mode ≠ .run ∨ (s.cell c).state ≠ .ready ∨ s.recordAt (cellPlace c) = none) :
    s.programReady c = none := by
  by_contra hne
  obtain ⟨⟨i, r, p⟩, ready⟩ := Option.ne_none_iff_exists'.1 hne
  obtain ⟨state, mode, -⟩ := State.programReady_some ready
  rcases h with h | h | h
  · exact h mode
  · exact h state
  · unfold State.programReady at ready
    rw [h] at ready
    cases ready

theorem State.startProgram_ready (h : s.programReady c = some (i, r, p)) (hs : (s.cell c).state = .ready) :
    s.startProgram c =
      (s.setCell c { (s.cell c).started i r.pass (progOf c p) with state := .priming }).queueReport
        (.cellState c .priming .programStart (some i)) := by
  unfold State.startProgram
  simp only [h]
  exact State.modCell_cellTo_told s c (by simp [SprayCell.started, hs, CellState.reported, CellState.working]) _ _

theorem State.startProgram_unready (h : s.programReady c = none) : s.startProgram c = s := by
  unfold State.startProgram
  simp only [h]

end

section
variable {s : State} {c : CellId} {e : Executing}

/-- A cell whose gantry has sought a segment's start (R76). -/
def SprayCell.stands (v : SprayCell) (e : Executing) : SprayCell :=
  { v with gantryTimer := none, gantry := some ⟨e.seg.x, e.seg.y, e.seg.z⟩, haltDue := false }

theorem State.seekEnd_eq (he : (s.cell c).executing = some e) (hph : e.phase = .seek) :
    s.seekEnd c = (s.setCell c ((s.cell c).stands e)).beginStroke c e := by
  unfold State.seekEnd
  simp only [he]
  exact if_pos hph

theorem State.seekEnd_dry (he : (s.cell c).executing = some e) (hph : e.phase = .seek) (hf : e.feff = 0) :
    s.seekEnd c = s.setCell c (((s.cell c).stands e).inMotion s.now e) := by
  rw [State.seekEnd_eq he hph, State.beginStroke_of_dry hf]
  simp only [State.setCell_setCell, State.setCell_cell_self, State.setCell_now]

theorem State.seekEnd_noLead (he : (s.cell c).executing = some e) (hph : e.phase = .seek) (hf : 0 < e.feff)
    (hl : e.lead = 0) :
    s.seekEnd c = s.setCell c (({ (s.cell c).stands e with valveOpen := true } : SprayCell).inMotion s.now e) := by
  rw [State.seekEnd_eq he hph, State.beginStroke_of_noLead hf hl]
  simp only [State.setCell_setCell, State.setCell_cell_self, State.setCell_now]

theorem State.seekEnd_lead (he : (s.cell c).executing = some e) (hph : e.phase = .seek) (hf : 0 < e.feff)
    (hl : e.lead ≠ 0) : s.seekEnd c = s.setCell c (((s.cell c).stands e).inLead s.now e) := by
  rw [State.seekEnd_eq he hph, State.beginStroke_of_lead hf hl]
  simp only [State.setCell_setCell, State.setCell_cell_self, State.setCell_now]

theorem State.leadExpiry_eq {t : Timer} (he : (s.cell c).executing = some e) (hph : e.phase = .lead)
    (ht : (s.cell c).leadTimer = some t) :
    s.leadExpiry c =
      (s.expire t).setCell c (({ s.cell c with leadTimer := none } : SprayCell).inMotion (s.expire t).now e) := by
  unfold State.leadExpiry
  simp only [he, ht]
  rw [if_pos hph, State.beginMotion_eq]
  simp only [State.modCell, State.setCell_setCell, State.setCell_cell_self, State.setCell_now, State.expire_cell]
  rfl

theorem State.valveClose_eq {t : Timer} (ht : (s.cell c).valveTimer = some t) :
    s.valveClose c = (s.expire t).setCell c { s.cell c with valveTimer := none, valveOpen := false } := by
  unfold State.valveClose
  simp only [ht]
  rw [State.modCell, State.expire_cell]

end

/-- Settles O52, command by command. -/
theorem segmentsGoThroughTheirPhases : Obligations.SegmentsGoThroughTheirPhases := by
  intro s c v
  refine ⟨fun i r p hat hr hp hs hm ha ht hmark => ?start, fun h => ?unready, fun e he hph => ?seek,
    fun e t he hph ht hv => ?lead, fun t ht => State.goesOn_congr (State.valveClose_eq ht)⟩
  case start =>
    exact State.goesOn_congr (State.startProgram_ready (State.programReady_of hat hr hp hs hm ha ht hmark) hs)
  case unready => exact State.goesOn_congr (State.startProgram_unready (State.programReady_none h))
  case seek =>
    refine ⟨fun hf hv => ?_, fun hf hl => ?_, fun hf hl => ?_⟩
    · refine State.goesOn_congr ((State.seekEnd_dry he hph hf).trans ?_)
      simp [SprayCell.inMotion, SprayCell.stands, v, show (s.cell c).valveOpen = false from hv]
    · exact State.goesOn_congr (State.seekEnd_noLead he hph hf hl)
    · exact State.goesOn_congr (State.seekEnd_lead he hph hf hl)
  case lead =>
    refine State.goesOn_congr ((State.leadExpiry_eq he hph ht).trans ?_)
    simp [SprayCell.inMotion, v, show (s.cell c).valveOpen = true from hv]

end Sys2Proof.Machine
end

section
/-! PROOF. What follows every command (R73, R181, R184). -/

namespace Sys2Proof.Machine

theorem SprayCell.asks_iff {v : SprayCell} {p : Program} (hp : v.program = some p) :
    v.asks = true ↔ (v.state = .priming ∨ v.state = .running ∨ v.state = .starved) ∧ v.buffer[v.fill] = none ∧
      v.fetchIndex < p.count ∧ v.fetch = .none := by
  have working : v.state.working = true ↔ v.state = .priming ∨ v.state = .running ∨ v.state = .starved := by
    cases v.state <;> simp [CellState.working]
  unfold SprayCell.asks
  rw [hp]
  simp only [Bool.and_eq_true, decide_eq_true_eq, Option.isNone_iff_eq_none, working, and_assoc]

theorem State.askFetch_cell (s : State) (c : CellId) :
    (s.askFetch c).cell c = if (s.cell c).asks then { s.cell c with fetch := .waiting } else s.cell c := by
  unfold State.askFetch
  split
  · exact s.modCell_cell c _
  · rfl

theorem State.askFetch_onlyCell (s : State) (c : CellId) : OnlyCell c s (s.askFetch c) := by
  unfold State.askFetch
  split
  · exact s.modCell_onlyCell c _
  · exact OnlyCell.refl c s

theorem State.startTx_cell (s : State) (c : CellId) : s.startTx.cell c = s.cell c :=
  State.cell_of_scc (s.startTx_onlyIn.scc rfl) c

theorem State.settle_cell (s : State) (c : CellId) :
    s.settle.cell c = if (s.cell c).asks then { s.cell c with fetch := .waiting } else s.cell c := by
  have shown : s.settle = ((s.askFetch .a).askFetch .b).startTx := rfl
  rw [shown, State.startTx_cell]
  cases c with
  | a => rw [State.askFetch_onlyCell _ .b .a nofun, State.askFetch_cell]
  | b => rw [State.askFetch_cell, s.askFetch_onlyCell .a .b nofun]

theorem State.askFetch_lmf (s : State) (c : CellId) : (s.askFetch c).lmf = s.lmf := by
  unfold State.askFetch State.modCell
  split
  · exact s.setCell_lmf c _
  · rfl

theorem State.askFetch_liu (s : State) (c : CellId) : (s.askFetch c).liu = s.liu := by
  unfold State.askFetch State.modCell
  split
  · exact s.setCell_liu c _
  · rfl

theorem State.startTx_lmf (s : State) : s.startTx.lmf = s.lmf := by
  unfold State.startTx
  split
  · rfl
  · split <;> rfl

/-- The Host transmitter takes the oldest reply, otherwise the oldest report (R181, R184). -/
theorem State.startTx_liu (s : State) :
    s.startTx.liu =
      match s.liu.hostTx, s.liu.replies, s.liu.reports with
      | some _, _, _ => s.liu
      | none, r :: rs, _ => { s.liu with hostTx := some (.reply r), replies := rs }
      | none, [], r :: rs =>
        { s.liu with
          hostTx := some (.report s.liu.lost r), reports := rs, lost := 0
          full := if rs.length < 32 then false else s.liu.full }
      | none, [], [] => s.liu := by
  unfold State.startTx
  rcases htx : s.liu.hostTx with _ | f
  · rcases hrep : s.liu.replies with _ | ⟨r, rs⟩
    · rcases hq : s.liu.reports with _ | ⟨q, qs⟩
      · simp
      · have full : (s.liu.full && decide (Config.reportQueueMax ≤ qs.length)) =
            if qs.length < 32 then false else s.liu.full := by
          by_cases hlt : qs.length < 32
          · simp [hlt, Config.reportQueueMax, Nat.not_le.2 hlt]
          · simp [hlt, Config.reportQueueMax, Nat.not_lt.1 hlt]
        simp [full]
    · simp
  · simp

/-- Settles O2: each cell's fetcher is asked for, then the Host transmitter takes its next frame. -/
theorem settlingAsksAndSends : Obligations.SettlingAsksAndSends := by
  intro s
  have shown : s.settle = ((s.askFetch .a).askFetch .b).startTx := rfl
  refine ⟨s.settle_onlyIn.mono rfl, ?_, fun c => ?_, ?_⟩
  · rw [shown, State.startTx_lmf, State.askFetch_lmf, State.askFetch_lmf]
  · rw [State.settle_cell]
    rcases hp : (s.cell c).program with _ | p
    · rw [if_neg (by simp [SprayCell.asks, hp])]
    · exact if_congr (SprayCell.asks_iff hp) rfl rfl
  · have sent := State.startTx_liu ((s.askFetch .a).askFetch .b)
    rw [State.askFetch_liu, State.askFetch_liu] at sent
    exact sent

end Sys2Proof.Machine
end

section
/-! SUPPORT. What the end and the abandonment of a program do to its record, and what they tell (R84, R85, R98 to R103). -/

namespace Sys2Proof.Machine

/-! ## Raises against a record (R142) -/

theorem placeReason_listed {code : ReasonCode} {rs : List Reason} (h : code ∈ rs.map Reason.code) (sev : Severity)
    (now : LineTime) : (placeReason code sev now rs).map Reason.code = rs.map Reason.code := by
  have listed : (rs.any fun r => decide (r.code = code)) = true := by
    obtain ⟨x, hx, hc⟩ := List.mem_map.1 h
    exact List.any_eq_true.2 ⟨x, hx, by simpa using hc⟩
  have same (x : Reason) : (if x.code = code then x.bump else x).code = x.code := by split <;> rfl
  rw [placeReason, if_pos listed, countListed, List.map_map]
  exact List.map_congr_left fun x _ => same x

section
variable {s : State} {i : RecIx} {r : CarrierRecord}

/-- A code that the list holds already is counted; the codes stay (R142 case 2). -/
theorem State.raiseCode_listed {code : ReasonCode} (hr : s.rec? i = some r) (hl : r.status.isLive = true)
    (hcode : code ∈ holdCodes r.hold) :
    ∃ h, (s.raiseCode i code).rec? i = some { r with hold := h } ∧ holdCodes h = holdCodes r.hold := by
  obtain ⟨g, hh, -⟩ := mem_holdCodes.1 hcode
  rw [hh] at hcode
  have reasons : (g.raise code code.severity s.now).reasons = placeReason code code.severity s.now g.reasons := by
    unfold Hold.raise
    dsimp only
    split <;> rfl
  have raised : (s.raiseCode i code).rec? i = some { r with hold := some (g.raise code code.severity s.now) } := by
    simp only [State.raiseCode, State.raiseReason, State.live?_eq_some.2 ⟨hr, hl⟩, hh]
    rw [State.queueReport_rec?, State.setRec_rec?_self]
  refine ⟨_, raised, ?_⟩
  rw [hh]
  simp only [holdCodes, Option.map_some, Option.getD_some, reasons] at hcode ⊢
  exact placeReason_listed hcode _ _

/-- What a conditional raise does to the codes of the list. -/
theorem State.raiseIf_codes (b : Bool) (code : ReasonCode) (hr : s.rec? i = some r) (hl : r.status.isLive = true) :
    ∃ h, (s.raiseIf b i code).rec? i = some { r with hold := h } ∧ holdCodes r.hold ⊆ holdCodes h ∧
      (holdCodes h).length ≤ max ((holdCodes r.hold).length + 1) 2 ∧
      (code ∈ holdCodes r.hold → holdCodes h = holdCodes r.hold) ∧
      (b = true → (holdCodes r.hold).length < 8 → code ∈ holdCodes h) := by
  obtain ⟨h, hrec, -, -, -, hlen, hsub, hadd⟩ := s.raiseIf_spec b i code r hr hl
  refine ⟨h, hrec, hsub, hlen, fun hmem => ?_, hadd⟩
  cases b with
  | false =>
    have same : r.hold = h := congrArg CarrierRecord.hold (Option.some.inj (hr.symm.trans hrec))
    rw [same]
  | true =>
    obtain ⟨h', hrec', hsame⟩ := State.raiseCode_listed hr hl hmem
    have same : h' = h := congrArg CarrierRecord.hold (Option.some.inj (hrec'.symm.trans hrec))
    rw [← same]
    exact hsame

/-- The list takes the three film reasons: five at most are listed, or six with FILM_UNKNOWN among them. -/
def RoomForFilm (codes : List ReasonCode) : Prop := codes.length ≤ 5 ∨ (codes.length ≤ 6 ∧ .filmUnknown ∈ codes)

/-- A film verdict with the reason that it raises (R103). -/
def filmReasons : List (ZoneVerdict × ReasonCode) := [(.unknown, .filmUnknown), (.low, .filmLow), (.high, .filmHigh)]

/-- The film reasons raised (R103). -/
theorem State.raiseFilm_codes (hr : s.rec? i = some r) (hl : r.status.isLive = true) :
    ∃ h, (s.raiseFilm i).rec? i = some { r with hold := h } ∧ holdCodes r.hold ⊆ holdCodes h ∧
      (RoomForFilm (holdCodes r.hold) →
        ∀ x y, (x, y) ∈ filmReasons → (∃ q ∈ r.zones, q.verdict = x) → y ∈ holdCodes h) := by
  have found {v : ZoneVerdict} : (∃ q ∈ r.zones, q.verdict = v) → r.anyZone v = true := by
    rintro ⟨q, hq, rfl⟩
    exact List.any_eq_true.2 ⟨q, hq, by simp⟩
  unfold State.raiseFilm
  rw [State.live?_eq_some.2 ⟨hr, hl⟩]
  dsimp only
  obtain ⟨a, ra, suba, lena, samea, adda⟩ := State.raiseIf_codes (r.anyZone .unknown) .filmUnknown hr hl
  obtain ⟨b, rb, subb, lenb, -, addb⟩ := State.raiseIf_codes (r.anyZone .low) .filmLow ra hl
  obtain ⟨d, rd, subd, -, -, addd⟩ := State.raiseIf_codes (r.anyZone .high) .filmHigh rb hl
  refine ⟨d, rd, fun x hx => subd (subb (suba hx)), fun room x y hxy hq => ?_⟩
  have few : (holdCodes r.hold).length ≤ 6 := by rcases room with h | ⟨h, -⟩ <;> omega
  have fewa : (holdCodes a).length ≤ 6 := by
    rcases room with h | ⟨h, listed⟩
    · exact lena.trans (max_le (Nat.succ_le_succ h) (by decide))
    · rw [samea listed]
      exact h
  have fewb : (holdCodes b).length ≤ 7 := lenb.trans (max_le (Nat.succ_le_succ fewa) (by decide))
  simp only [filmReasons, List.mem_cons, Prod.mk.injEq, List.not_mem_nil, or_false] at hxy
  rcases hxy with ⟨rfl, rfl⟩ | ⟨rfl, rfl⟩ | ⟨rfl, rfl⟩
  · exact subd (subb (adda (found hq) (Nat.lt_of_le_of_lt few (by decide))))
  · exact subd (addb (found hq) (Nat.lt_of_le_of_lt fewa (by decide)))
  · exact addd (found hq) (Nat.lt_of_le_of_lt fewb (by decide))

/-- A raise that the list takes where it has room: the record has a hold then, and the reason is listed. -/
theorem exists_hold_of_raised {g h : Option Hold} {code : ReasonCode} (hsub : holdCodes g ⊆ holdCodes h)
    (hadd : (holdCodes g).length < 8 → code ∈ holdCodes h) :
    ∃ k, h = some k ∧ ((∀ q, g = some q → q.reasons.length < 8) → ∃ x ∈ k.reasons, x.code = code) := by
  have room (short : ∀ q, g = some q → q.reasons.length < 8) : (holdCodes g).length < 8 := by
    rcases g with _ | q
    · exact Nat.zero_lt_succ _
    · simpa [holdCodes] using short q rfl
  have listed : ∃ x, x ∈ holdCodes h := by
    by_cases hlen : (holdCodes g).length < 8
    · exact ⟨_, hadd hlen⟩
    · obtain ⟨x, hx⟩ := List.exists_mem_of_length_pos (l := holdCodes g) (by omega)
      exact ⟨x, hsub hx⟩
  obtain ⟨x, hx⟩ := listed
  obtain ⟨k, rfl, -⟩ := mem_holdCodes.1 hx
  refine ⟨k, rfl, fun short => ?_⟩
  obtain ⟨k', e, found⟩ := mem_holdCodes.1 (hadd (room short))
  cases e
  exact found

/-! ## The run abandoned and the segment cut off (R81, R84, R98, R99) -/

/-- The zones of a record with one of them flagged as abandoned (R99). -/
def flagged (zones : List ZoneEntry) (z : Option Nat) : List ZoneEntry :=
  zones.mapIdx fun k q => { q with abandoned := q.abandoned || decide (z = some k) }

theorem flagged_none (zones : List ZoneEntry) : flagged zones none = zones := by
  refine List.ext_getElem? fun n => ?_
  simp [flagged, List.getElem?_mapIdx]

theorem flagged_some (zones : List ZoneEntry) (z : Nat) :
    flagged zones (some z) = zones.modify z fun e => { e with abandoned := true } := by
  rw [modify_eq_mapIdx]
  refine congrArg (fun f => zones.mapIdx f) (funext₂ fun k q => ?_)
  by_cases h : k = z
  · simp [h]
  · simp [h, Ne.symm h]

theorem State.flagZone?_eq (hr : s.rec? i = some r) (hl : r.status.isLive = true) (z : Option Nat) :
    s.flagZone? i z = s.setRec i (some { r with zones := flagged r.zones z }) := by
  cases z with
  | none =>
    rw [flagged_none]
    exact (State.setRec_self hr).symm
  | some z =>
    rw [flagged_some]
    exact State.modLive_eq hr hl _

/-- The record whose run has been abandoned (R81, R84 step 3). -/
theorem State.abandonRun_record (c : CellId) (z : Option Nat) (raise : Bool) (hr : s.rec? i = some r)
    (hl : r.status.isLive = true) :
    ∃ h, (s.abandonRun c i z raise).rec? i =
        some { r with zones := flagged (flagged r.zones ((s.cell c).abandonedZone (s.zoneCount i))) z, hold := h } ∧
      holdCodes r.hold ⊆ holdCodes h ∧ (holdCodes h).length ≤ max ((holdCodes r.hold).length + 1) 2 ∧
      (raise = true → (holdCodes r.hold).length < 8 → .filmUnknown ∈ holdCodes h) ∧ (raise = false → h = r.hold) := by
  unfold State.abandonRun
  dsimp only
  generalize (s.cell c).abandonedZone (s.zoneCount i) = z'
  generalize hm : (s.modCell c fun v =>
    { v with runZone := z', counts := { v.counts with abandoned := bump16 v.counts.abandoned } }) = m
  have hrm : m.rec? i = some r := by rw [← hm]; simpa [State.modCell] using hr
  rw [State.flagZone?_eq hrm hl z', State.flagZone?_eq (r := { r with zones := flagged r.zones z' })
    (State.setRec_rec?_self m i _) hl z]
  generalize hu : (m.setRec i (some { r with zones := flagged r.zones z' })).setRec i
    (some { r with zones := flagged (flagged r.zones z') z }) = u
  have hru : u.rec? i = some { r with zones := flagged (flagged r.zones z') z } := by rw [← hu, State.setRec_rec?_self]
  obtain ⟨h, hrec, hsub, hlen, -, hadd⟩ := State.raiseIf_codes raise .filmUnknown hru hl
  refine ⟨h, hrec, hsub, hlen, hadd, ?_⟩
  rintro rfl
  exact (congrArg CarrierRecord.hold (Option.some.inj (hru.symm.trans hrec))).symm

end

/-! ## The film at the end of a program (R84, R85, R100 to R103) -/

/-- What the end of a program at a line time makes of its record. -/
structure FilmEnded (t : LineTime) (r r' : CarrierRecord) (rc : Recipe) : Prop where
  ends : NoCellLeft r → r'.sprayEnd = some t ∧
    r'.zones = List.zipWith (fun q w => zoneByRule q.acc q.abandoned w) r.zones rc.zones ∧
    (RoomForFilm (holdCodes r.hold) →
      ∀ x y, (x, y) ∈ filmReasons → (∃ q ∈ r'.zones, q.verdict = x) → y ∈ holdCodes r'.hold)
  more : ¬ NoCellLeft r → r'.sprayEnd = r.sprayEnd ∧ r'.zones = r.zones
  codes : holdCodes r.hold ⊆ holdCodes r'.hold

/-- A record's recipe is that of its slot. -/
theorem State.recipeOf_of_slot {s t : State} {i : RecIx} {r r' : CarrierRecord} (hr : s.rec? i = some r)
    (hr' : t.rec? i = some r') (hslot : r'.slot = r.slot) (hrsc : t.rsc = s.rsc) : t.recipeOf i = s.recipeOf i := by
  unfold State.recipeOf
  rw [hr, hr']
  dsimp only
  rw [hslot, hrsc]

section
variable {s : State} {i : RecIx} {r : CarrierRecord} {rc : Recipe}

theorem State.filmEnded_record (hr : s.rec? i = some r) (hl : r.status.isLive = true) (hc : s.recipeOf i = some rc)
    (t : LineTime) : ∃ r', (s.filmEnded i t).rec? i = some r' ∧ FilmEnded t r r' rc := by
  have last := State.lastProgram_iff hr hl
  unfold State.filmEnded
  split
  · rename_i hlast
    rw [State.modLive_eq hr hl]
    generalize hu : s.setRec i (some { r with sprayEnd := some t }) = u
    have hru : u.rec? i = some { r with sprayEnd := some t } := by rw [← hu, State.setRec_rec?_self]
    have hcu : u.recipeOf i = some rc := by
      rw [State.recipeOf_of_slot hr hru rfl (by rw [← hu]; rfl)]
      exact hc
    simp only [State.evaluateFilm, hcu]
    rw [State.modLive_eq hru hl]
    obtain ⟨h, hrec, hsub, hfilm⟩ := State.raiseFilm_codes
      (s := u.setRec i (some { r with sprayEnd := some t, zones := evalZones r.zones rc.zones })) (i := i)
      (State.setRec_rec?_self _ _ _) hl
    exact ⟨_, hrec, fun _ => ⟨rfl, rfl, hfilm⟩, fun no => absurd (last.1 hlast) no, hsub⟩
  · rename_i more
    exact ⟨r, hr, fun ends => absurd (last.2 ends) more, fun _ => ⟨rfl, rfl⟩, List.Subset.refl _⟩

theorem State.finishProgram_record {p : Program} (hr : s.rec? p.ix = some r) (hl : r.status.isLive = true)
    (hc : s.recipeOf p.ix = some rc) (c : CellId) (o : ProgramOutcome) (f : Option (FaultCode × Nat)) (next : CellState)
    (cause : CellCause) :
    ∃ r', (s.finishProgram c p o f next cause).rec? p.ix = some r' ∧ FilmEnded s.now r r' rc := by
  obtain ⟨r', hrec, film⟩ := State.filmEnded_record (s := s.markRun c p.ix p.pass) (i := p.ix) (r := r) (rc := rc)
    (by simpa [State.markRun, State.modCell] using hr) hl (by simpa [State.markRun, State.modCell] using hc) s.now
  refine ⟨r', ?_, film⟩
  rw [State.finishProgram_steps, State.cellTo_rec?]
  simpa [State.modCell] using hrec

end

/-! ## What the end of a program tells (R86) -/

section
variable (s : State) (c : CellId) (p : Program) (o : ProgramOutcome) (f : Option (FaultCode × Nat)) (next : CellState)
  (cause : CellCause)

theorem State.filmEnded_tells (i : RecIx) (t : LineTime) : Tells 3 s (s.filmEnded i t) := by
  unfold State.filmEnded
  split
  · exact (s.modLive_tells i _).trans (State.evaluateFilm_tells _ i)
  · exact (Tells.refl s).mono (by omega)

/-- SPRAY_DONE of a program that ends while the Report Queue has room. -/
theorem State.finishProgram_told (hroom : s.liu.reports.length < 29) :
    ∃ d : SprayDone,
      { time := s.now, body := .sprayDone d } ∈
        (s.finishProgram c p o f next cause).liu.reports.drop s.liu.reports.length ∧
      d.cell = c ∧ d.ix = p.ix ∧ d.pass = p.pass ∧ d.outcome = o ∧ d.fault = f ∧ d.counts = (s.cell c).counts ∧
      d.evaluated = s.lastProgram p.ix ∧ d.sprayEnd = if s.lastProgram p.ix then some s.now else none := by
  let m := s.markRun c p.ix p.pass
  let t := m.filmEnded p.ix s.now
  let d := t.sprayDone c p o f (m.lastProgram p.ix) s.now
  have marked : Keeps { scc := true } s m := s.modCell_keeps c _
  have film : Keeps { ltk := true, rep := true } m t := m.filmEnded_keeps p.ix s.now
  have kept : Keeps { ltk := true, scc := true, rep := true } s t := (marked.mono rfl).step film rfl
  have counts : (t.cell c).counts = (s.cell c).counts := by
    rw [State.cell_of_scc (film.scc rfl)]
    simp only [m, State.markRun, State.modCell_cell]
  have last : m.lastProgram p.ix = s.lastProgram p.ix := by
    unfold State.lastProgram
    rw [State.live?_of_ltk (marked.ltk rfl)]
  have few : t.liu.reports.length < 32 := by
    have count : t.liu.reports.length ≤ s.liu.reports.length + (0 + 3) :=
      ((marked.tells rfl).trans (m.filmEnded_tells p.ix s.now)).reports
    omega
  have told := t.queueReport_reports (.sprayDone d) few
  have ends : Keeps { scc := true, rep := true } (t.queueReport (.sprayDone d)) (s.finishProgram c p o f next cause) :=
    ((State.modCell_keeps _ c _).mono rfl).step (State.cellTo_keeps _ c next cause (some p.ix)) rfl
  obtain ⟨l, hl⟩ := kept.grows
  obtain ⟨l', hl'⟩ := ends.grows
  have now : t.now = s.now := kept.clock rfl
  refine ⟨d, ?_, rfl, rfl, rfl, rfl, rfl, counts, last, by rw [← last]; rfl⟩
  rw [← hl', told, ← hl, now]
  simp

/-- The state of a program's abandonment before its end: the segment cut off, the cell halted, the run abandoned (R84 steps
1 to 4). -/
def State.runCut (s : State) (c : CellId) (p : Program) (o : ProgramOutcome) (z : Option Nat) (next : CellState) : State :=
  (((s.cutOff c p.ix).modCell c fun v => v.haltFor next).abandonRun c p.ix z (decide (o ≠ .removed))).modCell c
    SprayCell.emptied

theorem State.abandonProgram_steps (z : Option Nat) :
    s.abandonProgram c p o f z next cause = (s.runCut c p o z next).finishProgram c p o f next cause := rfl

theorem State.runCut_keeps (z : Option Nat) :
    Keeps { ltk := true, scc := true, rep := true } s (s.runCut c p o z next) :=
  ((((s.cutOff_keeps c p.ix).mono rfl).step (State.modCell_keeps _ c _) rfl).step (State.abandonRun_keeps _ c p.ix z _)
    rfl).step (State.modCell_keeps _ c _) rfl

theorem State.runCut_tells (z : Option Nat) : Tells 1 s (s.runCut c p o z next) :=
  ((((s.cutOff_keeps c p.ix).tells rfl).trans ((State.modCell_keeps _ c _).tells rfl)).trans
    (State.abandonRun_tells _ c p.ix z _)).trans ((State.modCell_keeps _ c _).tells rfl)

theorem State.runCut_counts (z : Option Nat) :
    ((s.runCut c p o z next).cell c).counts =
      { (s.cell c).counts with abandoned := bump16 (s.cell c).counts.abandoned } := by
  unfold State.runCut
  rw [State.modCell_cell, SprayCell.emptied, State.abandonRun_cell, State.modCell_cell,
    State.cell_of_scc ((State.cutOff_keeps s c p.ix).scc rfl), SprayCell.haltFor_counts]

/-- SPRAY_DONE of an abandoned program while the Report Queue has room. -/
theorem State.abandonProgram_told (z : Option Nat) (hroom : s.liu.reports.length < 28) :
    ∃ d : SprayDone,
      { time := s.now, body := .sprayDone d } ∈
        (s.abandonProgram c p o f z next cause).liu.reports.drop s.liu.reports.length ∧
      d.cell = c ∧ d.ix = p.ix ∧ d.pass = p.pass ∧ d.outcome = o ∧ d.fault = f ∧
      d.counts = { (s.cell c).counts with abandoned := bump16 (s.cell c).counts.abandoned } ∧
      d.evaluated = (s.runCut c p o z next).lastProgram p.ix ∧
      d.sprayEnd = if (s.runCut c p o z next).lastProgram p.ix then some s.now else none := by
  have kept := s.runCut_keeps c p o next z
  have now : (s.runCut c p o z next).now = s.now := kept.clock rfl
  obtain ⟨d, told, cell, ix, pass, outcome, fault, counts, evaluated, ends⟩ :=
    (s.runCut c p o z next).finishProgram_told c p o f next cause (by
      have := (s.runCut_tells c p o next z).reports
      omega)
  rw [now] at told ends
  refine ⟨d, ?_, cell, ix, pass, outcome, fault, counts.trans (s.runCut_counts c p o next z), evaluated, ends⟩
  rw [State.abandonProgram_steps]
  obtain ⟨k, hk⟩ := Nat.exists_eq_add_of_le kept.grows.length_le
  rw [hk, ← List.drop_drop] at told
  exact List.mem_of_mem_drop told

end

end Sys2Proof.Machine
end

section
/-! PROOF. Gantry timeouts, valve faults and starve limits (R76, R77, R79, R81, R83). -/

namespace Sys2Proof.Machine

/-- A NONFATAL fault of a cell noted, with the record named, its entry the last one while the Report Queue has room. -/
def CellNoted (s u : State) (c : CellId) (code : FaultCode) (ix : Option RecIx) : Prop :=
  u.lmf.record.nonfatal = true ∧ u.lmf.mode = s.lmf.mode ∧
    (s.liu.reports.length < 16 → ∃ e, u.lmf.record.lastNonfatal = some e ∧ e.code = code ∧ e.origin = .scc c ∧
      e.detail.ix = ix)

/-- A fault noted stands in the record after what follows it. -/
theorem CellNoted.of_tells {s a u : State} {c : CellId} {code : FaultCode} {d : FaultDetail} {n : Nat}
    (hcode : code.cls = .nonfatal) (before : a.liu.reports = s.liu.reports) (mode : u.lmf.mode = s.lmf.mode)
    (after : Tells n (a.noteFault code (.scc c) d) u) (hn : n ≤ 15) : CellNoted s u c code d.ix := by
  obtain ⟨flagged, few, last⟩ := a.noteFault_flagged code (.scc c) d hcode
  rw [before] at few last
  exact ⟨(after.flagged flagged).1, mode, fun room =>
    ⟨_, (congrArg _ (after.record (by omega))).trans (last (by omega)), rfl, rfl, rfl⟩⟩

/-- A cell gone to FAULTED (R83). -/
def SprayCell.AtFault (v : SprayCell) : Prop :=
  v.state = .faulted ∧ v.program = none ∧ v.valveOpen = false ∧ v.gantryTimer = none ∧ v.gantry = none ∧
    v.haltDue = true

theorem SprayCell.abandoned_faulted (v : SprayCell) (mark : Option RunMark) : (v.abandoned mark .faulted).AtFault :=
  ⟨rfl, rfl, rfl, rfl, rfl, rfl⟩

section
variable {s : State} {c : CellId} {t : Timer} {p : Program}

theorem State.gantryTimeout_eq (ht : (s.cell c).gantryTimer = some t) (hp : (s.cell c).program = some p) :
    s.gantryTimeout c = (s.expire t).segmentFault c p .gantryTimeout p.next none := by
  unfold State.gantryTimeout
  simp only [ht, hp]

theorem State.gantryTimeout_idle (h : (s.cell c).gantryTimer = none ∨ (s.cell c).program = none) : s.gantryTimeout c = s := by
  unfold State.gantryTimeout
  split
  · rename_i ht hp
    rcases h with h | h
    · cases h.symm.trans ht
    · cases h.symm.trans hp
  · rfl

theorem State.valveFault_program (hs : (s.cell c).state ≠ .faulted) (hp : (s.cell c).program = some p) :
    s.valveFault c = (s.noteFault .valveFault (.scc c) { ix := some p.ix }).abandonProgram c p .faulted
      (some (.valveFault, p.next)) none .faulted (.fault .valveFault) := by
  unfold State.valveFault
  rw [if_neg hs]
  simp only [hp]
  rfl

theorem State.valveFault_idle (hs : (s.cell c).state ≠ .faulted) (hp : (s.cell c).program = none) :
    s.valveFault c = ((s.noteFault .valveFault (.scc c) {}).modCell c fun v => v.faultHalt.stopTimers).cellTo c .faulted
      (.fault .valveFault) none := by
  unfold State.valveFault
  rw [if_neg hs]
  simp only [hp]

/-- A valve fault of a cell that is not FAULTED, with its program or without one (R83). -/
theorem State.valveFault_follows (hs : (s.cell c).state ≠ .faulted) :
    ((s.valveFault c).cell c).AtFault ∧
      CellNoted s (s.valveFault c) c .valveFault ((s.cell c).program.map Program.ix) := by
  have mode : (s.valveFault c).lmf.mode = s.lmf.mode := (s.valveFault_keeps c).mode rfl
  rcases hp : (s.cell c).program with _ | p
  · rw [State.valveFault_idle hs hp] at mode ⊢
    refine ⟨?_, CellNoted.of_tells (d := {}) rfl rfl mode
      (((State.modCell_keeps _ c _).tells rfl).trans (State.cellTo_tells _ c _ _ _)) (by omega)⟩
    rw [State.cellTo_cell, State.modCell_cell, State.noteFault_cell]
    exact ⟨rfl, hp, rfl, rfl, rfl, rfl⟩
  · rw [State.valveFault_program hs hp] at mode ⊢
    refine ⟨?_, CellNoted.of_tells (d := { ix := some p.ix }) rfl rfl mode (State.abandonProgram_tells _ c p _ _ _ _ _)
      (by omega)⟩
    rw [State.abandonProgram_leaves]
    exact SprayCell.abandoned_faulted _ _

/-- The starve that reaches its limit: the run is abandoned and skipped up to the next one (R81). -/
def State.starveSkips (s : State) (c : CellId) (t : Timer) (p : Program) : State :=
  ((((((s.expire t).modCell c fun v => { v with starveTimer := none }).noteFault .starveLimit (.scc c)
    { ix := some p.ix }).abandonRun c p.ix none true).modCell c fun v => { v with skip := true }).cellTo c .running
      .programStart (some p.ix))

theorem State.starveSkips_cell (s : State) (c : CellId) (t : Timer) (p : Program) :
    ∃ z, (s.starveSkips c t p).cell c =
      { s.cell c with
        starveTimer := none, skip := true, state := .running, runZone := z
        counts := { (s.cell c).counts with abandoned := bump16 (s.cell c).counts.abandoned } } := by
  unfold State.starveSkips
  rw [State.cellTo_cell, State.modCell_cell, State.abandonRun_cell, State.noteFault_cell, State.modCell_cell,
    State.expire_cell]
  exact ⟨_, rfl⟩

theorem SprayCell.empty_of_eq {v w : SprayCell} (h : w = v) (hb : v.buffer[v.exec] = none) : w.buffer[w.exec] = none := by
  subst h
  exact hb

/-- With nothing fetched, a cell that skips awaits its next segment (R81). -/
theorem State.starveLimit_eq (hs : (s.cell c).state = .starved) (ht : (s.cell c).starveTimer = some t)
    (hp : (s.cell c).program = some p) (hb : (s.cell c).buffer[(s.cell c).exec] = none) (hn : p.next < p.count) :
    s.starveLimit c = s.starveSkips c t p := by
  have bring : s.starveLimit c = (s.starveSkips c t p).bringNext c (5 + 1) := by
    unfold State.starveLimit
    simp only [hs, ht, hp]
    rfl
  obtain ⟨z, cell⟩ := s.starveSkips_cell c t p
  have empty := SprayCell.empty_of_eq cell hb
  rw [bring, State.bringNext_empty (p := p) (by rw [cell]; exact hp) empty, if_neg (by omega), if_pos (by rw [cell])]

theorem State.starveSkips_noted (s : State) (c : CellId) (t : Timer) (p : Program) :
    CellNoted s (s.starveSkips c t p) c .starveLimit (some p.ix) := by
  have expired := s.expire_keeps t
  have stopped := (s.expire t).modCell_keeps c fun v => { v with starveTimer := none }
  have noted := ((s.expire t).modCell c fun v => { v with starveTimer := none }).noteFault_keeps .starveLimit (.scc c)
    { ix := some p.ix }
  have mode : (s.starveSkips c t p).lmf.mode = s.lmf.mode := by
    unfold State.starveSkips
    rw [(State.cellTo_keeps _ _ _ _ _).mode rfl, (State.modCell_keeps _ _ _).mode rfl,
      (State.abandonRun_keeps _ _ _ _ _).mode rfl, noted.mode rfl, stopped.mode rfl, expired.mode rfl]
  refine CellNoted.of_tells (d := { ix := some p.ix }) rfl ?_ mode
    (((State.abandonRun_tells _ c p.ix none true).trans ((State.modCell_keeps _ c _).tells rfl)).trans
      (State.cellTo_tells _ c _ _ _)) (by omega)
  rw [(stopped.queue rfl).1, (expired.queue rfl).1]

/-- FILM_UNKNOWN is raised for the run that starved (R81). -/
theorem State.starveSkips_record {r : CarrierRecord} (hr : s.rec? p.ix = some r) (hl : r.status.isLive = true)
    (c : CellId) (t : Timer) :
    ∃ r' h, (s.starveSkips c t p).rec? p.ix = some r' ∧ r'.hold = some h ∧
      ((∀ q, r.hold = some q → q.reasons.length < 8) → ∃ x ∈ h.reasons, x.code = .filmUnknown) := by
  let a := ((s.expire t).modCell c fun v => { v with starveTimer := none }).noteFault .starveLimit (.scc c)
    { ix := some p.ix }
  have kept : a.ltk = s.ltk := ((State.noteFault_keeps _ _ _ _).ltk rfl).trans
    (((State.modCell_keeps _ _ _).ltk rfl).trans ((s.expire_keeps t).ltk rfl))
  have hra : a.rec? p.ix = some r := (State.rec?_of_ltk kept p.ix).trans hr
  obtain ⟨h, hrec, hsub, -, hadd, -⟩ := State.abandonRun_record c none true hra hl
  obtain ⟨k, hk, listed⟩ := exists_hold_of_raised hsub (hadd rfl)
  have skipped : (s.starveSkips c t p).rec? p.ix = (a.abandonRun c p.ix none true).rec? p.ix := by
    unfold State.starveSkips
    rw [State.cellTo_rec?, State.modCell, State.setCell_rec?]
  exact ⟨_, k, skipped.trans hrec, hk, listed⟩

end

/-- Settles O54, event by event. -/
theorem cellFaultsAndStarves : Obligations.CellFaultsAndStarves := by
  intro s c v noted faulted
  refine ⟨fun t p ht hp => ?gantry, fun h => State.goesOn_congr (State.gantryTimeout_idle h),
    fun hs => State.goesOn_congr (if_pos hs), fun hs => ⟨_, rfl, State.valveFault_follows hs⟩,
    fun t p r hs ht hp hb hn hr ha => ?starve⟩
  case gantry =>
    have expired := s.expire_keeps t
    have cell := (s.expire t).segmentFault_leaves c p .gantryTimeout p.next none
    have mode : ((s.expire t).segmentFault c p .gantryTimeout p.next none).lmf.mode = s.lmf.mode :=
      ((State.segmentFault_keeps _ c p _ _ _).mode rfl).trans (expired.mode rfl)
    refine ⟨_, State.goesOn_congr (State.gantryTimeout_eq ht hp), ?_, ?_, ?_⟩
    · simp only [faulted, cell]
      exact SprayCell.abandoned_faulted _ _
    · exact CellNoted.of_tells (d := { ix := some p.ix, segment := some p.next }) rfl (expired.queue rfl).1 mode
        (State.abandonProgram_tells _ c p _ _ _ _ _) (by omega)
    · rw [cell, State.expire_cell]
      rfl
  case starve =>
    obtain ⟨z, cell⟩ := s.starveSkips_cell c t p
    refine ⟨_, State.goesOn_congr (State.starveLimit_eq hs ht hp hb hn), s.starveSkips_noted c t p, ?_⟩
    rw [cell]
    exact ⟨rfl, rfl, rfl, hp, rfl, State.starveSkips_record hr (by rw [ha]; rfl) c t⟩

end Sys2Proof.Machine
end

section
/-! PROOF. An abandoned program leaves the cell shut, halted and marked, its deposit and flags with the record (R79, R81, R83 to
R87, R91, R98 to R103). -/

namespace Sys2Proof.Machine

/-! ## The cell -/

/-- A gantry that moves, or that stands on the entry to FAULTED, is halted with its position unknown (R79, R83). -/
theorem SprayCell.haltFor_gantry (v : SprayCell) (next : CellState) :
    if v.gantryMoving ∨ next = .faulted then (v.haltFor next).gantry = none ∧ (v.haltFor next).haltDue = true
    else (v.haltFor next).gantry = v.gantry ∧ (v.haltFor next).haltDue = v.haltDue := by
  unfold SprayCell.haltFor SprayCell.faultHalt SprayCell.shutAndHalt
  by_cases hn : next = .faulted
  · simp [hn]
  · by_cases hm : v.gantryMoving
    · simp [hn, hm]
    · simp [hn, hm]

theorem SprayCell.haltFor_fetch (v : SprayCell) (next : CellState) : (v.haltFor next).fetch = v.fetch := by
  obtain ⟨g, due, h⟩ := v.haltFor_eq next
  rw [h]

theorem SprayCell.haltFor_runZone (v : SprayCell) (next : CellState) : (v.haltFor next).runZone = v.runZone := by
  obtain ⟨g, due, h⟩ := v.haltFor_eq next
  rw [h]

theorem otherCell_ne (c : CellId) : otherCell c ≠ c := by cases c <;> exact nofun

/-! ## The record: the deposit over the elapsed time (R84 step 2, R96, R98) -/

/-- The accumulators of a record's zones, changed zone by zone. -/
def deposited (zones : List ZoneEntry) (acc : Nat → ZoneEntry → Nat) : List ZoneEntry :=
  zones.mapIdx fun k q => { q with acc := acc k q }

theorem deposited_self (zones : List ZoneEntry) : (deposited zones fun _ q => q.acc) = zones := by
  refine List.ext_getElem? fun n => ?_
  simp [deposited, List.getElem?_mapIdx]

theorem deposited_one (zones : List ZoneEntry) (z d : Nat) :
    (zones.modify z fun e => { e with acc := satAdd Config.accumulatorMax e.acc d }) =
      deposited zones fun k q => if k = z then min (q.acc + d) 4294967295 else q.acc := by
  rw [modify_eq_mapIdx]
  refine congrArg (fun f => zones.mapIdx f) (funext₂ fun k q => ?_)
  by_cases h : k = z
  · simp [h, satAdd, Config.accumulatorMax]
  · simp [h]

theorem flagged_deposited (zones : List ZoneEntry) (acc : Nat → ZoneEntry → Nat) (x : Nat) (z : Option Nat) :
    flagged (flagged (deposited zones acc) (some x)) z =
      zones.mapIdx fun k q => { q with acc := acc k q, abandoned := q.abandoned || decide (k = x) || decide (z = some k) } := by
  refine List.ext_getElem? fun n => ?_
  simp [flagged, deposited, List.getElem?_mapIdx, eq_comm (a := x), Function.comp_def]

/-- What a segment cut off adds to the accumulator of a zone. -/
def State.cutAcc (s : State) (c : CellId) (m : Material) (k : Nat) (q : ZoneEntry) : Nat :=
  match (s.cell c).executing, (s.cell c).gantryTimer with
  | some e, some t =>
    if e.phase = .motion ∧ e.seg.kind = some .spray ∧ 0 < e.feff ∧ k = e.seg.zone then
      min (q.acc + e.feff * min (s.now - t.since).toNat e.time * m.solids / 1000 * m.efficiency / 100) 4294967295
    else q.acc
  | _, _ => q.acc

section
variable {s : State} {c : CellId} {i : RecIx} {r : CarrierRecord} {rc : Recipe}

/-- The partial deposit of a segment cut off. -/
theorem State.cutOff_eq (hr : s.rec? i = some r) (hl : r.status.isLive = true) (hc : s.recipeOf i = some rc)
    (htimer : ∀ e, (s.cell c).executing = some e → e.phase = .motion → (s.cell c).gantryTimer.isSome = true) :
    s.cutOff c i = s.setRec i (some { r with zones := deposited r.zones (s.cutAcc c rc.material) }) := by
  have none_added (h : s.cutAcc c rc.material = fun _ q => q.acc) :
      s = s.setRec i (some { r with zones := deposited r.zones (s.cutAcc c rc.material) }) := by
    rw [h, deposited_self]
    exact (State.setRec_self hr).symm
  unfold State.cutOff
  rcases he : (s.cell c).executing with _ | e
  · exact none_added (by unfold State.cutAcc; simp only [he])
  · simp only [hc]
    split
    · rename_i sprays
      obtain ⟨motion, kind, flow⟩ := sprays
      obtain ⟨t, ht⟩ := Option.isSome_iff_exists.1 (htimer e he motion)
      have acc : s.cutAcc c rc.material = fun k q =>
          if k = e.seg.zone then min (q.acc + depositOver rc.material e.feff (s.elapsedMotion (s.cell c) e)) 4294967295
          else q.acc := by
        funext k q
        unfold State.cutAcc State.elapsedMotion depositOver
        simp only [he, ht, motion, kind, flow, true_and]
        rfl
      rw [State.addDeposit, State.modLive_eq hr hl, modZone, deposited_one, acc]
    · rename_i dry
      refine none_added (funext₂ fun k q => ?_)
      unfold State.cutAcc
      simp only [he]
      split
      · rename_i e' _ e_eq _
        cases e_eq
        exact if_neg fun h => dry ⟨h.1, h.2.1, h.2.2.1⟩
      · rfl

/-- The record of a program that is abandoned, before the end of the program (R84 steps 1 to 4). -/
theorem State.runCut_record {p : Program} {x : Nat} (hr : s.rec? p.ix = some r) (hl : r.status.isLive = true)
    (hc : s.recipeOf p.ix = some rc) (hx : (s.cell c).runZone = some x)
    (htimer : ∀ e, (s.cell c).executing = some e → e.phase = .motion → (s.cell c).gantryTimer.isSome = true)
    (o : ProgramOutcome) (z : Option Nat) (next : CellState) :
    ∃ h, (s.runCut c p o z next).rec? p.ix =
        some { r with
          zones := r.zones.mapIdx fun k q =>
            { q with acc := s.cutAcc c rc.material k q
                     abandoned := q.abandoned || decide (k = x) || decide (z = some k) }
          hold := h } ∧
      holdCodes r.hold ⊆ holdCodes h ∧ (holdCodes h).length ≤ max ((holdCodes r.hold).length + 1) 2 ∧
      (o ≠ .removed → (holdCodes r.hold).length < 8 → .filmUnknown ∈ holdCodes h) ∧ (o = .removed → h = r.hold) := by
  generalize hm : (s.cutOff c p.ix).modCell c (fun v => v.haltFor next) = m
  have hrm : m.rec? p.ix = some { r with zones := deposited r.zones (s.cutAcc c rc.material) } := by
    rw [← hm, State.cutOff_eq hr hl hc htimer]
    simp [State.modCell]
  have zone : (m.cell c).abandonedZone (m.zoneCount p.ix) = some x := by
    have run : (m.cell c).runZone = some x := by
      rw [← hm, State.modCell_cell, State.cell_of_scc ((State.cutOff_keeps s c p.ix).scc rfl), SprayCell.haltFor_runZone, hx]
    rw [SprayCell.abandonedZone, run]
    rfl
  obtain ⟨h, hrec, hsub, hlen, hadd, hstay⟩ := m.abandonRun_record c z (decide (o ≠ .removed)) hrm hl
  rw [zone, flagged_deposited] at hrec
  refine ⟨h, ?_, hsub, hlen, fun ho => hadd (decide_eq_true ho), fun ho => hstay (decide_eq_false (not_not_intro ho))⟩
  unfold State.runCut
  rw [State.modCell, State.setCell_rec?, hm]
  exact hrec

end

/-! ## The statement -/

/-- The codes of a hold of five reasons leave room for the film reasons after an abandonment. -/
theorem roomForFilm_of_abandoned {g h : Option Hold} {o : ProgramOutcome} (hfew : (holdCodes g).length ≤ 5)
    (hlen : (holdCodes h).length ≤ max ((holdCodes g).length + 1) 2)
    (hadd : o ≠ .removed → (holdCodes g).length < 8 → .filmUnknown ∈ holdCodes h) (hstay : o = .removed → h = g) :
    RoomForFilm (holdCodes h) := by
  by_cases ho : o = .removed
  · rw [hstay ho]
    exact .inl hfew
  · exact .inr ⟨by omega, hadd ho (by omega)⟩

theorem holdCodes_length_of_hold {g : Option Hold} (h : ∀ q, g = some q → q.reasons.length ≤ 5) :
    (holdCodes g).length ≤ 5 := by
  rcases g with _ | q
  · exact Nat.zero_le _
  · simpa [holdCodes] using h q rfl

/-- What an abandonment clears in its cell (R84). -/
theorem SprayCell.abandoned_clears {v w : SprayCell} {mark : Option RunMark} {next : CellState}
    (h : w = v.abandoned mark next) :
    w.state = next ∧ w.program = none ∧ w.executing = none ∧ (∀ k : Fin 4, w.buffer[k] = none) ∧ w.valveOpen = false ∧
      w.runZone = none ∧ w.skip = false ∧ w.homeTimer = none ∧ w.gantryTimer = none ∧ w.leadTimer = none ∧
      w.valveTimer = none ∧ w.starveTimer = none := by
  subst h
  have empty (k : Fin 4) : (v.abandoned mark next).buffer[k] = none := by
    simp [SprayCell.abandoned, SprayCell.finished, SprayCell.stopTimers, SprayCell.emptied]
  exact ⟨rfl, rfl, rfl, empty, v.haltFor_valve next, rfl, rfl, rfl, rfl, rfl, rfl, rfl⟩

/-- CELL_ABORT (R87), by the program of the cell. -/
theorem State.doCellAbort_some {s : State} {c : CellId} {p : Program} (hp : (s.cell c).program = some p) :
    s.doCellAbort c = (s.abandonProgram c p .aborted none none .ready .cellAbort).ok [] := by
  unfold State.doCellAbort
  simp only [hp]

theorem State.doCellAbort_none {s : State} {c : CellId} (hp : (s.cell c).program = none) :
    s.doCellAbort c = s.refuse .notPermitted := by
  unfold State.doCellAbort
  simp only [hp]

/-- Settles O38: the cell, CELL_ABORT, the record. -/
theorem abandonedProgramsLeaveTheCell : Obligations.AbandonedProgramsLeaveTheCell := by
  refine ⟨fun s c p o f z st why => ?cell, fun s tag v c ht hv => ?abort,
    fun s c p o f z st why r rc x hr hl hc hx htimer => ?record⟩
  case cell =>
    intro u v
    have kept := s.abandonProgram_keeps c p o f z st why
    have left : v = (s.cell c).abandoned (s.markLeft p) st := s.abandonProgram_leaves c p o f z st why
    have counts : v.counts = { (s.cell c).counts with abandoned := min ((s.cell c).counts.abandoned + 1) 65535 } := by
      rw [left]
      rfl
    obtain ⟨state, program, executing, buffer, valve, zone, skip, home, gantry, lead, close, starve⟩ :=
      SprayCell.abandoned_clears left
    refine ⟨kept.onlyIn, s.abandonProgram_onlyCell c p o f z st why _ (otherCell_ne c), state, program, executing, buffer,
      valve, zone, skip, home, gantry, lead, close, starve, counts, ?_, ?_, ?_, fun hroom => ?_⟩
    · have fetch : v.fetch = (s.cell c).fetch.withdrawn := by
        rw [left, ← (s.cell c).haltFor_fetch st]
        rfl
      rw [fetch]
      cases (s.cell c).fetch <;> rfl
    · rw [left]
      exact (s.cell c).haltFor_gantry st
    · rw [left]
      rfl
    · obtain ⟨d, told, cell, ix, pass, outcome, fault, dcounts, -, -⟩ :=
        s.abandonProgram_told c p o f st why z (by omega)
      exact ⟨d, List.mem_of_mem_drop told, cell, ix, pass, outcome, fault, dcounts.trans counts.symm⟩
  case abort =>
    have answered {u : State} {st : ReplyStatus} (hu : s.doCellAbort c = (u, some (st, []))) :
        exec (.cellAbort .host tag v) s = .next (u.answers .host tag (.cellAbort v) st []).settle :=
      State.takeRequest_answered ht (wellAsked_cellAbort hv) tag ((State.withCode_some hv s s.doCellAbort).trans hu)
    refine ⟨fun hp => answered (State.doCellAbort_none hp), fun p hp => ?_⟩
    have kept := s.abandonProgram_keeps c p .aborted none none .ready .cellAbort
    obtain ⟨program, state, -⟩ := s.abandonProgram_cell c p .aborted none none .ready .cellAbort
    exact ⟨_, answered (State.doCellAbort_some hp), rfl, state, program, kept.mode rfl, kept.rsc rfl, kept.ctc rfl⟩
  case record =>
    intro u cut
    have kept := s.runCut_keeps c p o st z
    obtain ⟨h, hcut, hsub, hlen, hadd, hstay⟩ := State.runCut_record hr hl hc hx htimer o z st
    obtain ⟨r', hrec, film⟩ := State.finishProgram_record (rc := rc) hcut hl
      ((State.recipeOf_of_slot hr hcut rfl (kept.rsc rfl)).trans hc) c o f st why
    have now : (s.runCut c p o z st).now = s.now := kept.clock rfl
    have last := State.lastProgram_iff hcut hl
    rw [now] at film
    obtain ⟨ends, more, codes⟩ := film
    refine ⟨⟨r', hrec, fun hno => ?_, more⟩, fun hroom => ?_, fun ho => ?_⟩
    · obtain ⟨sprayEnd, zones, raised⟩ := ends hno
      refine ⟨sprayEnd, zones, fun hfew x y hxy hq => mem_holdCodes.1 (raised ?_ x y hxy hq)⟩
      exact roomForFilm_of_abandoned (holdCodes_length_of_hold hfew) hlen hadd hstay
    · obtain ⟨d, told, cell, ix, pass, outcome, -, -, evaluated, sprayEnd⟩ :=
        s.abandonProgram_told c p o f st why z (by omega)
      refine ⟨d, told, cell, ix, pass, outcome, fun hno => ?_, fun hno => ?_⟩
      · have final := last.2 hno
        exact ⟨evaluated.trans final, sprayEnd.trans (if_pos final)⟩
      · have goesOn : ¬ (s.runCut c p o z st).lastProgram p.ix = true := fun h => hno (last.1 h)
        exact ⟨evaluated.trans (Bool.eq_false_iff.2 goesOn), sprayEnd.trans (if_neg goesOn)⟩
    · obtain ⟨k, hk, listed⟩ := exists_hold_of_raised (h := r'.hold) (fun _ hy => codes (hsub hy))
        fun few => codes (hadd ho few)
      exact ⟨r', k, hrec, hk, listed⟩

end Sys2Proof.Machine
end

section
/-! PROOF. The end of a motion credits the zone, and what follows it (R68, R69, R75 to R77, R80 to R86, R92 to R97, R100 to
R103). -/

namespace Sys2Proof.Machine

/-! ## What follows a motion leaves the deposits and the count of segments as they are -/

/-- The deposits of a record, zone by zone. -/
def CarrierRecord.deposits (r : CarrierRecord) : List Nat := r.zones.map ZoneEntry.acc

theorem flagged_acc (zones : List ZoneEntry) (z : Option Nat) :
    (flagged zones z).map ZoneEntry.acc = zones.map ZoneEntry.acc := by
  refine List.ext_getElem? fun n => ?_
  simp [flagged, List.getElem?_mapIdx, Function.comp_def]

theorem flagged_length (zones : List ZoneEntry) (z : Option Nat) : (flagged zones z).length = zones.length := by
  simp [flagged]

theorem evaluated_acc {zones : List ZoneEntry} {ws : List ZoneSpec} (h : ws.length = zones.length) :
    (List.zipWith (fun q w => zoneByRule q.acc q.abandoned w) zones ws).map ZoneEntry.acc = zones.map ZoneEntry.acc := by
  refine List.ext_getElem? fun n => ?_
  rw [List.getElem?_map, List.getElem?_zipWith, List.getElem?_map]
  by_cases hn : n < zones.length
  · rw [List.getElem?_eq_getElem hn, List.getElem?_eq_getElem (h ▸ hn)]
    rfl
  · rw [List.getElem?_eq_none (Nat.not_lt.1 hn)]

/-- The end of a program leaves the deposits of a record that has the zones of its recipe. -/
theorem FilmEnded.deposits {t : LineTime} {r r' : CarrierRecord} {rc : Recipe} (h : FilmEnded t r r' rc)
    (hlen : rc.zones.length = r.zones.length) : r'.deposits = r.deposits := by
  unfold CarrierRecord.deposits
  by_cases hno : NoCellLeft r
  · obtain ⟨-, zones, -⟩ := h.ends hno
    rw [zones, evaluated_acc hlen]
  · rw [(h.more hno).2]

/-- A step keeps the deposits of a record and the count of segments executed in a cell. -/
structure KeepsCredit (c : CellId) (i : RecIx) (r : CarrierRecord) (s t : State) : Prop where
  executed : (t.cell c).counts.executed = (s.cell c).counts.executed
  deposits : ∃ r', t.rec? i = some r' ∧ r'.deposits = r.deposits

section
variable {s : State} {c : CellId} {p : Program} {r : CarrierRecord} {rc : Recipe}

theorem KeepsCredit.refl (hr : s.rec? p.ix = some r) : KeepsCredit c p.ix r s s := ⟨rfl, r, hr, rfl⟩

theorem State.endProgram_keepsCredit (hr : s.rec? p.ix = some r) (hl : r.status.isLive = true)
    (hc : s.recipeOf p.ix = some rc) (hlen : rc.zones.length = r.zones.length) :
    KeepsCredit c p.ix r s (s.endProgram c p) := by
  obtain ⟨r', hrec, film⟩ := State.finishProgram_record (s := s.modCell c SprayCell.emptied) (p := p) (rc := rc)
    (by simpa [State.modCell] using hr) hl (by simpa [State.modCell] using hc) c .completed none .ready .programEnd
  exact ⟨by rw [State.endProgram_leaves]; rfl, r', hrec, film.deposits hlen⟩

theorem State.starve_keepsCredit (hr : s.rec? p.ix = some r) (hl : r.status.isLive = true) :
    KeepsCredit c p.ix r s (s.starve c p.ix) := by
  have starved : (s.starve c p.ix).rec? p.ix = some { r with starves := satInc 255 r.starves } := by
    unfold State.starve
    dsimp only
    rw [State.cellTo_rec?, State.modCell, State.setCell_rec?, State.modLive_eq hr hl, State.setRec_rec?_self]
  exact ⟨by rw [State.starve_leaves], _, starved, rfl⟩

/-- A segment refused while none executes: no deposit is cut off. -/
theorem State.segmentFault_keepsCredit (hr : s.rec? p.ix = some r) (hl : r.status.isLive = true)
    (hc : s.recipeOf p.ix = some rc) (hlen : rc.zones.length = r.zones.length) (he : (s.cell c).executing = none)
    (code : FaultCode) (k : Nat) (z : Option Nat) : KeepsCredit c p.ix r s (s.segmentFault c p code k z) := by
  refine ⟨by rw [State.segmentFault_leaves]; rfl, ?_⟩
  let n := s.noteFault code (.scc c) { ix := some p.ix, segment := some k }
  have noted := s.noteFault_keeps code (.scc c) { ix := some p.ix, segment := some k }
  have hrn : n.rec? p.ix = some r := (State.rec?_of_ltk (noted.ltk rfl) p.ix).trans hr
  have whole : n.cutOff c p.ix = n := by
    have none : (n.cell c).executing = none := by rw [State.noteFault_cell]; exact he
    unfold State.cutOff
    simp only [none]
  obtain ⟨h, hcut, -⟩ := State.abandonRun_record (s := n.modCell c fun v => v.haltFor .faulted) c z
    (decide (ProgramOutcome.faulted ≠ .removed)) (by simpa [State.modCell] using hrn) hl
  have cut : (n.runCut c p .faulted z .faulted).rec? p.ix =
      ((n.modCell c fun v => v.haltFor .faulted).abandonRun c p.ix z
        (decide (ProgramOutcome.faulted ≠ .removed))).rec? p.ix := by
    unfold State.runCut
    rw [State.modCell, State.setCell_rec?, whole]
  have recipe : (n.runCut c p .faulted z .faulted).recipeOf p.ix = some rc :=
    (State.recipeOf_of_slot hr (cut.trans hcut) rfl (((n.runCut_keeps c p .faulted .faulted z).rsc rfl).trans
      (noted.rsc rfl))).trans hc
  obtain ⟨r', hrec, film⟩ := State.finishProgram_record (cut.trans hcut) hl recipe c .faulted (some (code, k)) .faulted
    (.fault code)
  refine ⟨r', hrec, (film.deposits ?_).trans ?_⟩
  · rw [flagged_length, flagged_length]
    exact hlen
  · unfold CarrierRecord.deposits
    rw [flagged_acc, flagged_acc]

theorem State.beginSegment_counts (e : Executing) : ((s.beginSegment c e).cell c).counts = (s.cell c).counts := by
  unfold State.beginSegment
  split
  · rcases Nat.eq_zero_or_pos e.feff with hf | hf
    · rw [State.beginStroke_of_dry hf, State.setCell_cell_self, SprayCell.inMotion]
    · by_cases hl : e.lead = 0
      · rw [State.beginStroke_of_noLead hf hl, State.setCell_cell_self, SprayCell.inMotion]
      · rw [State.beginStroke_of_lead hf hl, State.setCell_cell_self, SprayCell.inLead]
  · rw [State.modCell_cell]

theorem State.formSegment_keepsCredit (hr : s.rec? p.ix = some r) (hl : r.status.isLive = true) (m : Material) (k : SegKind)
    (q : GantryPos) (g : Segment) : KeepsCredit c p.ix r s (s.formSegment c p m k q g) := by
  have begun {t : State} (f : SprayCell → SprayCell) (hf : (f (t.cell c)).counts = (s.cell c).counts) {r₁ : CarrierRecord}
      (hrt : t.rec? p.ix = some r₁) (hd : r₁.deposits = r.deposits) (e : Executing) :
      KeepsCredit c p.ix r s ((t.modCell c f).beginSegment c e) := by
    refine ⟨?_, r₁, ?_, hd⟩
    · rw [State.beginSegment_counts, State.modCell_cell, hf]
    · rw [State.rec?_of_ltk ((State.beginSegment_keeps _ c e).ltk rfl), State.modCell, State.setCell_rec?]
      exact hrt
  unfold State.formSegment
  dsimp only
  split
  · refine begun _ ?_ (r₁ := { r with flowClamps := bump16 r.flowClamps }) ?_ rfl _
    · rw [State.modLive_cell]
    · rw [State.modLive_eq hr hl, State.setRec_rec?_self]
  · exact begun _ rfl hr rfl _

theorem State.executeSegment_keepsCredit (hr : s.rec? p.ix = some r) (hl : r.status.isLive = true)
    (hc : s.recipeOf p.ix = some rc) (hlen : rc.zones.length = r.zones.length) (he : (s.cell c).executing = none) (k : Nat)
    (g : Segment) : KeepsCredit c p.ix r s (s.executeSegment c p k g) := by
  unfold State.executeSegment
  split
  · split
    · exact State.segmentFault_keepsCredit hr hl hc hlen he _ _ _
    · exact State.formSegment_keepsCredit hr hl _ _ _ _
  · exact State.segmentFault_keepsCredit hr hl hc hlen he _ _ _

end

/-- A segment discarded in a skip flags a zone at most (R81). -/
theorem State.discardSegment_record {s : State} {i : RecIx} {r : CarrierRecord} (hr : s.rec? i = some r)
    (hl : r.status.isLive = true) (c : CellId) (g : Segment) :
    ∃ z, (s.discardSegment c i g).rec? i = some { r with zones := flagged r.zones z } := by
  unfold State.discardSegment
  dsimp only
  rw [State.flagZone?_eq (r := r) (by simpa [State.modCell] using hr) hl, State.setRec_rec?_self]
  exact ⟨_, rfl⟩

/-- What brings the next segment keeps deposits and count, whatever the state of the cell. -/
theorem State.bringNext_keepsCredit (c : CellId) (rc : Recipe) (fuel : Nat) :
    ∀ (s : State) (p : Program) (r : CarrierRecord), (s.cell c).program = some p → (s.cell c).executing = none →
      s.rec? p.ix = some r → r.status.isLive = true → s.recipeOf p.ix = some rc → rc.zones.length = r.zones.length →
      KeepsCredit c p.ix r s (s.bringNext c fuel) := by
  induction fuel with
  | zero => exact fun s p r _ _ hr _ _ _ => KeepsCredit.refl hr
  | succ fuel ih =>
    intro s p r hp he hr hl hc hlen
    rcases hb : (s.cell c).buffer[(s.cell c).exec] with _ | f
    · rw [State.bringNext_empty hp hb]
      split
      · exact State.endProgram_keepsCredit hr hl hc hlen
      · split
        · exact KeepsCredit.refl hr
        · exact State.starve_keepsCredit hr hl
    · rw [State.bringNext_full hp hb]
      generalize hm : s.modCell c (enteredByRule · f) = m
      have cell : m.cell c = enteredByRule (s.cell c) f := by rw [← hm, State.modCell_cell]
      have entered : (m.cell c).program = some p ∧ (m.cell c).executing = none ∧ (m.cell c).counts = (s.cell c).counts := by
        rw [cell]
        unfold enteredByRule
        split
        · exact ⟨hp, he, rfl⟩
        · exact ⟨hp, he, rfl⟩
      obtain ⟨hpm, hem, counts⟩ := entered
      have hrm : m.rec? p.ix = some r := by rw [← hm]; simpa [State.modCell] using hr
      have hcm : m.recipeOf p.ix = some rc := by rw [← hm]; simpa [State.modCell] using hc
      have from_m {u : State} (h : KeepsCredit c p.ix r m u) : KeepsCredit c p.ix r s u :=
        ⟨h.executed.trans (congrArg _ counts), h.deposits⟩
      split
      · obtain ⟨x, hrd⟩ := State.discardSegment_record hrm hl c (decodeSegment f.bits)
        obtain ⟨z, celld⟩ := m.discardSegment_leaves c p.ix (decodeSegment f.bits)
        have keptd := m.discardSegment_keeps c p.ix (decodeSegment f.bits)
        generalize m.discardSegment c p.ix (decodeSegment f.bits) = d at hrd celld keptd ⊢
        have next : KeepsCredit c p.ix { r with zones := flagged r.zones x } d (d.bringNext c fuel) :=
          ih d { p with next := p.next + 1 } _ (by rw [celld]; simp [SprayCell.freeSlot, hpm]) (by rw [celld]; rfl) hrd hl
            ((State.recipeOf_of_slot hrm hrd rfl (keptd.rsc rfl)).trans hcm) (by rw [flagged_length]; exact hlen)
        refine from_m ⟨next.executed.trans (by rw [celld]), ?_⟩
        obtain ⟨r', hr', same⟩ := next.deposits
        exact ⟨r', hr', same.trans (flagged_acc _ _)⟩
      · exact from_m (State.executeSegment_keepsCredit hrm hl hcm hlen hem _ _)

/-! ## The end of a motion (R77) -/

/-- What a segment whose motion has ended adds to the accumulator of a zone (R97). -/
def Executing.creditAcc (e : Executing) (z : Nat) (q : ZoneEntry) : Nat :=
  if e.seg.kind = some .spray ∧ z = e.seg.zone then min (q.acc + e.deposit) 4294967295 else q.acc

section
variable {s : State} {c : CellId} {e : Executing} {p : Program} {r : CarrierRecord}

theorem State.credit_eq {i : RecIx} (hr : s.rec? i = some r) (hl : r.status.isLive = true) (e : Executing) :
    s.credit i e = s.setRec i (some { r with zones := deposited r.zones e.creditAcc }) := by
  unfold State.credit
  split
  · rename_i spray
    rw [State.addDeposit, State.modLive_eq hr hl, modZone, deposited_one]
    have acc : e.creditAcc = fun k q => if k = e.seg.zone then min (q.acc + e.deposit) 4294967295 else q.acc := by
      funext k q
      simp only [Executing.creditAcc, spray, true_and]
    rw [acc]
  · rename_i dry
    have acc : e.creditAcc = fun _ q => q.acc := funext₂ fun k q => if_neg fun h => dry h.1
    rw [acc, deposited_self]
    exact (State.setRec_self hr).symm

theorem State.motionEnd_eq (he : (s.cell c).executing = some e) (hp : (s.cell c).program = some p)
    (hph : e.phase = .motion) (hr : s.rec? p.ix = some r) (hl : r.status.isLive = true) :
    s.motionEnd c = ((s.setRec p.ix (some { r with zones := deposited r.zones e.creditAcc })).setCell c
      ((s.cell c).motionDone e)).nextSegment c := by
  unfold State.motionEnd
  simp only [he, hp]
  rw [if_pos hph, State.credit_eq hr hl, State.modCell, State.setRec_cell]

/-- With nothing further in the buffer, the last segment ends the program (R85). -/
theorem State.nextSegment_ends (hp : (s.cell c).program = some p) (hb : (s.cell c).buffer[(s.cell c).exec] = none)
    (hn : p.count ≤ p.next) : s.nextSegment c = s.endProgram c p := by
  have bring : s.nextSegment c = s.bringNext c (5 + 1) := rfl
  rw [bring, State.bringNext_empty hp hb, if_pos hn]

theorem SprayCell.motionDone_empty {v : SprayCell} (h : v.buffer[v.exec + 1] = none) (e : Executing) :
    (v.motionDone e).buffer[(v.motionDone e).exec] = none := by
  change (v.buffer.set v.exec none)[v.exec + 1] = none
  simp only [Fin.getElem_fin] at h ⊢
  rw [Vector.getElem_set]
  split
  · rfl
  · exact h

end

/-- Settles O53: the credit, then what `State.nextSegment_follows` says of the cell whose motion has ended. -/
theorem motionEndsCreditTheZone : Obligations.MotionEndsCreditTheZone := by
  intro s c e p r rc he hph hp hr ha hc hlen v acc credited ended
  have hl : r.status.isLive = true := by rw [ha]; rfl
  let p' : Program := { p with next := p.next + 1 }
  let r' : CarrierRecord := { r with zones := deposited r.zones e.creditAcc }
  have done : v.motionDone e = ended.cell c := by
    rw [State.setCell_cell_self]
    unfold SprayCell.motionDone SprayCell.freeSlot
    rw [show v.program = some p from hp]
    rfl
  have cell : ended.cell c = v.motionDone e := done.symm
  have shown : s.motionEnd c = ended.nextSegment c := by
    rw [State.motionEnd_eq he hp hph hr hl, show (s.cell c).motionDone e = ended.cell c from done]
    exact congrArg (fun t : State => t.nextSegment c) (by rw [State.setCell_cell_self]; rfl)
  have program : (ended.cell c).program = some p' := by rw [State.setCell_cell_self]
  have executing : (ended.cell c).executing = none := by rw [State.setCell_cell_self]
  have valve : (ended.cell c).valveOpen = false := by rw [State.setCell_cell_self]
  have hre : ended.rec? p.ix = some r' := by rw [State.setCell_rec?]; exact State.setRec_rec?_self _ _ _
  have hce : ended.recipeOf p.ix = some rc := (State.recipeOf_of_slot hr hre rfl (State.setCell_rsc _ _ _)).trans hc
  have hlen' : rc.zones.length = r'.zones.length := by simpa [r', deposited] using hlen
  have now : ended.now = s.now := State.setCell_now _ _ _
  have told : ended.liu = s.liu := State.setCell_liu _ _ _
  have kept : KeepsCredit c p.ix r' ended (ended.nextSegment c) :=
    State.bringNext_keepsCredit c rc 6 ended p' r' program executing hre hl hce hlen'
  refine ⟨_, State.goesOn_congr shown, ?_, ?_, fun hb hn => ?_, fun hs => ?_⟩
  · rw [kept.executed, State.setCell_cell_self]
  · obtain ⟨q, hq, same⟩ := kept.deposits
    have count : q.zones.length = r.zones.length := by
      have := congrArg List.length same
      simpa [CarrierRecord.deposits, r', deposited] using this
    refine ⟨q, hq, count, fun z => ?_⟩
    have at_z := congrArg (fun l : List Nat => l[z]?) same
    simp only [CarrierRecord.deposits, r', deposited, List.getElem?_map, List.getElem?_mapIdx, Option.map_map] at at_z
    exact at_z
  · have ends : ended.nextSegment c = ended.endProgram c p' :=
      State.nextSegment_ends program (SprayCell.empty_of_eq cell (SprayCell.motionDone_empty hb e)) hn
    have finished := State.endProgram_follows ended c p' r' rc hre hl hce
    rw [← ends] at finished
    obtain ⟨state, idle, none, -, shut, gantry, mark, film, sprayDone⟩ := finished
    refine ⟨state, idle, none, shut.trans valve, gantry.trans ?_, mark, ?_, ?_⟩
    · rw [State.setCell_cell_self]
    · unfold FilmByRule at film ⊢
      rw [now] at film
      exact film
    · unfold SprayDoneTold at sprayDone ⊢
      rw [now, told] at sprayDone
      exact sprayDone
  · have running : (ended.cell c).state = .running := by rw [State.setCell_cell_self]; exact hs
    exact State.nextSegment_follows ended c p' r' rc program hre hl hce valve running

end Sys2Proof.Machine
end


section
/-! SUPPORT. What follows the lamp and the line mode: the shutter (R118), and that everything that happens on the line, at
the heads and in the tunnel keeps it commanded as they stand. -/

namespace Sys2Proof.Machine

/-! ## The shutter's law -/

/-- The shutter is commanded open exactly when the lamp is READY or LOW and the mode is not STOP (R118). -/
def ShutterLaw (s : State) : Prop :=
  s.ctc.shutterOpen = true ↔ (s.ctc.lamp.state = .ready ∨ s.ctc.lamp.state = .low) ∧ s.lmf.mode ≠ .stop

/-- A step keeps the shutter as lamp and mode command it. -/
def KeepsShutter (s t : State) : Prop := ShutterLaw s → ShutterLaw t

theorem KeepsShutter.refl (s : State) : KeepsShutter s s := id

theorem KeepsShutter.trans {s t u : State} (h : KeepsShutter s t) (k : KeepsShutter t u) : KeepsShutter s u := k ∘ h

theorem KeepsShutter.of_eq {s t : State} (mode : t.lmf.mode = s.lmf.mode) (lamp : t.ctc.lamp.state = s.ctc.lamp.state)
    (shutter : t.ctc.shutterOpen = s.ctc.shutterOpen) : KeepsShutter s t := by
  unfold KeepsShutter ShutterLaw
  rw [mode, lamp, shutter]
  exact id

theorem KeepsShutter.of_ctc {s t : State} (mode : t.lmf.mode = s.lmf.mode) (ctc : t.ctc = s.ctc) : KeepsShutter s t :=
  .of_eq mode (by rw [ctc]) (by rw [ctc])

/-- The parts whose change leaves the law as it is: all but the tunnel and the line mode. -/
def Blocks.unlit (b : Blocks) : Bool := !b.ctc && !b.mode

theorem OnlyIn.keepsShutter {b : Blocks} {s t : State} (h : OnlyIn b s t) (hb : b.unlit = true) : KeepsShutter s t := by
  simp only [Blocks.unlit, Bool.and_eq_true, Bool.not_eq_true'] at hb
  obtain ⟨hc, hm⟩ := hb
  exact .of_ctc (h.mode hm) (h.ctc hc)

theorem Keeps.keepsShutter {b : Blocks} {s t : State} (h : Keeps b s t) (hb : b.unlit = true) : KeepsShutter s t :=
  h.onlyIn.keepsShutter hb

/-- One operation more that touches neither tunnel nor mode. -/
theorem KeepsShutter.step {b : Blocks} {s t u : State} (h : KeepsShutter s t) (k : Keeps b t u) (hb : b.unlit = true) :
    KeepsShutter s u := h.trans (k.keepsShutter hb)

theorem KeepsShutter.foldl {α : Type} {f : State → α → State} (hf : ∀ t x, KeepsShutter t (f t x)) (xs : List α)
    (s : State) : KeepsShutter s (xs.foldl f s) := by
  induction xs generalizing s with
  | nil => exact .refl s
  | cons x xs ih => exact (hf s x).trans (ih _)

theorem State.setRec_keepsShutter (s : State) (i : RecIx) (r : Option CarrierRecord) : KeepsShutter s (s.setRec i r) :=
  .of_ctc rfl rfl

theorem State.modRec_keepsShutter (s : State) (i : RecIx) (f : CarrierRecord → CarrierRecord) :
    KeepsShutter s (s.modRec i f) := by
  unfold State.modRec
  split
  · exact s.setRec_keepsShutter i _
  · exact .refl s

theorem State.modLive_keepsShutter (s : State) (i : RecIx) (f : CarrierRecord → CarrierRecord) :
    KeepsShutter s (s.modLive i f) := by
  unfold State.modLive
  split
  · exact s.setRec_keepsShutter i _
  · exact .refl s

/-! ## Lamp and line mode (R115 to R118, R163 to R166) -/

theorem State.evalShutter_shutterLaw (s : State) : ShutterLaw s.evalShutter := by
  simp [ShutterLaw, State.evalShutter]

theorem State.lampTo_shutterLaw (s : State) (st : LampState) (cause : LampCause) : ShutterLaw (s.lampTo st cause) := by
  unfold State.lampTo
  dsimp only
  have told := (State.queueReport_keeps _ (.lampState st cause s.ctc.measured)).keepsShutter rfl
    (State.evalShutter_shutterLaw (s.setLamp { s.ctc.lamp with state := st, count := 0 }))
  split
  · exact (State.noteFault_keeps _ _ _ _).keepsShutter rfl told
  · exact told

/-- The lamp written in the state it has. -/
theorem State.setLamp_keepsShutter (s : State) {v : Lamp} (hv : v.state = s.ctc.lamp.state) : KeepsShutter s (s.setLamp v) :=
  .of_eq rfl hv rfl

theorem State.takeBallastFault_keepsShutter (s : State) : KeepsShutter s s.takeBallastFault := by
  unfold State.takeBallastFault
  split
  · exact .refl s
  · exact fun _ => (State.noteFault_keeps _ _ _ _).keepsShutter rfl (State.lampTo_shutterLaw _ _ _)

theorem State.lampSet_keepsShutter (s : State) (on : Bool) : KeepsShutter s (s.lampSet on) := by
  have warming : ShutterLaw s.startWarming := by
    unfold State.startWarming
    dsimp only
    split
    · exact State.takeBallastFault_keepsShutter _ (State.lampTo_shutterLaw _ _ _)
    · exact State.lampTo_shutterLaw _ _ _
  have off : ShutterLaw s.lampOff := State.lampTo_shutterLaw _ _ _
  unfold State.lampSet
  split
  all_goals first | exact .refl s | exact fun _ => warming | exact fun _ => off

theorem State.lampSample_keepsShutter (s : State) : KeepsShutter s s.lampSample := by
  have counts (n : Nat) : KeepsShutter s (s.setLamp { s.ctc.lamp with count := n }) := s.setLamp_keepsShutter rfl
  have samples (b : Bool) : KeepsShutter s (if b then
      if s.ctc.lamp.count + 1 < 5 then s.setLamp { s.ctc.lamp with count := s.ctc.lamp.count + 1 }
      else s.lampTo (if s.ctc.lamp.state = .ready then .low else .ready) .irradiance
    else s.setLamp { s.ctc.lamp with count := 0 }) := by
    split
    · split
      · exact counts _
      · exact fun _ => State.lampTo_shutterLaw _ _ _
    · exact counts _
  unfold State.lampSample
  dsimp only
  split
  · exact samples _
  · exact samples _
  all_goals exact .refl s

/-- A change of mode re-evaluates the shutter. -/
theorem State.setMode_keepsShutter (s : State) (m : LineMode) (cause : ModeCause) : KeepsShutter s (s.setMode m cause) := by
  unfold State.setMode
  split
  · exact .refl s
  · exact fun _ => State.evalShutter_shutterLaw _

theorem State.emergency_keepsShutter (s : State) : KeepsShutter s s.emergency := by
  unfold State.emergency
  split
  · exact s.cellsEmergency_keeps.keepsShutter rfl
  · exact fun _ => State.evalShutter_shutterLaw _

theorem State.estopEvent_keepsShutter (s : State) : KeepsShutter s s.estopEvent := by
  have taken : KeepsShutter s (s.setEstop true) := (s.setEstop_keeps true).keepsShutter rfl
  unfold State.estopEvent
  split
  · exact .refl s
  · split
    · exact taken
    · exact taken.trans (State.emergency_keepsShutter _)

theorem State.raiseFault_keepsShutter (s : State) (code : FaultCode) (o : Origin) (d : FaultDetail) :
    KeepsShutter s (s.raiseFault code o d) := by
  have changes (t : State) : KeepsShutter t (t.faultMode code) := by
    unfold State.faultMode
    split
    · exact t.setMode_keepsShutter _ _
    · exact .refl t
    · split
      · exact t.setMode_keepsShutter _ _
      · exact .refl t
  exact ((s.noteFault_keeps code o d).keepsShutter rfl).trans (changes _)

/-! ## Lanes and bindings (R107 to R113) -/

theorem State.setLane_keepsShutter (s : State) (l : LaneId) (v : Lane) : KeepsShutter s (s.setLane l v) :=
  .of_eq (by rw [State.setLane_lmf]) (by rw [State.setLane_lamp]) (by rw [State.setLane_shutterOpen])

/-- The tunnel's block written with the lamp and the shutter that it has. -/
theorem State.setCtc_keepsShutter (s : State) {v : Ctc} (lamp : v.lamp = s.ctc.lamp)
    (shutter : v.shutterOpen = s.ctc.shutterOpen) : KeepsShutter s { s with ctc := v } :=
  .of_eq rfl (congrArg Lamp.state lamp) shutter

theorem Rebinds.keepsShutter {s t : State} (h : Rebinds s t) (mode : t.lmf.mode = s.lmf.mode) : KeepsShutter s t :=
  .of_eq mode (by rw [h.ctc]) (by rw [h.ctc])

theorem State.deriveLane_keepsShutter (s : State) (l : LaneId) (cause : LaneCause) : KeepsShutter s (s.deriveLane l cause) :=
  (s.deriveLane_rebinds l cause).keepsShutter ((s.deriveLane_keeps l cause).mode rfl)

theorem State.requestBinding_keepsShutter (s : State) (i : RecIx) (kind : LimitKind) :
    KeepsShutter s (s.requestBinding i kind) := by
  have waits (w : Option WaitingBinding) : KeepsShutter s (s.setWaiting w) := s.setCtc_keepsShutter rfl rfl
  have binds (t : State) (w : WaitingBinding) (l : LaneId) (mode : (t.bindTo w l).lmf.mode = t.lmf.mode) :
      KeepsShutter t (t.bindTo w l) := by
    obtain ⟨-, ctc, -⟩ := t.bindTo_rebinds w l
    exact .of_eq mode (by rw [ctc]) (by rw [ctc])
  have mode := (s.requestBinding_keeps i kind).mode rfl
  unfold State.requestBinding at mode ⊢
  split at mode
  · unfold State.tryBind at mode ⊢
    split at mode
    · exact (waits none).trans (binds _ _ _ mode)
    · exact waits _
  · exact .refl s

theorem State.unbind_keepsShutter (s : State) (i : RecIx) (cause : LaneCause) : KeepsShutter s (s.unbind i cause) := by
  rcases hr : s.rec? i with _ | r
  · unfold State.unbind
    rw [hr]
    exact .refl s
  · obtain ⟨ctc, -⟩ := State.unbind_ctc hr cause
    exact .of_eq ((s.unbind_keeps i cause).mode rfl) (by rw [ctc]) (by rw [ctc])

/-! ## The inspection heads (R50 to R59) -/

theorem State.divert_keepsShutter (s : State) (i : RecIx) (stage : Stage) : KeepsShutter s (s.divert i stage) :=
  ((s.modRec_keepsShutter i _).trans (State.unbind_keepsShutter _ i _)).step (State.enterQueue_keeps _ i stage) rfl

theorem State.decideMask_keepsShutter (s : State) (i : RecIx) : KeepsShutter s (s.decideMask i) := by
  unfold State.decideMask
  split
  · split
    · exact s.divert_keepsShutter i _
    · exact .refl s
  · exact .refl s

theorem State.decideInspect_keepsShutter (s : State) (i : RecIx) : KeepsShutter s (s.decideInspect i) := by
  unfold State.decideInspect
  split
  · split
    · split
      · exact s.divert_keepsShutter i _
      · exact .refl s
    · exact .refl s
  · exact .refl s

theorem State.endMask_keepsShutter (s : State) (w : WalkTable) : KeepsShutter s (s.endMask w) := by
  have raised {b : Prop} [Decidable b] (i : RecIx) (vs : List PointVerdict) :
      KeepsShutter s (if b then s.raiseMask i vs else s) := by
    split
    · exact (s.raiseMask_keeps _ _).keepsShutter rfl
    · exact .refl s
  unfold State.endMask
  dsimp only
  exact ((((raised _ _).trans (State.modLive_keepsShutter _ _ _)).trans (State.decideMask_keepsShutter _ _)).step
    (State.queueReport_keeps _ _) rfl).step (State.modHead_keeps _ _ _) rfl

theorem State.endInspect_keepsShutter (s : State) (w : WalkTable) : KeepsShutter s (s.endInspect w) := by
  unfold State.endInspect
  dsimp only
  exact (((((s.raiseInspect_keeps _ _ _).keepsShutter rfl).trans (State.modLive_keepsShutter _ _ _)).step
    (State.queueReport_keeps _ _) rfl).trans (State.decideInspect_keepsShutter _ _)).step (State.modHead_keeps _ _ _) rfl

theorem State.endWalk_keepsShutter (s : State) (h : HeadId) (w : WalkTable) : KeepsShutter s (s.endWalk h w) := by
  cases h with
  | mask => exact s.endMask_keepsShutter w
  | inspect => exact s.endInspect_keepsShutter w

theorem State.afterGroup_keepsShutter (s : State) (h : HeadId) : KeepsShutter s (s.afterGroup h) := by
  unfold State.afterGroup
  split
  · exact .refl s
  · split
    · dsimp only
      split
      · exact s.endWalk_keepsShutter h _
      · exact ((s.modHead_keeps h _).keepsShutter rfl).step (State.beginGroup_keeps _ h _) rfl
    · exact (s.beginGroup_keeps h _).keepsShutter rfl

theorem State.judge_keepsShutter (s : State) (h : HeadId) : KeepsShutter s (s.judge h) := by
  unfold State.judge
  split
  · exact (((s.judgeGroup_keeps h _ _).keepsShutter rfl).step (State.modHead_keeps _ h _) rfl).trans
      (State.afterGroup_keepsShutter _ h)
  · exact .refl s

theorem State.completeGroup_keepsShutter (s : State) (h : HeadId) : KeepsShutter s (s.completeGroup h) := by
  unfold State.completeGroup
  split
  · split
    · exact s.afterGroup_keepsShutter h
    · exact .refl s
  · exact .refl s

theorem State.settlePoint_keepsShutter (s : State) (h : HeadId) (k : Nat) (v : PointVerdict) :
    KeepsShutter s (s.settlePoint h k v) := by
  have judged : KeepsShutter s (s.judgePoint h k v) := (s.judgePoint_keeps h k v).keepsShutter rfl
  unfold State.settlePoint
  dsimp only
  split
  · exact (judged.step (State.passOver_keeps _ h k) rfl).trans (State.completeGroup_keepsShutter _ h)
  · split
    · exact judged.trans (State.endWalk_keepsShutter _ h _)
    · exact judged

theorem State.startWalk_keepsShutter (s : State) (h : HeadId) : KeepsShutter s (s.startWalk h) := by
  unfold State.startWalk
  split
  · exact .refl s
  · dsimp only
    split
    · exact s.endWalk_keepsShutter h _
    · exact ((s.modHead_keeps h _).keepsShutter rfl).step (State.beginGroup_keeps _ h _) rfl

theorem State.channelResult_keepsShutter (s : State) (h : HeadId) (c : Fin 4) (x : BitVec 10) :
    KeepsShutter s (s.channelResult h c x) := by
  have landed (t : State) : KeepsShutter t (t.judgeIfLanded h) := by
    unfold State.judgeIfLanded
    split
    · split
      · exact t.judge_keepsShutter h
      · exact .refl t
    · exact .refl t
  unfold State.channelResult
  split
  · exact .refl s
  · split
    · unfold State.resultFull
      split
      · exact ((s.modHead_keeps h _).keepsShutter rfl).trans (landed _)
      · exact (s.spurious_keeps h _).keepsShutter rfl
    · unfold State.resultFirstFail
      split
      · exact .refl s
      · split
        · exact .refl s
        · exact ((s.modHead_keeps h _).keepsShutter rfl).trans (State.settlePoint_keepsShutter _ h _ _)

theorem State.groupWaitExpiry_keepsShutter (s : State) (h : HeadId) : KeepsShutter s (s.groupWaitExpiry h) := by
  unfold State.groupWaitExpiry
  split
  · exact ((s.expire_keeps _).keepsShutter rfl).trans (State.judge_keepsShutter _ h)
  · exact .refl s

theorem State.resultTimerExpiry_keepsShutter (s : State) (h : HeadId) (c : Fin 4) :
    KeepsShutter s (s.resultTimerExpiry h c) := by
  have late (t : State) (i : RecIx) (k : Nat) (e : WalkPoint) : KeepsShutter t (t.resultLate h i k e) := by
    unfold State.resultLate
    split
    · exact ((t.retryPoint_keeps h i k).keepsShutter rfl).trans (State.completeGroup_keepsShutter _ h)
    · exact t.settlePoint_keepsShutter h k _
  unfold State.resultTimerExpiry
  split
  · split
    · exact (((s.expire_keeps _).keepsShutter rfl).step (State.modHead_keeps _ h _) rfl).trans (late _ _ _ _)
    · exact .refl s
  · exact .refl s

/-! ## Records that leave the line, and loads (R7, R13, R16, R36 to R38) -/

theorem State.retireTunnel_keepsShutter (s : State) (i : RecIx) : KeepsShutter s (s.retireTunnel i) := by
  have dropped : KeepsShutter s (s.dropWaiting i) := by
    unfold State.dropWaiting
    split
    · split
      · exact s.setCtc_keepsShutter rfl rfl
      · exact .refl s
    · exact .refl s
  have left (t : State) : KeepsShutter t (t.leaveWetQueue i) := t.setCtc_keepsShutter rfl rfl
  have freed (t : State) : KeepsShutter t (t.freeExit i) := by
    unfold State.freeExit
    split
    · exact t.setCtc_keepsShutter rfl rfl
    · exact .refl t
  exact ((dropped.trans (left _)).trans (freed _)).trans (State.unbind_keepsShutter _ i _)

theorem State.retire_keepsShutter (s : State) (i : RecIx) (o : DoneOutcome) : KeepsShutter s (s.retire i o) :=
  (((((s.modRec_keepsShutter i _).step (State.retireTracker_keeps _ i) rfl).step (State.releaseUse_keeps _ i) rfl).step
    (State.retireStations_keeps _ i) rfl).trans (State.retireTunnel_keepsShutter _ i)).step (State.retireBench_keeps _ i) rfl

theorem State.loadSucceeded_keepsShutter (s : State) (i : RecIx) (k : SlotIx) (q : Bool) (p : Recipe) :
    KeepsShutter s (s.loadSucceeded i k q p) := by
  unfold State.loadSucceeded
  split
  · exact .refl s
  · split
    · exact ((s.releaseSlot_keeps k).keepsShutter rfl).trans (State.retire_keepsShutter _ i _)
    · exact (s.setRec_keepsShutter i _).trans (State.requestBinding_keepsShutter _ i _)

theorem State.loadFailed_keepsShutter (s : State) (i : RecIx) (why : LoadFailure) : KeepsShutter s (s.loadFailed i why) := by
  unfold State.loadFailed
  split
  · exact .refl s
  · split
    · exact s.retire_keepsShutter i _
    · exact ((((s.queueReport_keeps _).keepsShutter rfl).trans (State.setRec_keepsShutter _ i none)).step
        (State.dropChecks_keeps _ i) rfl).step (State.returnEntry_keeps _ i) rfl

theorem State.failLoad_keepsShutter (s : State) (k : SlotIx) (recipe : Nat) (why : LoadFailure) :
    KeepsShutter s (s.failLoad k recipe why) :=
  (((s.setSlot_keeps k .empty).keepsShutter rfl).step (State.popLoad_keeps _) rfl).trans
    (KeepsShutter.foldl (fun t i => t.loadFailed_keepsShutter i why) _ _)

theorem State.finishLoad_keepsShutter (s : State) (k : SlotIx) (h : SlotHead) (header : Nat) (p : Recipe) :
    KeepsShutter s (s.finishLoad k h header p) :=
  (((s.setSlot_keeps k _).keepsShutter rfl).step (State.popLoad_keeps _) rfl).trans
    (KeepsShutter.foldl (fun t i => t.loadSucceeded_keepsShutter i k _ p) _ _)

theorem State.startLoads_keepsShutter (fuel : Nat) : ∀ s : State, KeepsShutter s (s.startLoads fuel) := by
  induction fuel with
  | zero => exact KeepsShutter.refl
  | succ fuel ih =>
    intro s
    have skips : KeepsShutter s (s.popLoad.startLoads fuel) := (s.popLoad_keeps.keepsShutter rfl).trans (ih _)
    rw [State.startLoads]
    split
    · exact .refl s
    · split
      · exact .refl s
      · split
        · split
          · exact (s.failLoad_keepsShutter _ _ _).trans (ih _)
          · exact (s.beginLoad_keeps _ _).keepsShutter rfl
        · exact skips
        · exact skips

theorem State.requestLoad_keepsShutter (s : State) (i : RecIx) (recipe : Nat) : KeepsShutter s (s.requestLoad i recipe) := by
  have slot (k : SlotIx) (v : Slot) : KeepsShutter s (s.setSlot k v) := (s.setSlot_keeps k v).keepsShutter rfl
  unfold State.requestLoad
  split
  · split
    · exact (slot _ _).trans (State.loadSucceeded_keepsShutter _ i _ _ _)
    all_goals exact .refl s
  · split
    · exact slot _ _
    all_goals exact .refl s
  · exact ((slot _ _).step (State.modRsc_keeps _ _ rfl) rfl).trans (State.startLoads_keepsShutter 9 _)
  · exact s.loadFailed_keepsShutter i _

theorem State.loaderTakes_keepsShutter (s : State) (bytes : List Byte) : KeepsShutter s (s.loaderTakes bytes) := by
  unfold State.loaderTakes
  split
  · exact .refl s
  · split
    · exact ((s.addExtents_keeps _ _).keepsShutter rfl).step (State.modRsc_keeps _ _ rfl) rfl
    · exact (s.finishLoad_keepsShutter _ _ _ _).trans (State.startLoads_keepsShutter 9 _)
    · exact (s.failLoad_keepsShutter _ _ _).trans (State.startLoads_keepsShutter 9 _)

theorem State.loaderFails_keepsShutter (s : State) : KeepsShutter s s.loaderFails := by
  unfold State.loaderFails
  split
  · exact .refl s
  · exact (s.failLoad_keepsShutter _ _ _).trans (State.startLoads_keepsShutter 9 _)

/-! ## Start-up (R172) -/

theorem State.endStartUp_keepsShutter (s : State) (config : LiveConfig) : KeepsShutter s (s.endStartUp config) := by
  let told := (s.modRsc fun v => { v with startUp := none, live := config }).queueReport
    (.lineMode s.lmf.mode .idle s.now .startUp)
  have tells : KeepsShutter s told := ((s.modRsc_keeps _ rfl).keepsShutter rfl).step (State.queueReport_keeps _ _) rfl
  have stops : KeepsShutter told (if told.lmf.estop then told.emergency else told) := by
    split
    · exact told.emergency_keepsShutter
    · exact .refl told
  have arrives (t : State) : KeepsShutter t (if t.present .load then t.beginArrival else t) := by
    split
    · exact t.beginArrival_keeps.keepsShutter rfl
    · exact .refl t
  exact (tells.trans stops).trans (arrives _)

theorem State.startUpTakes_keepsShutter (s : State) (bytes : Option (List Byte)) : KeepsShutter s (s.startUpTakes bytes) := by
  have sets (t : State) (u : Option StartUp) : KeepsShutter t (t.setStartUp u) := (t.setStartUp_keeps u).keepsShutter rfl
  have header (u : StartUp) : KeepsShutter s (s.takeHeader u) := by
    unfold State.takeHeader
    generalize (if u.failed then StoreState.blank else storeStateOf u.bytes) = st
    dsimp only
    split
    · exact ((s.modRsc_keeps _ rfl).keepsShutter rfl).trans (State.endStartUp_keepsShutter _ _)
    · exact ((s.modRsc_keeps _ rfl).keepsShutter rfl).trans (sets _ _)
  unfold State.startUpTakes
  split
  · exact .refl s
  · dsimp only
    split
    · exact sets s _
    · split
      · exact ((s.modRsc_keeps _ rfl).keepsShutter rfl).trans (State.endStartUp_keepsShutter _ _)
      · exact header _

/-! ## Tag reads and writes, missing carriers and moves (R2, R3, R10, R21 to R24) -/

theorem State.carrierMissing_keepsShutter (s : State) (p : Place) : KeepsShutter s (s.carrierMissing p) := by
  unfold State.carrierMissing
  split
  · split
    · exact (((((s.setSensor_keeps p false).keepsShutter rfl).step (State.dropRead_keeps _ p) rfl).trans
        (State.modRec_keepsShutter _ _ _)).trans (State.raiseFault_keepsShutter _ _ _ _)).step
          (State.loseCarrier_keeps _ _ p) rfl
    · exact .refl s
  · exact .refl s

theorem State.checkPassed_keepsShutter (s : State) (i : RecIx) (p : Place) : KeepsShutter s (s.checkPassed i p) := by
  have passed : KeepsShutter s ((s.dropRead p).modRec i fun r => { r with tagCheck := .passed }) :=
    ((s.dropRead_keeps p).keepsShutter rfl).trans (State.modRec_keepsShutter _ i _)
  have completes (t : State) : KeepsShutter t (t.completePass i) := by
    unfold State.completePass
    split
    · exact .refl t
    · split
      · exact (t.askWrite_keeps _ _ _).keepsShutter rfl
      · split
        · exact (t.retire_keepsShutter i .good).step (State.queueReport_keeps _ _) rfl
        · exact .refl t
  unfold State.checkPassed
  dsimp only
  split
  · exact passed.trans (completes _)
  · exact passed.step (State.arriveBench_keeps _ _ i) rfl
  all_goals exact passed

theorem State.checkFailed_keepsShutter (s : State) (i : RecIx) (p : Place) : KeepsShutter s (s.checkFailed i p) :=
  ((((s.dropRead_keeps p).keepsShutter rfl).trans (State.modRec_keepsShutter _ i _)).step (State.dropWalks_keeps _ i)
    rfl).trans (State.raiseFault_keepsShutter _ _ _ _)

theorem State.readEnd_keepsShutter (s : State) (p : Place) (result : Option TagRead) : KeepsShutter s (s.readEnd p result) := by
  have again (q : Place) : KeepsShutter s (s.nextAttempt q) := (s.nextAttempt_keeps q).keepsShutter rfl
  unfold State.readEnd
  split
  · exact .refl s
  · split
    · exact (((s.dropRead_keeps p).keepsShutter rfl).step (State.takeMatch_keeps _ _) rfl).step (State.arrivalTold_keeps _) rfl
    · split
      · exact again p
      · exact (s.unreadable_keeps.keepsShutter rfl).step (State.arrivalTold_keeps _) rfl
    · unfold State.checkAttempt
      split
      · exact (s.dropRead_keeps _).keepsShutter rfl
      · split
        · exact s.checkPassed_keepsShutter _ _
        · exact s.checkFailed_keepsShutter _ _
      · split
        · exact again _
        · exact s.checkFailed_keepsShutter _ _

theorem State.reentryWritten_keepsShutter (s : State) (i : RecIx) (d : Option Disposition) :
    KeepsShutter s (s.reentryWritten i d) := by
  unfold State.reentryWritten
  split
  · unfold State.beginPass
    split
    · exact (s.setRec_keepsShutter i _).trans (State.requestBinding_keepsShutter _ i _)
    · exact .refl s
  · exact .refl s

theorem State.writeEnd_keepsShutter (s : State) (p : Place) (b : Option Byte) : KeepsShutter s (s.writeEnd p b) := by
  have done (t : State) (why : WriteFor) : KeepsShutter t (t.writeDone why) := by
    unfold State.writeDone
    split
    · exact t.reentryWritten_keepsShutter _ _
    · exact .refl t
    · exact ((t.entryUnmarked_keeps _).keepsShutter rfl).step (State.rematch_keeps _ _ _) rfl
    · exact (t.holdMarkEnd_keeps _ _ _).keepsShutter rfl
  have failed (t : State) (why : WriteFor) : KeepsShutter t (t.writeFailed why) := by
    unfold State.writeFailed
    split
    · exact t.reentryWritten_keepsShutter _ _
    · exact .refl t
    · split
      · exact (t.queueReport_keeps _).keepsShutter rfl
      · exact .refl t
    · exact (t.holdMarkEnd_keeps _ _ _).keepsShutter rfl
  have noted (t : State) (code : FaultCode) (o : Origin) (d : FaultDetail) : KeepsShutter t (t.noteFault code o d) :=
    (t.noteFault_keeps code o d).keepsShutter rfl
  unfold State.writeEnd
  split
  · exact .refl s
  · split
    · exact ((s.popWrite_keeps p).keepsShutter rfl).trans (done _ _)
    · dsimp only
      split
      · exact (noted s _ _ _).step (State.setWrites_keeps _ _) rfl
      · exact (((noted s _ _ _).trans (noted _ _ _ _)).step (State.popWrite_keeps _ p) rfl).trans (failed _ _)

theorem State.settleAt_keepsShutter (s : State) (i : RecIx) (dst : Place) : KeepsShutter s (s.settleAt i dst) := by
  have checked (t : State) : KeepsShutter t (t.startCheck i dst) := (t.startCheck_keeps i dst).keepsShutter rfl
  cases dst with
  | mask | sprayA | sprayB | inspect | unload => exact checked s
  | bench n => exact ((s.seat_keeps n i).keepsShutter rfl).trans (checked _)
  | wetq => exact s.setCtc_keepsShutter rfl rfl
  | load | lane1 | lane2 | offline => exact .refl s

theorem State.moveEnd_keepsShutter (s : State) (i : RecIx) : KeepsShutter s (s.moveEnd i) := by
  unfold State.moveEnd
  split
  · split
    · exact .refl s
    · exact (((s.landMove_keeps i _).keepsShutter rfl).trans (State.modRec_keepsShutter _ i _)).trans
        (State.settleAt_keepsShutter _ i _)
  · exact .refl s

theorem State.moveTimeout_keepsShutter (s : State) (i : RecIx) : KeepsShutter s (s.moveTimeout i) := by
  unfold State.moveTimeout
  split
  · exact (((s.expire_keeps _).keepsShutter rfl).step (State.timeOutMove_keeps _ i) rfl).trans
      (State.raiseFault_keepsShutter _ _ _ _)
  · exact .refl s

/-! ## The tunnel's events (R111 to R126, R130, R131) -/

theorem State.entryStart_keepsShutter (s : State) : KeepsShutter s s.entryStart := by
  unfold State.entryStart
  split
  · rename_i i l _
    have left : KeepsShutter s (s.leaveWetQueue i) := s.setCtc_keepsShutter rfl rfl
    exact left.step (State.beginMove_keeps _ _ _ _) rfl
  · exact .refl s

theorem State.laneEntryEnd_keepsShutter (s : State) (l : LaneId) : KeepsShutter s (s.laneEntryEnd l) := by
  have joined (i : RecIx) : KeepsShutter s (s.joinLane l i) :=
    (((s.dropMove_keeps i).keepsShutter rfl).trans (State.modRec_keepsShutter _ i _)).trans (State.setLane_keepsShutter _ l _)
  unfold State.laneEntryEnd
  split
  · unfold State.enterLane
    split
    · exact .refl s
    · exact (((joined _).step (State.raiseIf_keeps _ _ _ _) rfl).trans (State.modRec_keepsShutter _ _ _)).step
        (State.queueReport_keeps _ _) rfl
  · exact .refl s

theorem State.exitStart_keepsShutter (s : State) (l : LaneId) : KeepsShutter s (s.exitStart l) := by
  have holds (t : State) (i : RecIx) : KeepsShutter t { t with ctc := { t.ctc with exitHolder := some i } } :=
    t.setCtc_keepsShutter rfl rfl
  unfold State.exitStart
  split
  · rename_i i rest t _ _
    have leaves : KeepsShutter s (s.setLane l { s.lane l with order := rest, arrival := none }) :=
      s.setLane_keepsShutter l _
    have exits := ((leaves.trans (holds _ i)).step (State.beginMove_keeps _ i (lanePlace l) (s.exitTarget i)) rfl).trans
      (State.modRec_keepsShutter _ i fun r => { r with plan := r.plan.tail })
    have raises {u : State} (h : KeepsShutter s u) (cs : List ReasonCode) (f : Hold → Hold) :
        KeepsShutter s ((u.raiseAll i cs).modHold i f) :=
      (h.step (u.raiseAll_keeps i cs) rfl).trans (State.modRec_keepsShutter _ i _)
    dsimp only
    refine KeepsShutter.trans ?_ (State.unbind_keepsShutter _ i .exitStart)
    split
    · exact ((raises exits _ _).trans (State.modRec_keepsShutter _ i _)).step (State.queueReport_keeps _ _) rfl
    · exact (raises exits _ _).trans (State.modRec_keepsShutter _ i _)
  · exact .refl s

theorem State.encoderPulse_keepsShutter (s : State) (l : LaneId) : KeepsShutter s (s.encoderPulse l) := by
  have advanced : KeepsShutter s (s.advanceLane l) :=
    (KeepsShutter.foldl (fun t i => t.modRec_keepsShutter i advance) _ s).trans (State.setLane_keepsShutter _ l _)
  have arrives (t : State) : KeepsShutter t (t.exitArrival l) := by
    have taken := t.setLane_keepsShutter l { t.lane l with arrival := some t.now }
    unfold State.exitArrival
    dsimp only
    split
    · exact taken.trans (State.exitStart_keepsShutter _ l)
    · exact taken.trans (State.deriveLane_keepsShutter _ l _)
  unfold State.encoderPulse
  dsimp only
  split
  · exact advanced.trans (arrives _)
  · exact advanced

theorem State.exitGrant_keepsShutter (s : State) : KeepsShutter s s.exitGrant := by
  unfold State.exitGrant
  split
  · exact s.exitStart_keepsShutter _
  · exact .refl s

theorem State.exitEnd_keepsShutter (s : State) : KeepsShutter s s.exitEnd := by
  have freed (t : State) (i : RecIx) : KeepsShutter t (t.freeExit i) := by
    unfold State.freeExit
    split
    · exact t.setCtc_keepsShutter rfl rfl
    · exact .refl t
  unfold State.exitEnd
  split
  · exact .refl s
  · split
    · exact (((s.landMove_keeps _ _).keepsShutter rfl).trans (freed _ _)).trans (State.settleAt_keepsShutter _ _ _)
    · exact .refl s

theorem State.uvSample_keepsShutter (s : State) (raw : Option (BitVec 12)) : KeepsShutter s (s.uvSample raw) := by
  have measured (t : State) (x : LineTime) (n : Nat) : KeepsShutter t { t with ctc := { t.ctc with uvAt := x, measured := n } } :=
    t.setCtc_keepsShutter rfl rfl
  have dosed (t : State) : KeepsShutter t t.uvDoses := KeepsShutter.foldl (fun u i => u.modLive_keepsShutter i _) _ t
  unfold State.uvSample
  generalize s.sampleTime 100 s.ctc.uvAt = x
  exact ((((s.atTime_keeps x).keepsShutter rfl).trans (measured _ x _)).trans (State.lampSample_keepsShutter _)).trans (dosed _)

theorem State.zoneFaults_keepsShutter (s : State) (z : ZoneIx) (old new : ZoneSense) (k : Option (Fin 8)) :
    KeepsShutter s (s.zoneFaults z old new k) := by
  have raised {b : Prop} [Decidable b] {t : State} (h : KeepsShutter s t) (code : FaultCode) (d : FaultDetail) :
      KeepsShutter s (if b then t.raiseFault code .ctc d else t) := by
    split
    · exact h.trans (t.raiseFault_keepsShutter _ _ _)
    · exact h
  exact raised (raised (raised (.refl s) _ _) _ _) _ _

theorem State.sampleZone_keepsShutter (s : State) (adc : Vector (Option Int) 8) (z : ZoneIx) :
    KeepsShutter s (s.sampleZone adc z) := by
  have set (v : ZoneSense) : KeepsShutter s (s.setZone z v) := s.setCtc_keepsShutter rfl rfl
  exact (set _).trans (State.zoneFaults_keepsShutter _ _ _ _ _)

theorem State.thermalSample_keepsShutter (s : State) (adc : Vector (Option Int) 8) : KeepsShutter s (s.thermalSample adc) := by
  have noted (t : State) (x : LineTime) : KeepsShutter t { t with ctc := { t.ctc with thermalAt := x } } :=
    t.setCtc_keepsShutter rfl rfl
  have sampled (t : State) : KeepsShutter t (zoneIxs.foldl (fun u z => u.sampleZone adc z) t) :=
    KeepsShutter.foldl (fun u z => u.sampleZone_keepsShutter adc z) _ t
  have dosed (t : State) : KeepsShutter t t.thermalDoses := KeepsShutter.foldl (fun u i => u.modLive_keepsShutter i _) _ t
  unfold State.thermalSample
  generalize s.sampleTime 1000 s.ctc.thermalAt = x
  exact ((((s.atTime_keeps x).keepsShutter rfl).trans (noted _ x)).trans (sampled _)).trans (dosed _)

theorem State.warmUpEnd_keepsShutter (s : State) : KeepsShutter s s.warmUpEnd := by
  unfold State.warmUpEnd
  split
  · exact fun _ => State.lampTo_shutterLaw _ _ _
  · exact .refl s

theorem State.setBallast_keepsShutter (s : State) (active : Bool) : KeepsShutter s (s.setBallast active) :=
  s.setLamp_keepsShutter rfl

theorem State.ballastEvent_keepsShutter (s : State) : KeepsShutter s s.ballastEvent := by
  unfold State.ballastEvent
  split
  · exact .refl s
  · exact (s.setBallast_keepsShutter true).trans (State.takeBallastFault_keepsShutter _)

end Sys2Proof.Machine
end


section
/-! PROOF. Every command keeps the shutter as the lamp and the line mode command it (R118). -/

namespace Sys2Proof.Machine

/-! ## The requests (R164 to R169, R12, R16, R115, R155) -/

theorem State.unless_keepsShutter {s : State} (c : Bool) (st : ReplyStatus) {a : Answer} (h : KeepsShutter s a.1) :
    KeepsShutter s (s.unless c st a).1 := by
  unfold State.unless
  split
  · exact h
  · exact .refl s

theorem State.withRec_keepsShutter {s : State} (i : Byte) {f : RecIx → Answer} (h : ∀ i, KeepsShutter s (f i).1) :
    KeepsShutter s (s.withRec i f).1 := by
  unfold State.withRec
  split
  · exact h _
  · exact .refl s

theorem State.withCode_keepsShutter {s : State} {α : Type} (v : Option α) {f : α → Answer}
    (h : ∀ a, KeepsShutter s (f a).1) : KeepsShutter s (s.withCode v f).1 := by
  unfold State.withCode
  split
  · exact h _
  · exact .refl s

theorem State.doModeSet_keepsShutter (s : State) (m : LineMode) : KeepsShutter s (s.doModeSet m).1 := by
  unfold State.doModeSet
  split
  case h_1 => exact State.unless_keepsShutter _ _ (s.setMode_keepsShutter _ _)
  case h_4 => exact State.unless_keepsShutter _ _ (s.setMode_keepsShutter _ _)
  case h_2 | h_3 | h_5 | h_6 | h_7 => exact .refl s
  all_goals exact s.setMode_keepsShutter _ _

theorem State.doResume_keepsShutter (s : State) : KeepsShutter s s.doResume.1 := by
  unfold State.doResume
  split
  · exact .refl s
  · split
    · exact .refl s
    · exact s.setMode_keepsShutter _ _

theorem State.clearTunnel_keepsShutter (s : State) : KeepsShutter s s.clearTunnel := by
  have cleared (t : State) (l : LaneId) : KeepsShutter t (t.clearLane l) := by
    unfold State.clearLane
    dsimp only
    split
    · exact (t.setLane_keepsShutter l _).step (State.laneReport_keeps _ l _) rfl
    · exact t.setLane_keepsShutter l _
  have emptied : KeepsShutter s { s with ctc := { s.ctc with waiting := none, wetQueue := [], exitHolder := none } } :=
    s.setCtc_keepsShutter rfl rfl
  exact (emptied.trans (cleared _ .lane1)).trans (cleared _ .lane2)

theorem State.clearBlocks_keepsShutter (s : State) : KeepsShutter s s.clearBlocks := by
  let s₁ : State :=
    { s with
      ltk := s.ltk.lineClear, rsc := s.rsc.lineClear
      ine := { mask := s.ine.mask.lineClear, inspect := s.ine.inspect.lineClear }
      scc := { a := s.scc.a.lineClear, b := s.scc.b.lineClear } }
  have lines : KeepsShutter s s₁ := .of_ctc rfl rfl
  have bench : KeepsShutter s₁.clearTunnel s.clearBlocks := .of_ctc rfl rfl
  exact (lines.trans s₁.clearTunnel_keepsShutter).trans bench

theorem State.doLineClear_keepsShutter (s : State) : KeepsShutter s s.doLineClear.1 := by
  unfold State.doLineClear
  split
  · exact .refl s
  · dsimp only [State.ok]
    split
    · exact (s.clearBlocks_keepsShutter.step (State.dropRead_keeps _ .load) rfl).step (State.beginArrival_keeps _) rfl
    · exact s.clearBlocks_keepsShutter

theorem State.doAdmit_keepsShutter (s : State) (id : TagId) (n : Nat) (serial : List Byte) :
    KeepsShutter s (s.doAdmit id n serial).1 := by
  have admitted (i : RecIx) (e : LoadEntry) (r : CarrierRecord) : KeepsShutter s (s.admitTo i e r) :=
    ((s.setRec_keepsShutter i _).step (State.setEntry_keeps _ _) rfl).trans (State.requestLoad_keepsShutter _ i _)
  unfold State.doAdmit
  split
  · exact .refl s
  · split
    · exact .refl s
    · split
      · exact .refl s
      · split
        · exact .refl s
        · split
          · exact .refl s
          · split
            · exact .refl s
            · exact admitted _ _ _

theorem State.doRemove_keepsShutter (s : State) (i : RecIx) : KeepsShutter s (s.doRemove i).1 := by
  unfold State.doRemove
  split
  · exact .refl s
  · split
    · exact s.modRec_keepsShutter i _
    all_goals exact s.retire_keepsShutter i .removed

theorem State.doHoldDispose_keepsShutter (s : State) (l : Link) (i : RecIx) (d : Disposition) :
    KeepsShutter s (s.doHoldDispose l i d).1 := by
  have closed (r : CarrierRecord) (h : Hold) (o : DoneOutcome) : KeepsShutter s (s.closeOut i r h d l o) := by
    have retired (q : CarrierRecord) (b : ReportBody) : KeepsShutter s (((s.setRec i (some q)).queueReport b).retire i o) :=
      ((s.setRec_keepsShutter i _).step (State.queueReport_keeps _ b) rfl).trans (State.retire_keepsShutter _ i o)
    unfold State.closeOut
    dsimp only
    split
    · exact (retired _ _).step (State.askWrite_keeps _ _ _ _) rfl
    · exact retired _ _
  have reworked (r : CarrierRecord) (h : Hold) : KeepsShutter s (s.rework i r h d l) :=
    ((s.setRec_keepsShutter i _).step (State.holdChanged_keeps _ i _) rfl).step (State.rematch_keeps _ _ _) rfl
  unfold State.doHoldDispose
  split
  · exact .refl s
  · split
    · exact .refl s
    · split
      · exact .refl s
      · exact closed _ _ _
      · exact reworked _ _

theorem State.dispatch_keepsShutter (s : State) (l : Link) (tag : Byte) (r : Request) :
    KeepsShutter s (s.dispatch l tag r).1 := by
  have unlit (hr : (partsOfRequest r).unlit = true) := (s.dispatch_onlyIn l tag r).keepsShutter hr
  cases r with
  | lineModeSet m => exact State.withCode_keepsShutter _ s.doModeSet_keepsShutter
  | resume => exact s.doResume_keepsShutter
  | lineClear => exact s.doLineClear_keepsShutter
  | admitCarrier id n serial => exact s.doAdmit_keepsShutter id _ serial
  | remove i => exact State.withRec_keepsShutter i s.doRemove_keepsShutter
  | traceTake i =>
    refine State.withRec_keepsShutter i fun i => ?_
    unfold State.doTraceTake
    split
    · exact State.unless_keepsShutter _ _ ((s.setRec_keepsShutter i none).step (State.rematch_keeps _ _ _) rfl)
    · exact .refl s
  | holdDispose i d =>
    exact State.withRec_keepsShutter i fun i => State.withCode_keepsShutter _ (s.doHoldDispose_keepsShutter l i)
  | lampSet v => exact State.withCode_keepsShutter _ s.lampSet_keepsShutter
  | identify | lineStatus | faultRead | carrierRead | benchList | slotList | lineConfig | faultAck | markClear
  | holdPlace | holdRead | holdClaim | holdUnclaim | instructionPost | findingPost | findingRead | headClear | cellHome
  | cellAbort | cellClear | storeRead | storeWrite | recipeCheck => exact unlit rfl

/-! ## Frames and the store's accesses (R26, R177 to R179) -/

theorem State.screen_keepsShutter (s : State) (l : Link) (kind tag : Byte) (r : Option Request) :
    KeepsShutter s (s.screen l kind tag r) := by
  have screened : KeepsShutter s (s.screenRequest l kind tag r).1 := by
    unfold State.screenRequest
    split
    · exact .refl s
    · split
      · exact .refl s
      · split
        · exact .refl s
        · split
          · exact .refl s
          · split
            · exact .refl s
            · exact s.dispatch_keepsShutter l tag _
  unfold State.screen
  split
  · exact .refl s
  · unfold Answer.deliver
    split
    · exact screened.trans ((State.sendReply_onlyIn _ l _).keepsShutter rfl)
    · exact screened

theorem State.take_keepsShutter (s : State) (l : Link) (f : Frame) (r : Option Request) : KeepsShutter s (s.take l f r) := by
  unfold State.take
  split
  · exact .refl s
  · cases l with
    | bench =>
      dsimp only
      split
      · exact .refl s
      · exact (s.benchHeard_onlyIn.keepsShutter rfl).trans (State.screen_keepsShutter _ _ _ _ _)
    | host =>
      dsimp only
      split
      · exact .refl s
      · split
        · exact (s.setHeld_onlyIn _).keepsShutter rfl
        · exact s.screen_keepsShutter _ _ _ _

theorem State.screenHeld_keepsShutter (s : State) : KeepsShutter s s.screenHeld := by
  unfold State.screenHeld
  split
  · split
    · exact .refl s
    · exact ((s.setHeld_onlyIn none).keepsShutter rfl).trans (State.screen_keepsShutter _ _ _ _ _)
  · exact .refl s

theorem State.receive_keepsShutter (s : State) (l : Link) (bytes : List Byte) : KeepsShutter s (s.receive l bytes) := by
  refine KeepsShutter.foldl (fun t x => ?_) bytes s
  unfold State.receiveByte
  split
  · exact .refl t
  · have heard (v : Rx) : KeepsShutter t (t.setRx l v) := (t.setRx_onlyIn l v).keepsShutter rfl
    dsimp only
    split
    · exact (heard _).trans (State.take_keepsShutter _ _ _ _)
    · exact heard _

theorem State.handRead_keepsShutter (s : State) (who : Requestor) (bytes : List Byte) :
    KeepsShutter s (s.handRead who bytes) := by
  unfold State.handRead
  split
  · exact s.startUpTakes_keepsShutter _
  · exact (s.landFetch_keeps _ _).keepsShutter rfl
  · split
    · exact (s.readBackEnd_keeps _ _ _).keepsShutter rfl
    all_goals exact .refl s
  · exact s.loaderTakes_keepsShutter _
  · exact (s.hostTakes_keeps _).keepsShutter rfl

theorem State.handError_keepsShutter (s : State) (who : Requestor) : KeepsShutter s (s.handError who) := by
  unfold State.handError
  split
  · exact s.startUpTakes_keepsShutter _
  · exact (s.failFetch_keeps _).keepsShutter rfl
  · split
    · exact (s.readBackEnd_keeps _ _ _).keepsShutter rfl
    all_goals exact .refl s
  · exact s.loaderFails_keepsShutter
  · exact s.hostFails_keeps.keepsShutter rfl

theorem State.accessEnd_keepsShutter (s : State) (a : Access) : KeepsShutter s (s.accessEnd a) := by
  have closed : KeepsShutter s s.closePort := s.closePort_keeps.keepsShutter rfl
  have put (t : State) (o : Nat) (data : List Byte) : KeepsShutter t (t.putStore o data) := .of_ctc rfl rfl
  unfold State.accessEnd
  split
  · exact closed.trans (State.handRead_keepsShutter _ _ _)
  · exact (closed.trans (put _ _ _)).step (State.handWrite_keeps _) rfl

theorem State.accessError_keepsShutter (s : State) (a : Access) : KeepsShutter s (s.accessError a) := by
  have spoiled (t : State) (op : AccessOp) : KeepsShutter t (t.spoil op) := by
    cases op <;> exact .of_ctc rfl rfl
  unfold State.accessError
  exact (((((s.reach_keeps _ _).keepsShutter rfl).step (State.closePort_keeps _) rfl).trans (spoiled _ _)).step
    (State.noteFault_keeps _ _ _ _) rfl).trans (State.handError_keepsShutter _ _)

/-! ## Every command keeps the law -/

/-- What a command goes on to keeps the law. -/
def LeadsToShutterLaw (s : State) (o : Host.Outcome State Fault Refusal) : Prop := ∀ t, o = .next t → KeepsShutter s t

theorem State.goesOn_leadsToShutterLaw {s u : State} (h : KeepsShutter s u) : LeadsToShutterLaw s u.goesOn := fun t e => by
  cases e
  exact h.trans (u.settle_onlyIn.keepsShutter rfl)

theorem State.endAccess_leadsToShutterLaw {s : State} {f : State → Access → State} (hf : ∀ a, KeepsShutter s (f s a)) :
    LeadsToShutterLaw s (s.endAccess f) := by
  unfold State.endAccess
  split
  · split
    · exact State.goesOn_leadsToShutterLaw (hf _)
    · exact fun _ e => nomatch e
  · exact State.goesOn_leadsToShutterLaw (.refl s)

/-- A command that goes on within parts that are no part of the law. -/
theorem GoesOnWithin.leadsToShutterLaw {c : Instr} {s : State} (h : GoesOnWithin c s) (hc : (commandParts c).unlit = true) :
    LeadsToShutterLaw s (exec c s) := by
  obtain ⟨u, e, only⟩ := h
  rw [e]
  exact State.goesOn_leadsToShutterLaw (only.keepsShutter hc)

theorem exec_leadsToShutterLaw (s : State) (c : Instr) : LeadsToShutterLaw s (exec c s) := by
  have goesOn {u : State} (h : KeepsShutter s u) := State.goesOn_leadsToShutterLaw h
  cases c with
  | por fast => exact goesOn fun _ => by simp [ShutterLaw, State.powerOn, Ctc.reset]
  | emergencyStop => exact goesOn s.estopEvent_keepsShutter
  | frameValid l bytes => exact goesOn (s.receive_keepsShutter l bytes)
  | heldFrameScreen => exact goesOn s.screenHeld_keepsShutter
  | storeAccessEnd => exact State.endAccess_leadsToShutterLaw s.accessEnd_keepsShutter
  | storeAccessTimeout => exact State.endAccess_leadsToShutterLaw s.accessError_keepsShutter
  | tagReadAttemptEnd p x => exact goesOn (s.readEnd_keepsShutter p x)
  | tagWriteAttemptEnd p b => exact goesOn (s.writeEnd_keepsShutter p b)
  | moveEnd i => exact goesOn (s.moveEnd_keepsShutter i)
  | transportTimeout i => exact goesOn (s.moveTimeout_keepsShutter i)
  | carrierMissing p => exact goesOn (s.carrierMissing_keepsShutter p)
  | walkStart h => exact goesOn (s.startWalk_keepsShutter h)
  | channelResult h k x => exact goesOn (s.channelResult_keepsShutter h k x)
  | groupWaitExpiry h => exact goesOn (s.groupWaitExpiry_keepsShutter h)
  | resultTimerExpiry h k => exact goesOn (s.resultTimerExpiry_keepsShutter h k)
  | entryTransferStart => exact goesOn s.entryStart_keepsShutter
  | laneEntryEnd l => exact goesOn (s.laneEntryEnd_keepsShutter l)
  | encoderPulse l => exact goesOn (s.encoderPulse_keepsShutter l)
  | uvSample raw => exact goesOn (s.uvSample_keepsShutter raw)
  | thermalSample adc => exact goesOn (s.thermalSample_keepsShutter adc)
  | warmUpEnd => exact goesOn s.warmUpEnd_keepsShutter
  | ballastFault => exact goesOn s.ballastEvent_keepsShutter
  | ballastFaultInactive => exact goesOn (s.setBallast_keepsShutter false)
  | exitTransferStart => exact goesOn s.exitGrant_keepsShutter
  | exitTransferEnd => exact goesOn s.exitEnd_keepsShutter
  | emergencyStopRelease | frameDiscard | rxGapTimeout | hostTxDone | benchTxDone | benchSilenceExpiry | storeGrant
  | loadArrival | loadEntryClear | moveBegin | sourceCleared | carrierLifted | carrierSetBack | doneCarrierLifted
  | benchMoveStart | positionerArrival | inspectPositionTimeout | homeReached | homeTimeout | programStart | seekEnd
  | leadTimerExpiry | valveCloseTimer | motionEnd | valveFault | gantryTimeout | gantryHaltReport | starveLimit =>
    exact GoesOnWithin.leadsToShutterLaw (exec_goesOnWithin s _ (fun _ h => nomatch h) (fun h => nomatch h) fun h => nomatch h)
      rfl
  | identify | lineStatus | lineModeSet | resume | lineConfig | lineClear | faultRead | faultAck | admitCarrier | remove
  | markClear | carrierRead | traceTake | holdPlace | holdRead | holdClaim | holdUnclaim | instructionPost | findingPost
  | findingRead | benchList | holdDispose | cellHome | cellAbort | cellClear | headClear | lampSet | storeRead | storeWrite
  | recipeCheck | slotList => exact goesOn (s.take_keepsShutter _ _ _)

theorem step_keepsShutter {s t : State} (e : step s = .next t) : KeepsShutter s t := by
  unfold step at e
  split at e
  · have popped (rest : List Instr) : KeepsShutter s { s with pending := rest } := .of_ctc rfl rfl
    exact (popped _).trans (exec_leadsToShutterLaw _ _ t e)
  · cases e
    exact (s.atTime_keeps _).keepsShutter rfl

/-- Settles O8: the law at reset, that every step keeps it, and the irradiance used for dose. -/
theorem shutterFollowsLampAndMode : Obligations.ShutterFollowsLampAndMode := by
  refine ⟨?reset, fun s t law e => step_keepsShutter e law, fun s => rfl⟩
  case reset => simp [State.reset, Ctc.reset]

end Sys2Proof.Machine
end

section
/-! PROOF. The end of the warm-up and the ballast fault, with the whole next state (R115, R116, R118). -/

namespace Sys2Proof.Machine

/-- The tunnel with its lamp set and its shutter open but in STOP. -/
def State.litLamp (s : State) (z : Lamp) : State :=
  { s with ctc := { s.ctc with lamp := z, shutterOpen := decide (s.lmf.mode ≠ .stop) } }

theorem State.lampTo_ready (s : State) (z : Lamp) (why : LampCause) : (s.setLamp z).lampTo .ready why =
    (s.litLamp { z with state := .ready, count := 0 }).queueReport (.lampState .ready why s.ctc.measured) := rfl

theorem State.lampTo_low (s : State) (z : Lamp) (why : LampCause) : (s.setLamp z).lampTo .low why =
    ((s.litLamp { z with state := .low, count := 0 }).queueReport (.lampState .low why s.ctc.measured)).noteFault
      .lampLow .ctc {} := rfl

/-- A lamp that warms, at its timer's end. -/
theorem State.warmUpEnd_of_warming {s : State} {t : Timer} (hs : s.ctc.lamp.state = .warming)
    (ht : s.ctc.lamp.warmUp = some t) :
    s.warmUpEnd = ((s.expire t).setLamp { s.ctc.lamp with warmUp := none }).lampTo
      (if s.ctc.measured < s.rsc.live.lampMin then .low else .ready) .warmUpEnd := by
  have ctc : (s.expire t).ctc = s.ctc := (s.expire_keeps t).ctc rfl
  have rsc : (s.expire t).rsc = s.rsc := (s.expire_keeps t).rsc rfl
  simp only [State.warmUpEnd, hs, ht, State.setLamp, ctc, rsc]

theorem State.ballastEvent_of_active {s : State} (hs : s.ctc.lamp.ballastFault = true) : s.ballastEvent = s :=
  if_pos hs

theorem State.ballastEvent_of_inactive {s : State} (hs : s.ctc.lamp.ballastFault = false) :
    s.ballastEvent = (s.setBallast true).takeBallastFault :=
  if_neg (by simp [hs])

/-- Settles O57, by the lamp's state. -/
theorem lampWarmsUpAndFaults : Obligations.LampWarmsUpAndFaults := by
  intro s
  refine ⟨fun t hs ht => ?warm, fun hs => ?already, fun hs => ⟨fun fault => ?fault, fun other => ?takes⟩⟩
  case warm =>
    have measured : (s.expire t).ctc.measured = s.ctc.measured := congrArg Ctc.measured ((s.expire_keeps t).ctc rfl)
    have mode : (s.expire t).lmf.mode = s.lmf.mode := (s.expire_keeps t).mode rfl
    have ends := State.warmUpEnd_of_warming hs ht
    refine ⟨fun below => ?_, fun enough => ?_⟩
    · rw [if_pos below, State.lampTo_low, State.litLamp, measured, mode] at ends
      exact State.goesOn_congr ends
    · rw [if_neg (Nat.not_lt.mpr enough), State.lampTo_ready, State.litLamp, measured, mode] at ends
      exact State.goesOn_congr ends
  case already => exact State.goesOn_congr (State.ballastEvent_of_active hs)
  case fault =>
    have kept : (s.setBallast true).takeBallastFault = s.setBallast true := if_pos fault
    exact State.goesOn_congr ((State.ballastEvent_of_inactive hs).trans kept)
  case takes =>
    exact State.goesOn_congr ((State.ballastEvent_of_inactive hs).trans
      (State.takeBallastFault_faults (s := s.setBallast true) other))

end Sys2Proof.Machine
end

section
/-! SUPPORT. What a walk over records does to each of them, as the pulses and the samples of the belts make it (R114, R130,
R131). -/

namespace Sys2Proof.Machine

/-- The state with another Carrier Table. -/
def State.withTable (s : State) (v : Vector (Option CarrierRecord) 24) : State := { s with ltk := { s.ltk with table := v } }

theorem State.modRec_withTable (s : State) (i : RecIx) (f : CarrierRecord → CarrierRecord) :
    ∃ v, s.modRec i f = s.withTable v := by
  unfold State.modRec
  split
  · exact ⟨_, rfl⟩
  · exact ⟨s.ltk.table, rfl⟩

theorem State.modRec_rec? (s : State) (i j : RecIx) (f : CarrierRecord → CarrierRecord) :
    (s.modRec i f).rec? j = if j = i then (s.rec? j).map f else s.rec? j := by
  rcases hr : s.rec? i with _ | r
  · have kept : s.modRec i f = s := by simp [State.modRec, hr]
    rw [kept]
    split
    · subst j; simp [hr]
    · rfl
  · rw [State.modRec_eq hr, State.setRec_rec]
    split
    · subst j; simp [hr]
    · rfl

/-- A write that only a live record takes, as a write to any record (R5). -/
theorem State.modLive_eq_modRec (s : State) (i : RecIx) (f : CarrierRecord → CarrierRecord) :
    s.modLive i f = s.modRec i fun r => if r.status.isLive = true then f r else r := by
  rcases hr : s.rec? i with _ | r
  · simp [State.modLive, State.live?, State.modRec, hr]
  · rw [State.modRec_eq hr]
    by_cases hl : r.status.isLive = true
    · rw [State.modLive_eq hr hl, if_pos hl]
    · rw [if_neg hl, State.setRec_self hr]
      simp [State.modLive, State.live?, hr, hl]

/-- A walk over records changes the Carrier Table alone. -/
theorem State.foldl_modRec_withTable (f : RecIx → CarrierRecord → CarrierRecord) (is : List RecIx) (s : State) :
    ∃ v, is.foldl (fun t i => t.modRec i (f i)) s = s.withTable v := by
  induction is generalizing s with
  | nil => exact ⟨s.ltk.table, rfl⟩
  | cons i is ih =>
    obtain ⟨v, hv⟩ := s.modRec_withTable i (f i)
    obtain ⟨w, hw⟩ := ih (s.modRec i (f i))
    exact ⟨w, by rw [List.foldl_cons, hw, hv]; rfl⟩

/-- A walk that meets no record twice does to each that it meets its own step. -/
theorem State.foldl_modRec_rec? (f : RecIx → CarrierRecord → CarrierRecord) {is : List RecIx} (once : is.Nodup) (s : State)
    (j : RecIx) : (is.foldl (fun t i => t.modRec i (f i)) s).rec? j =
      if j ∈ is then (s.rec? j).map (f j) else s.rec? j := by
  induction is generalizing s with
  | nil => rfl
  | cons i is ih =>
    obtain ⟨fresh, once⟩ := List.nodup_cons.1 once
    rw [List.foldl_cons, ih once, State.modRec_rec?]
    by_cases e : j = i
    · subst e
      simp [fresh]
    · simp [e]

end Sys2Proof.Machine
end

section
/-! PROOF. Entries into the lanes and encoder pulses (R111 to R114). -/

namespace Sys2Proof.Machine

/-! ## ENTRY_TRANSFER_START (R111) -/

theorem State.entryInFlight_eq_false {s : State} (h : ∀ m ∈ s.ltk.moves, onLane m.dst = false) : s.entryInFlight = false :=
  List.any_eq_false.2 fun m hm => by simp [h m hm]

theorem Lane.spaced_of_clear {v : Lane} (h : ∀ mm, v.lastEntry = some mm → 350 ≤ mm) : v.spaced = true := by
  unfold Lane.spaced
  split
  · exact decide_eq_true (h _ ‹_›)
  · rfl

/-- Of a plan's targets, the lanes are open in RUN and in PAUSE (R2). -/
theorem LineMode.allows_lane {m : LineMode} (h : m = .run ∨ m = .pause) (l : LaneId) : m.allows (lanePlace l) = true := by
  cases l with
  | lane1 => rcases h with rfl | rfl <;> rfl
  | lane2 => rcases h with rfl | rfl <;> rfl

theorem State.entryReady_eq_none {s : State} (h : s.lmf.mode = .stop ∨ s.ctc.lamp.state ≠ .ready ∨ s.ctc.wetQueue = []) :
    s.entryReady = none := by
  unfold State.entryReady
  split
  · rfl
  · rename_i hq
    split
    · rfl
    · split
      · rfl
      · refine if_neg fun ⟨_, lamp, _, _, mode, _⟩ => ?_
        rcases h with h | h | h
        · rw [h] at mode
          exact absurd mode (by simp [LineMode.allows])
        · exact h lamp
        · exact absurd (hq.symm.trans h) (by simp)

/-! ## LANE_ENTRY_END (R112) -/

/-- The open time of a record has been exceeded as it enters (R112 step 3). -/
def LateByRule (s : State) (i : RecIx) (r : CarrierRecord) : Prop :=
  ∃ t p, r.sprayEnd = some t ∧ s.recipeOf i = some p ∧ p.material.openTime * 1000 < (s.now - t).toNat

theorem State.openTimeOver_iff (s : State) (i : RecIx) (r : CarrierRecord) :
    s.openTimeOver i r = true ↔ LateByRule s i r := by
  unfold State.openTimeOver State.sinceSpray State.since LateByRule
  rcases r.sprayEnd with _ | t
  · simp
  · rcases s.recipeOf i with _ | p <;> simp

/-- A record as it joins a lane (R112 steps 1 and 2). -/
def CarrierRecord.joined (r : CarrierRecord) (l : LaneId) : CarrierRecord :=
  { r with position := .standing (lanePlace l), posInLane := some 0, plan := r.plan.tail }

section
variable {s : State} {i : RecIx} {r : CarrierRecord} (hr : s.rec? i = some r) (l : LaneId)
include hr

theorem State.joinLane_rec? : (s.joinLane l i).rec? i = some (r.joined l) := by
  unfold State.joinLane
  rw [State.rec?_of_ltk (State.setLane_ltk _ _ _), State.modRec_eq (show (s.dropMove i).rec? i = some r from hr)]
  exact State.setRec_rec_self _ _ _

theorem State.joinLane_lane :
    (s.joinLane l i).lane l = { s.lane l with order := (s.lane l).order ++ [i], lastEntry := some 0 } := by
  unfold State.joinLane
  rw [State.modRec_eq (show (s.dropMove i).rec? i = some r from hr)]
  exact State.setLane_lane_self _ _ _

theorem State.joinLane_moves : (s.joinLane l i).ltk.moves = s.ltk.moves.filter fun m => decide (m.ix ≠ i) := by
  unfold State.joinLane
  rw [State.modRec_eq (show (s.dropMove i).rec? i = some r from hr), State.setLane_ltk]
  rfl

end

/-- A raise against a record leaves the moves in flight. -/
theorem State.raiseIf_moves (s : State) (b : Bool) (i : RecIx) (code : ReasonCode) :
    (s.raiseIf b i code).ltk.moves = s.ltk.moves := by
  unfold State.raiseIf State.raiseCode State.raiseReason
  split
  · split
    · rfl
    · split
      · simp
      · simp
  · rfl

/-- The record of a carrier that has entered its lane, with the hold part that the open time leaves (R112). -/
theorem State.enterLane_follows {s : State} {i : RecIx} {r : CarrierRecord} (hr : s.rec? i = some r)
    (hl : r.status.isLive = true) (l : LaneId) :
    (s.enterLane l i).lane l = { s.lane l with order := (s.lane l).order ++ [i], lastEntry := some 0 } ∧
      (s.enterLane l i).ltk.moves = s.ltk.moves.filter (fun m => decide (m.ix ≠ i)) ∧
      ∃ h, (s.enterLane l i).rec? i = some { r.joined l with hold := h, entryTime := some s.now } ∧
        (¬ LateByRule s i r → h = r.hold) ∧ Raised (s.openTimeOver i r) .openTime r.hold h := by
  let joined := s.joinLane l i
  let late := s.openTimeOver i r
  obtain ⟨h, hrec, raised⟩ := State.raiseIf_raised (State.joinLane_rec? hr l) (r := r.joined l) hl late .openTime
  have entered : s.enterLane l i = ((joined.raiseIf late i .openTime).setRec i
      (some { r.joined l with hold := h, entryTime := some s.now })).queueReport (.tunnelEntry
        { ix := i, pass := r.pass, lane := l, entryTime := s.now, sinceSpray := s.sinceSpray r, openTimeRaised := late }) := by
    unfold State.enterLane
    rw [State.live?_eq_some.2 ⟨hr, hl⟩]
    dsimp only
    rw [State.modRec_eq hrec]
  refine ⟨?lane, ?moves, h, ?record, ?inTime, raised⟩
  case lane =>
    have ctc : (s.enterLane l i).ctc = joined.ctc := by
      rw [entered, State.queueReport_ctc, State.setRec_ctc]
      exact (State.raiseIf_keeps _ _ _ _).ctc rfl
    rw [State.lane_of_ctc ctc]
    exact State.joinLane_lane hr l
  case moves =>
    rw [entered, State.queueReport_ltk, State.setRec_moves, State.raiseIf_moves]
    exact State.joinLane_moves hr l
  case record => rw [entered, State.queueReport_rec?, State.setRec_rec_self]
  case inTime =>
    intro early
    have no : late = false := by simpa [late] using mt (s.openTimeOver_iff i r).1 early
    rw [no] at hrec
    have kept := (State.joinLane_rec? hr l).symm.trans hrec
    exact (congrArg CarrierRecord.hold (Option.some.inj kept)).symm

/-- The move that ends at an entry sensor is the first in flight to its lane. -/
theorem State.laneEntryEnd_of_move {s : State} {l : LaneId} {pre post : List Move} {m : Move}
    (hm : s.ltk.moves = pre ++ m :: post) (hd : m.dst = lanePlace l) (hp : ∀ k ∈ pre, k.dst ≠ lanePlace l) :
    s.laneEntryEnd l = s.enterLane l m.ix := by
  have found : s.ltk.moves.find? (fun k => decide (k.dst = lanePlace l)) = some m := by
    rw [hm, List.find?_eq_some_iff_append]
    exact ⟨by simpa using hd, pre, post, rfl, fun k hk => by simpa using hp k hk⟩
  unfold State.laneEntryEnd
  rw [found]

/-! ## ENCODER_PULSE (R114, R113) -/

section
variable (s : State) (l : LaneId)

theorem State.advanceLane_eq : ∃ v, s.advanceLane l =
    (s.withTable v).setLane l { s.lane l with lastEntry := (s.lane l).lastEntry.map fun mm => min (mm + 1) 4800 } := by
  obtain ⟨v, hv⟩ := State.foldl_modRec_withTable (fun _ => advance) (s.lane l).order s
  refine ⟨v, ?_⟩
  unfold State.advanceLane
  dsimp only
  rw [hv]
  cases l <;> rfl

theorem State.advanceLane_lane : (s.advanceLane l).lane l =
    { s.lane l with lastEntry := (s.lane l).lastEntry.map fun mm => min (mm + 1) 4800 } := by
  obtain ⟨v, hv⟩ := s.advanceLane_eq l
  rw [hv, State.setLane_lane_self]

theorem State.advanceLane_lmf : (s.advanceLane l).lmf = s.lmf := by
  obtain ⟨v, hv⟩ := s.advanceLane_eq l
  rw [hv]
  cases l <;> rfl

theorem State.advanceLane_liu : (s.advanceLane l).liu = s.liu := by
  obtain ⟨v, hv⟩ := s.advanceLane_eq l
  rw [hv]
  cases l <;> rfl

theorem State.advanceLane_exitHolder : (s.advanceLane l).ctc.exitHolder = s.ctc.exitHolder := by
  obtain ⟨v, hv⟩ := s.advanceLane_eq l
  rw [hv]
  cases l <;> rfl

end

/-- What an encoder pulse of a lane moves and what it leaves (R114). -/
structure PulseMoves (s : State) (l : LaneId) (u : State) : Prop where
  records : ∀ i, u.rec? i = if i ∈ (s.lane l).order then (s.rec? i).map advance else s.rec? i
  lastEntry : (u.lane l).lastEntry = (s.lane l).lastEntry.map fun v => min (v + 1) 4800
  order : (u.lane l).order = (s.lane l).order
  rest : u.rsc = s.rsc ∧ u.ine = s.ine ∧ u.scc = s.scc ∧ u.hmg = s.hmg

theorem State.advanceLane_pulseMoves {s : State} {l : LaneId} (once : (s.lane l).order.Nodup) :
    PulseMoves s l (s.advanceLane l) where
  records i := by
    unfold State.advanceLane
    rw [State.rec?_of_ltk (State.setLane_ltk _ _ _)]
    exact State.foldl_modRec_rec? (fun _ => advance) once s i
  lastEntry := by rw [State.advanceLane_lane]
  order := by rw [State.advanceLane_lane]
  rest :=
    have kept := s.advanceLane_keeps l
    ⟨kept.rsc rfl, kept.ine rfl, kept.scc rfl, kept.hmg rfl⟩

/-- A state whose records are those of a pulse and whose lane has its order and its last-entry position. -/
theorem PulseMoves.of_keeps {s t u : State} {l : LaneId} (h : PulseMoves s l t) (k : Keeps { ctc := true, rep := true } t u)
    (horder : (u.lane l).order = (t.lane l).order) (hlast : (u.lane l).lastEntry = (t.lane l).lastEntry) :
    PulseMoves s l u where
  records i := (State.rec?_of_ltk (k.ltk rfl) i).trans (h.records i)
  lastEntry := hlast.trans h.lastEntry
  order := horder.trans h.order
  rest :=
    have ⟨hrsc, hine, hscc, hhmg⟩ := h.rest
    ⟨(k.rsc rfl).trans hrsc, (k.ine rfl).trans hine, (k.scc rfl).trans hscc, (k.hmg rfl).trans hhmg⟩

/-- The position in lane to which a pulse takes a record: one further, when it has one. -/
def State.mmNext (s : State) (i : RecIx) : Nat :=
  s.mmOf i + (if ((s.rec? i).bind CarrierRecord.posInLane).isSome then 1 else 0)

theorem PulseMoves.mmOf {s u : State} {l : LaneId} (h : PulseMoves s l u) {i : RecIx} (hi : i ∈ (s.lane l).order) :
    u.mmOf i = s.mmNext i := by
  unfold State.mmNext State.mmOf
  rw [h.records i, if_pos hi]
  rcases s.rec? i with _ | r
  · rfl
  · rcases hp : r.posInLane with _ | mm <;> simp [advance, hp]

theorem PulseMoves.frontArrives_iff {s u : State} {l : LaneId} (h : PulseMoves s l u) :
    u.frontArrives l = true ↔ ∃ i rest, (s.lane l).order = i :: rest ∧ s.mmNext i = 4800 := by
  unfold State.frontArrives
  rw [h.order]
  rcases horder : (s.lane l).order with _ | ⟨i, rest⟩
  · simp
  · dsimp only
    rw [h.mmOf (by rw [horder]; exact List.mem_cons_self), decide_eq_true_iff]
    simp [Config.exitMm]

/-- While the exit is held the arbiter grants no front (R124). -/
theorem State.arbiterChoice_of_held {s : State} (h : s.ctc.exitHolder.isSome = true) : s.arbiterChoice = none :=
  if_pos (by simp [h])

/-- A lane derived again with a front at the exit (R113). -/
theorem State.laneStateNow_of_front {s : State} {l : LaneId} (h : s.frontAtExit l = true) :
    s.laneStateNow l = if s.lmf.mode = .run ∨ s.lmf.mode = .pause then .blocked else .stopped := by
  unfold State.laneStateNow
  rw [h]
  rcases s.lmf.mode with _ | _ | _ | _ <;> rfl

theorem State.deriveLane_lane (s : State) (l : LaneId) (cause : LaneCause) :
    (s.deriveLane l cause).lane l = ({ s.lane l with state := s.laneStateNow l } : Lane).driven := by
  rw [State.lane_of_ctc (s.deriveLane_ctc l cause), State.setLane_lane_self]

/-- A front that arrives while the exit is held waits (R114). -/
theorem State.exitArrival_waits {s : State} {l : LaneId} (held : s.ctc.exitHolder.isSome = true) :
    s.exitArrival l = (s.setLane l { s.lane l with arrival := some s.now }).deriveLane l .exitWait := by
  unfold State.exitArrival
  dsimp only
  rw [State.arbiterChoice_of_held (by rwa [State.setLane_exitHolder]), if_neg (by simp)]

section
variable {s : State} {l : LaneId} (once : (s.lane l).order.Nodup)
include once

theorem State.encoderPulse_of_noArrival (h : ∀ i rest, (s.lane l).order = i :: rest → s.mmNext i ≠ 4800) :
    s.encoderPulse l = s.advanceLane l := by
  refine if_neg fun arrives => ?_
  obtain ⟨i, rest, horder, hmm⟩ := (State.advanceLane_pulseMoves once).frontArrives_iff.1 arrives
  exact h i rest horder hmm

/-- The pulse that takes a front to the exit while that is held (R114, R113). -/
theorem State.encoderPulse_waits {i : RecIx} {rest : List RecIx} (horder : (s.lane l).order = i :: rest)
    (hmm : s.mmNext i = 4800) (held : s.ctc.exitHolder.isSome = true) :
    PulseMoves s l (s.encoderPulse l) ∧ ((s.encoderPulse l).lane l).arrival = some s.now ∧
      ((s.encoderPulse l).lane l).state = if s.lmf.mode = .run ∨ s.lmf.mode = .pause then .blocked else .stopped := by
  let t := s.advanceLane l
  let waits := t.setLane l { t.lane l with arrival := some t.now }
  have moved := State.advanceLane_pulseMoves once
  have arrives : t.frontArrives l = true := moved.frontArrives_iff.2 ⟨i, rest, horder, hmm⟩
  have pulse : s.encoderPulse l = waits.deriveLane l .exitWait :=
    (if_pos arrives).trans (State.exitArrival_waits (by rwa [State.advanceLane_exitHolder]))
  have lane : waits.lane l = { t.lane l with arrival := some t.now } := State.setLane_lane_self _ _ _
  have derived := waits.deriveLane_lane l .exitWait
  have front : waits.frontAtExit l = true := by
    have there : waits.mmOf i = s.mmNext i := by
      rw [← moved.mmOf (by rw [horder]; exact List.mem_cons_self)]
      simp [State.mmOf, waits, t, State.rec?]
    unfold State.frontAtExit
    rw [lane, moved.order, horder]
    dsimp only
    rw [there, hmm]
    rfl
  have lmf : t.lmf = s.lmf := s.advanceLane_lmf l
  rw [pulse]
  refine ⟨moved.of_keeps ?_ (by rw [derived, lane]; rfl) (by rw [derived, lane]; rfl), ?_, ?_⟩
  · exact ((t.setLane_keeps l { t.lane l with arrival := some t.now } fun h => h).mono rfl).trans (waits.deriveLane_keeps l .exitWait)
  · rw [derived, lane, Lane.driven_arrival, State.now, lmf]
    rfl
  · rw [derived, Lane.driven_state, State.laneStateNow_of_front front, State.setLane_lmf, lmf]

end

/-! ## The statement -/

/-- Settles O55: the entry transfer by its conditions, its end, and the pulse by whether the front arrives. -/
theorem carriersEnterAndAdvance : Obligations.CarriersEnterAndAdvance := by
  refine ⟨fun s i r l hr hl => ⟨?starts, ?stays, ?enters⟩, fun s l once => ⟨?goesOn, ?waits⟩⟩
  case starts =>
    intro rest hq hlane running lamp clear alone mode tag move table queue
    have ready : s.entryReady = some (i, l) := by
      unfold State.entryReady
      rw [hq]
      dsimp only
      rw [State.live?_eq_some.2 ⟨hr, hl⟩]
      dsimp only
      rw [hlane]
      exact if_pos ⟨running, lamp, Lane.spaced_of_clear clear, by simp [State.entryInFlight_eq_false alone],
        LineMode.allows_lane mode l, tag⟩
    refine State.goesOn_congr ?_
    unfold State.entryStart
    rw [ready]
    dsimp only [State.beginMove]
    rw [State.modRec_eq (show (s.leaveWetQueue i).rec? i = some r from hr), State.leaveWetQueue, hq]
    rfl
  case stays =>
    intro h
    refine State.goesOn_congr ?_
    unfold State.entryStart
    rw [State.entryReady_eq_none h]
  case enters =>
    rintro pre m post hm hd rfl hpre late
    obtain ⟨lane, moves, h, hrec, inTime, raised⟩ := State.enterLane_follows hr hl l
    have kept := s.enterLane_keeps l m.ix
    refine ⟨_, State.goesOn_congr (State.laneEntryEnd_of_move hm hd hpre), lane, moves,
      ⟨_, hrec, rfl, rfl, rfl, rfl, inTime, fun isLate => ?_⟩, kept.rsc rfl, kept.ine rfl, kept.scc rfl, kept.hmg rfl,
      kept.mode rfl⟩
    have exceeded := (s.openTimeOver_iff m.ix r).2 isLate
    obtain ⟨g, hg⟩ := Option.isSome_iff_exists.1 (raised.stands (.inr exceeded))
    refine ⟨g, hg, fun room => ?_⟩
    have few : (holdCodes r.hold).length < 8 := by
      rcases hh : r.hold with _ | q
      · decide
      · simpa [holdCodes] using room q hh
    obtain ⟨g', hg', found⟩ := mem_holdCodes.1 (raised.listed exceeded few)
    cases hg.symm.trans hg'
    exact found
  case goesOn =>
    intro h
    have moved := State.advanceLane_pulseMoves once
    exact ⟨_, State.goesOn_congr (State.encoderPulse_of_noArrival once h),
      ⟨moved.records, moved.lastEntry, moved.order, moved.rest⟩, by rw [State.advanceLane_lane], s.advanceLane_liu l⟩
  case waits =>
    intro i rest horder hmm held
    obtain ⟨moved, arrival, state⟩ := State.encoderPulse_waits once horder hmm held
    exact ⟨_, State.goesOn_congr rfl, ⟨moved.records, moved.lastEntry, moved.order, moved.rest⟩, arrival, state⟩

end Sys2Proof.Machine
end

section
/-! PROOF. The exit transfer: its target, the arbiter's grant, and what it writes (R109, R113, R123 to R125, R136). -/

namespace Sys2Proof.Machine

/-! ## The target of a front (R123) -/

/-- Every front has a record and a recipe. -/
def FrontsKnown (s : State) : Prop :=
  ∀ l i rest, (s.lane l).order = i :: rest → (s.rec? i).isSome = true ∧ (s.recipeOf i).isSome = true

section
variable {s : State} {i : RecIx} {r : CarrierRecord} {p : Recipe} (hr : s.rec? i = some r) (hp : s.recipeOf i = some p)
include hr hp

theorem State.failures_eq : s.failures i = cureFailures p.cure r := by
  unfold State.failures
  rw [hp, hr]

theorem State.goodFront_iff : s.goodFront i = true ↔ GoodFront s i := by
  have good : s.goodFront i = true ↔ r.hold = none ∧ cureFailures p.cure r = [] := by
    unfold State.goodFront State.holdOf
    rw [State.failures_eq hr hp, hr, Bool.and_eq_true, Option.isNone_iff_eq_none, List.isEmpty_iff]
  rw [good]
  refine ⟨fun ⟨hold, fails⟩ => ⟨r, p, hr, hp, hold, fails⟩, fun ⟨r', p', hr', hp', hold, fails⟩ => ?_⟩
  cases hr.symm.trans hr'
  cases hp.symm.trans hp'
  exact ⟨hold, fails⟩

/-- The model's target is that of R123. -/
theorem State.exitTarget_iff (target : Place) : s.exitTarget i = target ↔ ExitTarget s i target := by
  unfold State.exitTarget ExitTarget
  by_cases good : GoodFront s i
  · rw [if_pos ((State.goodFront_iff hr hp).2 good)]
    simp [good, eq_comm]
  · rw [if_neg fun h => good ((State.goodFront_iff hr hp).1 h)]
    simp only [good, false_implies, true_and, not_false_eq_true, true_implies, ← State.lowestFreeBench_iff,
      State.benchForExit, List.isEmpty_iff]
    by_cases queue : s.hmg.queue = []
    · rcases low : s.lowestFreeBench with _ | n
      · simp [queue, eq_comm]
      · simp [queue, eq_comm]
    · simp [queue, eq_comm]

end

/-! ## The arbiter (R124) -/

theorem LaneId.forall_iff {p : LaneId → Prop} : (∀ l, p l) ↔ p .lane1 ∧ p .lane2 :=
  ⟨fun h => ⟨h _, h _⟩, fun ⟨h1, h2⟩ l => by
    cases l with
    | lane1 => exact h1
    | lane2 => exact h2⟩

section
variable {s : State} (known : FrontsKnown s)
include known

/-- A front waits with its target available, as R124 says. -/
theorem State.readyFront_iff (l : LaneId) (t : LineTime) : (∃ i, s.readyFront l = some (i, t)) ↔ ReadyFront s l t := by
  unfold State.readyFront ReadyFront
  rcases horder : (s.lane l).order with _ | ⟨i, rest⟩
  · simp
  · obtain ⟨hasRec, hasRecipe⟩ := known l i rest horder
    obtain ⟨r, hr⟩ := Option.isSome_iff_exists.1 hasRec
    obtain ⟨p, hp⟩ := Option.isSome_iff_exists.1 hasRecipe
    rcases harrival : (s.lane l).arrival with _ | u
    · simp
    · constructor
      · rintro ⟨j, hj⟩
        obtain ⟨free, e⟩ := Option.ite_none_right_eq_some.1 hj
        cases e
        exact ⟨i, rest, _, rfl, rfl, (State.exitTarget_iff hr hp _).1 rfl, (s.isFree_iff _).1 free⟩
      · rintro ⟨j, rest', target, e, e', htarget, free⟩
        cases e
        cases e'
        have aim := (State.exitTarget_iff hr hp target).2 htarget
        exact ⟨i, if_pos (by rw [aim]; exact (s.isFree_iff _).2 free)⟩

theorem State.readyFront_eq_none {l : LaneId} (h : s.readyFront l = none) (t : LineTime) : ¬ ReadyFront s l t := by
  intro ready
  obtain ⟨i, hi⟩ := (State.readyFront_iff known l t).2 ready
  exact absurd (h.symm.trans hi) (by simp)

theorem State.readyFront_eq_some {l : LaneId} {i : RecIx} {t : LineTime} (h : s.readyFront l = some (i, t)) (u : LineTime) :
    ReadyFront s l u ↔ u = t := by
  rw [← State.readyFront_iff known, h]
  simp [eq_comm]

/-- A lane is granted as R124 says when it is the arbiter's choice. -/
theorem State.arbiterChoice_iff (l : LaneId) : s.arbiterChoice = some l ↔ ∃ t, GrantedByRule s l t := by
  unfold State.arbiterChoice GrantedByRule
  by_cases held : s.ctc.exitHolder = none
  case neg => simp [held, Option.isSome_iff_ne_none]
  by_cases stop : s.lmf.mode = .stop
  case pos => simp [stop]
  rw [if_neg (by simp [held, stop])]
  have since (v : LineTime) : (s.now - v).toNat = s.since v := rfl
  simp only [held, ne_eq, stop, not_false_eq_true, true_and, since]
  simp only [LaneId.forall_iff]
  rcases h1 : s.readyFront .lane1 with _ | ⟨i, t⟩ <;> rcases h2 : s.readyFront .lane2 with _ | ⟨j, u⟩
  · have r1 := State.readyFront_eq_none known h1
    have r2 := State.readyFront_eq_none known h2
    cases l with
    | lane1 => simp [r1]
    | lane2 => simp [r2]
  · have r1 := State.readyFront_eq_none known h1
    have r2 := State.readyFront_eq_some known h2
    cases l with
    | lane1 => simp [r1]
    | lane2 => simp [r1, r2]
  · have r1 := State.readyFront_eq_some known h1
    have r2 := State.readyFront_eq_none known h2
    cases l with
    | lane1 => simp [r1, r2]
    | lane2 => simp [r2]
  · have r1 := State.readyFront_eq_some known h1
    have r2 := State.readyFront_eq_some known h2
    cases l with
    | lane1 => simp [r1, r2, Nat.le_iff_lt_or_eq]
    | lane2 => simp [r1, r2]

end
/-! ## The reasons of the checks that fail (R136, R142) -/

theorem cureFailures_length (c : CureSpec) (r : CarrierRecord) : (cureFailures c r).length ≤ 5 := by
  have one (b : Prop) [Decidable b] (x : ReasonCode) : (if b then [x] else []).length ≤ 1 := by split <;> simp
  have h1 := one (r.cureUnknown = true) .cureUnknown
  have h2 := one (r.thermalDose < c.thermalTarget) .undercureThermal
  have h3 := one (r.uvDose < c.uvTarget) .undercureUv
  have h4 := one (c.thermalMax < r.thermalDose) .overcure
  have h5 := one (peakTooHigh c r = true) .overtemp
  simp only [cureFailures, List.length_append]
  omega

/-- The hold part that reasons raised in turn leave, said of the one before. -/
structure AllRaised (codes : List ReasonCode) (old new : Option Hold) : Prop where
  stands : old.isSome = true ∨ codes ≠ [] → new.isSome = true
  same : codes = [] → new = old
  kept : ∀ x ∈ holdCodes old, x ∈ holdCodes new
  listed : max (holdCodes old).length 1 + codes.length ≤ 8 → ∀ x ∈ codes, x ∈ holdCodes new

theorem State.raiseAll_raises (codes : List ReasonCode) : ∀ {s : State} {i : RecIx} {r : CarrierRecord},
    s.rec? i = some r → r.status.isLive = true →
    ∃ h, (s.raiseAll i codes).rec? i = some { r with hold := h } ∧ AllRaised codes r.hold h := by
  induction codes with
  | nil => exact fun hr _ => ⟨_, hr, ⟨fun h => h.resolve_right (by simp), fun _ => rfl, fun _ h => h, fun _ => nofun⟩⟩
  | cons c cs ih =>
    intro s i r hr hl
    obtain ⟨h₁, hrec₁, raised⟩ := State.raiseIf_raised hr hl true c
    obtain ⟨h, hrec, rest⟩ := ih hrec₁ hl
    refine ⟨h, hrec, fun _ => rest.stands (.inl (raised.stands (.inr rfl))), nofun,
      fun x hx => rest.kept x (raised.kept x hx), fun room x hx => ?_⟩
    have grown := raised.length
    rw [List.length_cons] at room
    rcases List.mem_cons.1 hx with rfl | hx
    · exact rest.kept _ (raised.listed rfl (by omega))
    · exact rest.listed (by dsimp only; omega) x hx

theorem State.raiseAll_moves (codes : List ReasonCode) (i : RecIx) :
    ∀ s : State, (s.raiseAll i codes).ltk.moves = s.ltk.moves := by
  induction codes with
  | nil => exact fun _ => rfl
  | cons c cs ih => exact fun s => (ih (s.raiseCode i c)).trans (s.raiseIf_moves true i c)

/-! ## Lanes after an unbinding (R109, R113) -/

theorem Lane.driven_beltByRule (v : Lane) : BeltByRule v.driven := by
  unfold BeltByRule
  rw [Lane.driven_belt, Lane.driven_state, Lane.driven_cls]
  rcases v.state with _ | _ | _
  case running =>
    match v.cls with
    | none => rfl
    | some 0 => rfl
    | some 1 => rfl
    | some 2 => rfl
    | some 3 => rfl
    | some (_ + 4) => rfl
  all_goals rfl

/-- What the bindings of carriers leave of a lane: its front's exit arrival and the rule of its belt. -/
structure LaneKeeps (v w : Lane) : Prop where
  arrival : w.arrival = v.arrival
  belt : BeltByRule v → BeltByRule w

theorem LaneKeeps.refl (v : Lane) : LaneKeeps v v := ⟨rfl, id⟩

theorem LaneKeeps.trans {u v w : Lane} (h : LaneKeeps u v) (k : LaneKeeps v w) : LaneKeeps u w :=
  ⟨k.arrival.trans h.arrival, k.belt ∘ h.belt⟩

theorem LaneKeeps.of_ctc {s t : State} (h : t.ctc = s.ctc) (l : LaneId) : LaneKeeps (s.lane l) (t.lane l) := by
  rw [State.lane_of_ctc h]
  exact .refl _

theorem State.setLane_laneKeeps (s : State) {k : LaneId} (v : Lane) (h : LaneKeeps (s.lane k) v) (l : LaneId) :
    LaneKeeps (s.lane l) ((s.setLane k v).lane l) := by
  rw [State.setLane_lane]
  split
  · subst l; exact h
  · exact .refl _

theorem State.setClass_laneKeeps (s : State) (k : LaneId) (c : Option Nat) (cause : LaneCause) (l : LaneId) :
    LaneKeeps (s.lane l) ((s.setClass k c cause).lane l) := by
  rw [State.lane_of_ctc (s.setClass_ctc k c cause)]
  exact s.setLane_laneKeeps ({ s.lane k with cls := c } : Lane).driven ⟨rfl, fun _ => Lane.driven_beltByRule _⟩ l

theorem State.retryBinding_laneKeeps (s : State) (l : LaneId) : LaneKeeps (s.lane l) (s.retryBinding.lane l) := by
  have bound (t : State) (w : WaitingBinding) (k : LaneId) : LaneKeeps (t.lane l) ((t.bindTo w k).lane l) := by
    unfold State.bindTo
    split
    · exact .refl _
    · let counted := t.setLane k { t.lane k with bound := (t.lane k).bound + 1 }
      have lanes := (t.setLane_laneKeeps (k := k) { t.lane k with bound := (t.lane k).bound + 1 } ⟨rfl, id⟩ l).trans
        (counted.setClass_laneKeeps k (some w.cls) .bound l)
      exact lanes.trans (.of_ctc (by rw [State.queueReport_ctc, State.setRec_ctc]) l)
  unfold State.retryBinding State.tryBind
  split
  · have waits (v : Option WaitingBinding) : LaneKeeps (s.lane l) ((s.setWaiting v).lane l) := by
      cases l with
      | lane1 => exact .refl _
      | lane2 => exact .refl _
    split
    · exact (waits none).trans (bound _ _ _)
    · exact waits _
  · exact .refl _

/-- The lane of a record that has been unbound: its belt driven by the rule, its front's exit arrival gone when the record
was the front (R109, R113). -/
theorem State.unbind_lane {s : State} {i : RecIx} {r : CarrierRecord} {l : LaneId} (hr : s.rec? i = some r)
    (hl : r.lane = some l) (cause : LaneCause) : BeltByRule ((s.unbind i cause).lane l) ∧
      ((s.unbind i cause).lane l).arrival = ((s.lane l).without i).arrival := by
  let off := s.offOrder i l
  have lane : off.lane l = (s.lane l).without i := by
    simp only [off, State.offOrder]
    rw [State.modRec_eq (by simpa using hr)]
    exact State.setLane_lane_self _ _ _
  let classed := if (off.lane l).bound = 0 then off.setClass l none cause else off
  have kept : LaneKeeps (off.lane l) (classed.lane l) := by
    simp only [classed]
    split
    · exact State.setClass_laneKeeps _ _ _ _ _
    · exact .refl _
  have retried := (classed.deriveLane l cause).retryBinding_laneKeeps l
  rw [State.unbind_eq hr hl]
  have derived := classed.deriveLane_lane l cause
  refine ⟨retried.belt (derived ▸ Lane.driven_beltByRule _), retried.arrival.trans ?_⟩
  rw [derived, Lane.driven_arrival, ← lane]
  exact kept.arrival

/-! ## EXIT_TRANSFER_START (R125) -/

/-- The tunnel as a front leaves the order of its lane: the arbiter without it, the exit resource its own (R125 step 1). -/
def State.frontOut (s : State) (l : LaneId) (i : RecIx) (rest : List RecIx) : State :=
  let t := s.setLane l { s.lane l with order := rest, arrival := none }
  { t with ctc := { t.ctc with exitHolder := some i } }

theorem State.frontOut_lane (s : State) (l : LaneId) (i : RecIx) (rest : List RecIx) :
    (s.frontOut l i rest).lane l = { s.lane l with order := rest, arrival := none } := by
  cases l <;> rfl

@[simp] theorem State.frontOut_ltk (s : State) (l : LaneId) (i : RecIx) (rest : List RecIx) :
    (s.frontOut l i rest).ltk = s.ltk := State.setLane_ltk _ _ _

@[simp] theorem State.frontOut_waiting (s : State) (l : LaneId) (i : RecIx) (rest : List RecIx) :
    (s.frontOut l i rest).ctc.waiting = s.ctc.waiting := State.setLane_waiting _ _ _

/-- From `s` to `t` a front has left its lane's order for a target, with its record as it stands (R125 steps 1 to 4). -/
structure Leaves (s : State) (l : LaneId) (i : RecIx) (rest : List RecIx) (target : Place) (r : CarrierRecord) (t : State) :
    Prop where
  record : t.rec? i = some r
  ctc : t.ctc = (s.frontOut l i rest).ctc
  moves : t.ltk.moves =
    s.ltk.moves ++ [{ ix := i, src := lanePlace l, dst := target, drive := .driven { since := s.now, ms := 20000 } }]

section
variable {s t : State} {l : LaneId} {i : RecIx} {rest : List RecIx} {target : Place} {r : CarrierRecord}

theorem State.beginMove_leaves (hr : s.rec? i = some r) : Leaves s l i rest target
    { r with position := .inTransit (lanePlace l) target } ((s.frontOut l i rest).beginMove i (lanePlace l) target) := by
  have hr' : (s.frontOut l i rest).rec? i = some r := (State.rec?_of_ltk (s.frontOut_ltk l i rest) i).trans hr
  obtain ⟨⟨moves, table, -, -, ctc, -⟩, -⟩ :=
    (s.frontOut l i rest).beginMove_follows i r (lanePlace l) target hr'
  have now : (s.frontOut l i rest).now = s.now := congrArg Lmf.clock (State.setLane_lmf s l _)
  refine ⟨?_, ctc, by rw [moves, now, State.frontOut_ltk]⟩
  unfold State.rec?
  rw [table]
  exact Vector.getElem_set_self _

theorem Leaves.modRec (h : Leaves s l i rest target r t) (f : CarrierRecord → CarrierRecord) :
    Leaves s l i rest target (f r) (t.modRec i f) := by
  rw [State.modRec_eq h.record]
  exact ⟨State.setRec_rec_self _ _ _, h.ctc, h.moves⟩

theorem Leaves.raiseAll (h : Leaves s l i rest target r t) (hl : r.status.isLive = true) (codes : List ReasonCode) :
    ∃ g, Leaves s l i rest target { r with hold := g } (t.raiseAll i codes) ∧ AllRaised codes r.hold g := by
  obtain ⟨g, hrec, raised⟩ := State.raiseAll_raises codes h.record hl
  exact ⟨g, ⟨hrec, ((t.raiseAll_keeps i codes).ctc rfl).trans h.ctc, (State.raiseAll_moves codes i t).trans h.moves⟩, raised⟩

theorem Leaves.queueReport (h : Leaves s l i rest target r t) (b : ReportBody) :
    Leaves s l i rest target r (t.queueReport b) :=
  ⟨(t.queueReport_rec? b i).trans h.record, (t.queueReport_ctc b).trans h.ctc, by rw [State.queueReport_ltk]; exact h.moves⟩

end

/-- The record of a front as its exit transfer starts, before it is unbound, with the hold part `g` that the raises leave
(R125 steps 1 to 4). -/
def exitRecord (s : State) (l : LaneId) (target : Place) (fails : List ReasonCode) (g : Option Hold) (r : CarrierRecord) :
    CarrierRecord :=
  { r with
    position := .inTransit (lanePlace l) target, plan := r.plan.tail
    hold := g.map fun h => { h with stage := .exit }
    cureVerdict := if fails.isEmpty then .cured else .notCured, exitTime := some s.now }

/-- The exit transfer of a front: its record and its lane as R125 leaves them, then the unbinding. -/
theorem State.exitStart_unbinds {s : State} {l : LaneId} {i : RecIx} {rest : List RecIx} {t : LineTime} {r : CarrierRecord}
    (horder : (s.lane l).order = i :: rest) (harrival : (s.lane l).arrival = some t) (hr : s.rec? i = some r)
    (hl : r.status.isLive = true) :
    ∃ u g, s.exitStart l = u.unbind i .exitStart ∧ AllRaised (s.failures i) r.hold g ∧
      Leaves s l i rest (s.exitTarget i) (exitRecord s l (s.exitTarget i) (s.failures i) g r) u := by
  have begun := (State.beginMove_leaves (l := l) (rest := rest) (target := s.exitTarget i) hr).modRec
    fun r => { r with plan := r.plan.tail }
  obtain ⟨g, raised, all⟩ := begun.raiseAll hl (s.failures i)
  have judged := (raised.modRec fun r => { r with hold := r.hold.map fun h => { h with stage := .exit } }).modRec
    fun r => { r with cureVerdict := if (s.failures i).isEmpty then .cured else .notCured, exitTime := some s.now }
  refine ⟨_, g, ?_, all, judged.queueReport (.tunnelExit
    { ix := i, pass := r.pass, lane := l, exitTime := s.now, thermalDose := r.thermalDose, uvDose := r.uvDose
      peak := r.peak, cureUnknown := r.cureUnknown
      verdict := if (s.failures i).isEmpty then .cured else .notCured, target := s.exitTarget i, waited := s.since t })⟩
  unfold State.exitStart
  rw [horder, harrival]
  dsimp only
  refine congrArg (State.unbind · i .exitStart) ?_
  split
  · rename_i r' hr'
    cases judged.record.symm.trans hr'
    rfl
  · rename_i absent
    exact absurd (judged.record.symm.trans absent) nofun

/-! ## The statement -/

/-- A lane that the rule grants is the one that the arbiter grants (R124). -/
theorem State.exitGrant_of_granted {s : State} (known : FrontsKnown s) {l : LaneId} {t : LineTime} (h : GrantedByRule s l t) :
    s.exitGrant = s.exitStart l := by
  unfold State.exitGrant
  rw [(State.arbiterChoice_iff known l).2 ⟨t, h⟩]

theorem State.exitGrant_of_none {s : State} (known : FrontsKnown s) (h : ∀ l t, ¬ GrantedByRule s l t) :
    s.exitGrant = s := by
  unfold State.exitGrant
  split
  · obtain ⟨t, granted⟩ := (State.arbiterChoice_iff known _).1 ‹_›
    exact absurd granted (h _ t)
  · rfl

/-- What an exit transfer leaves of the tunnel and of the moves, once the front is unbound (R109, R113, R125). -/
theorem Leaves.unbind {s u : State} {l : LaneId} {i : RecIx} {rest : List RecIx} {target : Place} {r : CarrierRecord}
    (h : Leaves s l i rest target r u) (hl : r.lane = some l) (once : i ∉ rest) (cause : LaneCause) :
    let w := u.unbind i cause
    w.ctc.exitHolder = some i ∧ (w.lane l).order = rest ∧ (w.lane l).arrival = none ∧ BeltByRule (w.lane l) ∧
      w.ltk.moves = s.ltk.moves ++
        [{ ix := i, src := lanePlace l, dst := target, drive := .driven { since := s.now, ms := 20000 } }] := by
  have lane : u.lane l = { s.lane l with order := rest, arrival := none } :=
    (State.lane_of_ctc h.ctc l).trans (s.frontOut_lane l i rest)
  obtain ⟨belt, arrival⟩ := State.unbind_lane h.record hl cause
  refine ⟨?holder, ?order, ?arrival, belt, ?moves⟩
  case holder =>
    rw [(State.unbind_ctc h.record cause).1, h.ctc]
    rfl
  case order =>
    rw [State.unbind_order h.record cause, if_pos hl, lane]
    exact List.filter_eq_self.2 fun j hj => decide_eq_true fun e => once (e ▸ hj)
  case arrival =>
    rw [arrival, lane]
    exact ite_self _
  case moves =>
    rw [State.unbind_ltk h.record cause]
    exact h.moves

/-- Settles O58: the grant by the rule, and the exit transfer through its record before the unbinding. -/
theorem exitTransfersGiveTheVerdict : Obligations.ExitTransfersGiveTheVerdict := by
  intro s known
  refine ⟨fun none => State.goesOn_congr (State.exitGrant_of_none known none), ?_⟩
  intro l i rest t r rc target granted horder once aim hr hrc active lane free fails
  obtain ⟨-, -, ⟨_, _, _, -, harrival, -, -⟩, -⟩ := id granted
  have htarget : s.exitTarget i = target := (State.exitTarget_iff hr hrc target).2 aim
  have hfails : s.failures i = fails := State.failures_eq hr hrc
  obtain ⟨u, g, starts, raised, leaves⟩ := State.exitStart_unbinds horder harrival hr (by rw [active]; rfl)
  rw [htarget, hfails] at leaves
  rw [hfails] at raised
  obtain ⟨holder, order, arrival, belt, moves⟩ := leaves.unbind lane once .exitStart
  have kept := s.exitStart_keeps l
  have waiting : ∀ w, u.ctc.waiting = some w → w.ix ≠ i := fun w hw =>
    free w (by rwa [leaves.ctc, State.frontOut_waiting] at hw)
  have record := State.unbind_rec leaves.record waiting .exitStart
  rw [starts] at kept
  have off : (exitRecord s l target fails g r).offLane =
      { exitRecord s l target fails g r with lane := none, posInLane := none } := by
    unfold CarrierRecord.offLane
    rw [show (exitRecord s l target fails g r).lane = some l from lane]
  rw [off] at record
  refine ⟨_, State.goesOn_congr ((State.exitGrant_of_granted known granted).trans starts), holder, order, arrival, belt, moves,
    ⟨_, record, rfl, rfl, rfl, rfl, rfl, ?verdict, rfl, rfl, ?clean, ?held, ?stage⟩, kept.mode rfl, kept.rsc rfl, kept.hmg rfl⟩
  case verdict => exact if_congr List.isEmpty_iff rfl rfl
  case clean =>
    intro passed hold
    have same : g = none := (raised.same passed).trans hold
    exact congrArg (Option.map _) same
  case held =>
    intro failed
    obtain ⟨h, hg⟩ := Option.isSome_iff_exists.1 (raised.stands (.inr failed))
    refine ⟨{ h with stage := .exit }, congrArg (Option.map _) hg, fun fresh x hx => ?_⟩
    have room : max (holdCodes r.hold).length 1 + fails.length ≤ 8 := by
      have few := cureFailures_length rc.cure r
      rw [fresh]
      exact Nat.le_trans (Nat.add_le_add_left few 1) (by decide)
    obtain ⟨h', hg', listed⟩ := mem_holdCodes.1 (raised.listed room x hx)
    cases hg.symm.trans hg'
    exact listed
  case stage =>
    intro h hh
    obtain ⟨g', -, rfl⟩ := Option.map_eq_some_iff.1 (show g.map (fun h => { h with stage := .exit }) = some h from hh)
    rfl

end Sys2Proof.Machine
end

section
/-! PROOF. UV and thermal samples: the lamp, the zones, their faults and what STOP leaves of the tunnel, the doses
(R117 to R122, R129 to R135, R165). -/

namespace Sys2Proof.Machine

/-! ## The lamp at a UV sample (R117) -/

theorem State.lampTo_ctc (s : State) (st : LampState) (why : LampCause) :
    (s.lampTo st why).ctc = ((s.setLamp { s.ctc.lamp with state := st, count := 0 }).evalShutter).ctc := by
  unfold State.lampTo
  dsimp only
  split
  · rw [(State.noteFault_keeps _ _ _ _).ctc rfl, State.queueReport_ctc]
  · rw [State.queueReport_ctc]

theorem fifthSample_iff (n : Nat) : n + 1 < 5 ↔ n < 4 := by omega

section
variable {s : State}

/-- A READY lamp counts the samples below the lamp minimum. -/
theorem State.lampSample_ready (hs : s.ctc.lamp.state = .ready) : s.lampSample =
    if s.ctc.measured < s.rsc.live.lampMin then
      if s.ctc.lamp.count < 4 then s.setLamp { s.ctc.lamp with count := s.ctc.lamp.count + 1 } else s.lampTo .low .irradiance
    else s.setLamp { s.ctc.lamp with count := 0 } := by
  simp [State.lampSample, hs, fifthSample_iff]

/-- A LOW lamp counts the samples not below the lamp minimum. -/
theorem State.lampSample_low (hs : s.ctc.lamp.state = .low) : s.lampSample =
    if s.ctc.measured < s.rsc.live.lampMin then s.setLamp { s.ctc.lamp with count := 0 }
    else if s.ctc.lamp.count < 4 then s.setLamp { s.ctc.lamp with count := s.ctc.lamp.count + 1 }
    else s.lampTo .ready .irradiance := by
  by_cases below : s.ctc.measured < s.rsc.live.lampMin
  · simp [State.lampSample, hs, below]
  · simp [State.lampSample, hs, below, fifthSample_iff]

theorem State.lampSample_dark (hr : s.ctc.lamp.state ≠ .ready) (hl : s.ctc.lamp.state ≠ .low) : s.lampSample = s := by
  cases hs : s.ctc.lamp.state with
  | ready => exact absurd hs hr
  | low => exact absurd hs hl
  | off | warming | fault => simp [State.lampSample, hs]

end

/-- Of the tunnel a UV sample's lamp changes the lamp and the shutter. -/
theorem State.lampSample_ctc (s : State) : ∃ v b, s.lampSample.ctc = { s.ctc with lamp := v, shutterOpen := b } := by
  have changed (st : LampState) : ∃ v b, (s.lampTo st .irradiance).ctc = { s.ctc with lamp := v, shutterOpen := b } :=
    ⟨_, _, s.lampTo_ctc st .irradiance⟩
  have counted (v : Lamp) : ∃ w b, (s.setLamp v).ctc = { s.ctc with lamp := w, shutterOpen := b } :=
    ⟨v, s.ctc.shutterOpen, rfl⟩
  by_cases hr : s.ctc.lamp.state = .ready
  · rw [State.lampSample_ready hr]
    split
    · split
      · exact counted _
      · exact changed _
    · exact counted _
  · by_cases hl : s.ctc.lamp.state = .low
    · rw [State.lampSample_low hl]
      split
      · exact counted _
      · split
        · exact counted _
        · exact changed _
    · rw [State.lampSample_dark hr hl]
      exact ⟨_, _, rfl⟩

/-- The lamp after a sample of its irradiance `measured` (R117), by the state and the count that it had. -/
structure LampFollows (v w : Lamp) (measured lampMin : Nat) : Prop where
  readyFalls : v.state = .ready → measured < lampMin → 4 ≤ v.count → w.state = .low ∧ w.count = 0
  readyCounts : v.state = .ready → measured < lampMin → v.count < 4 → w.state = .ready ∧ w.count = v.count + 1
  readyStays : v.state = .ready → lampMin ≤ measured → w.state = .ready ∧ w.count = 0
  lowRises : v.state = .low → lampMin ≤ measured → 4 ≤ v.count → w.state = .ready ∧ w.count = 0
  lowCounts : v.state = .low → lampMin ≤ measured → v.count < 4 → w.state = .low ∧ w.count = v.count + 1
  lowStays : v.state = .low → measured < lampMin → w.state = .low ∧ w.count = 0

theorem State.lampSample_follows (s : State) :
    LampFollows s.ctc.lamp s.lampSample.ctc.lamp s.ctc.measured s.rsc.live.lampMin where
  readyFalls hs below full := by
    rw [State.lampSample_ready hs, if_pos below, if_neg (by omega), State.lampTo_ctc]
    exact ⟨rfl, rfl⟩
  readyCounts hs below few := by
    rw [State.lampSample_ready hs, if_pos below, if_pos few]
    exact ⟨hs, rfl⟩
  readyStays hs enough := by
    rw [State.lampSample_ready hs, if_neg (by omega)]
    exact ⟨hs, rfl⟩
  lowRises hs enough full := by
    rw [State.lampSample_low hs, if_neg (by omega), if_neg (by omega), State.lampTo_ctc]
    exact ⟨rfl, rfl⟩
  lowCounts hs enough few := by
    rw [State.lampSample_low hs, if_neg (by omega), if_pos few]
    exact ⟨hs, rfl⟩
  lowStays hs below := by
    rw [State.lampSample_low hs, if_pos below]
    exact ⟨hs, rfl⟩

/-! ## The doses of the records on the belts (R130, R131) -/

/-- A walk over records of writes that only live ones take. -/
theorem State.foldl_modLive_follows (f : RecIx → CarrierRecord → CarrierRecord) {is : List RecIx} (once : is.Nodup)
    (s : State) : (∃ v, is.foldl (fun t i => t.modLive i (f i)) s = s.withTable v) ∧
      ∀ j, (is.foldl (fun t i => t.modLive i (f i)) s).rec? j =
        (s.rec? j).map fun r => if j ∈ is ∧ r.status.isLive = true then f j r else r := by
  simp only [State.modLive_eq_modRec]
  let g (i : RecIx) (r : CarrierRecord) : CarrierRecord := if r.status.isLive = true then f i r else r
  refine ⟨State.foldl_modRec_withTable g is s, fun j => (State.foldl_modRec_rec? g once s j).trans ?_⟩
  by_cases on : j ∈ is
  · simp [on, g]
  · simp [on]

/-- A record in the UV zone gains the irradiance (R130). -/
theorem uvDoseStep_eq (x : Nat) (r : CarrierRecord) : uvDoseStep x r =
    if ∃ mm, r.posInLane = some mm ∧ mm < 200 then { r with uvDose := min (r.uvDose + x) 2147483647 } else r := by
  unfold uvDoseStep
  rcases r.posInLane with _ | mm
  · simp
  · by_cases uv : mm < 200
    · simp [inUvZone, uv, satAdd, Config.doseMax]
    · simp [inUvZone, uv]

theorem State.uvDoses_follows {s : State} (once : s.beltRecords.Nodup) :
    (∃ v, s.uvDoses = s.withTable v) ∧ ∀ i, s.uvDoses.rec? i = (s.rec? i).map fun r =>
      if i ∈ s.beltRecords ∧ r.status.isLive = true ∧ (∃ mm, r.posInLane = some mm ∧ mm < 200)
      then { r with uvDose := min (r.uvDose + s.doseIrradiance) 2147483647 } else r := by
  obtain ⟨table, records⟩ := State.foldl_modLive_follows (fun _ => uvDoseStep s.doseIrradiance) once s
  refine ⟨table, fun i => (records i).trans (congrArg (Option.map · _) (funext fun r => ?_))⟩
  rw [uvDoseStep_eq]
  simp only [← ite_and, and_assoc]

theorem State.uvSample_eq (s : State) (raw : Option (BitVec 12)) : ∃ t : State,
    s.uvSample raw = t.lampSample.uvDoses ∧ t.ltk = s.ltk ∧ t.rsc = s.rsc ∧ t.lmf.clock = s.sampleTime 100 s.ctc.uvAt ∧
      t.ctc = { s.ctc with uvAt := s.sampleTime 100 s.ctc.uvAt, measured := irradianceOf raw s.rsc.live.gain } :=
  ⟨_, rfl, rfl, rfl, rfl, rfl⟩

/-! ## What STOP leaves (R84, R89, R165) -/

/-- From `s` to `t` no detected flag of the fault record is cleared (R170). -/
def KeepsFlags (s t : State) : Prop := ∀ cls, s.lmf.record.flag cls = true → t.lmf.record.flag cls = true

theorem KeepsFlags.refl (s : State) : KeepsFlags s s := fun _ h => h

theorem KeepsFlags.trans {s t u : State} (h : KeepsFlags s t) (k : KeepsFlags t u) : KeepsFlags s u :=
  fun cls e => k cls (h cls e)

theorem Keeps.keepsFlags {b : Blocks} {s t : State} (h : Keeps b s t) (hb : b.rep = false) : KeepsFlags s t :=
  fun cls e => by rwa [h.record hb]

theorem KeepsFlags.of_lmf {s t : State} (h : t.lmf = s.lmf) : KeepsFlags s t := fun cls e => by rwa [h]

theorem FaultRecord.note_flag (r : FaultRecord) (e : FaultEntry) (cls : FaultClass) :
    (r.note e).flag cls = true ↔ r.flag cls = true ∨ e.code.cls = cls := by
  unfold FaultRecord.note
  split
  · rename_i h; cases cls <;> simp [FaultRecord.flag, h]
  · rename_i h; cases cls <;> simp [FaultRecord.flag, h]
  · rename_i h; cases cls <;> simp [FaultRecord.flag, h]

theorem State.queueReport_keepsFlags (s : State) (b : ReportBody) : KeepsFlags s (s.queueReport b) := by
  intro cls h
  unfold State.queueReport
  split
  · exact h
  · split
    · exact h
    · exact (FaultRecord.note_flag _ _ cls).2 (.inl h)

theorem State.raiseIf_keepsFlags (s : State) (b : Bool) (i : RecIx) (code : ReasonCode) :
    KeepsFlags s (s.raiseIf b i code) := by
  have told (r : CarrierRecord) (b : ReportBody) : KeepsFlags s ((s.setRec i (some r)).queueReport b) :=
    State.queueReport_keepsFlags (s.setRec i (some r)) b
  unfold State.raiseIf State.raiseCode State.raiseReason
  split
  · split
    · exact .refl s
    · split
      · exact told _ _
      · exact told _ _
  · exact .refl s

theorem State.modLive_keepsFlags (s : State) (i : RecIx) (f : CarrierRecord → CarrierRecord) :
    KeepsFlags s (s.modLive i f) := by
  rw [State.modLive_eq_modRec]
  obtain ⟨v, hv⟩ := s.modRec_withTable i fun r => if r.status.isLive = true then f r else r
  rw [hv]
  exact .of_lmf rfl

theorem State.evaluateFilm_keepsFlags (s : State) (i : RecIx) : KeepsFlags s (s.evaluateFilm i) := by
  have raised (t : State) : KeepsFlags t (t.raiseFilm i) := by
    unfold State.raiseFilm
    split
    · exact .refl t
    · exact ((t.raiseIf_keepsFlags _ _ _).trans (State.raiseIf_keepsFlags _ _ _ _)).trans (State.raiseIf_keepsFlags _ _ _ _)
  unfold State.evaluateFilm
  split
  · exact .refl s
  · exact (s.modLive_keepsFlags i _).trans (raised _)

theorem State.cellTo_keepsFlags (s : State) (c : CellId) (st : CellState) (why : CellCause) (i : Option RecIx) :
    KeepsFlags s (s.cellTo c st why i) := by
  have set (f : SprayCell → SprayCell) : KeepsFlags s (s.modCell c f) := (s.modCell_keeps c f).keepsFlags rfl
  unfold State.cellTo
  dsimp only
  split
  · exact (set _).trans (State.queueReport_keepsFlags _ _)
  · exact set _

theorem State.finishProgram_keepsFlags (s : State) (c : CellId) (p : Program) (o : ProgramOutcome)
    (f : Option (FaultCode × Nat)) (next : CellState) (cause : CellCause) :
    KeepsFlags s (s.finishProgram c p o f next cause) := by
  have film : KeepsFlags s (if (s.markRun c p.ix p.pass).lastProgram p.ix then
      ((s.markRun c p.ix p.pass).modLive p.ix fun r => { r with sprayEnd := some s.now }).evaluateFilm p.ix
      else s.markRun c p.ix p.pass) := by
    have marked : KeepsFlags s (s.markRun c p.ix p.pass) := (s.markRun_keeps c p.ix p.pass).keepsFlags rfl
    split
    · exact (marked.trans (State.modLive_keepsFlags _ _ _)).trans (State.evaluateFilm_keepsFlags _ _)
    · exact marked
  exact ((film.trans (State.queueReport_keepsFlags _ _)).trans ((State.modCell_keeps _ c _).keepsFlags rfl)).trans
    (State.cellTo_keepsFlags _ c next cause (some p.ix))

theorem State.abandonProgram_keepsFlags (s : State) (c : CellId) (p : Program) (o : ProgramOutcome)
    (f : Option (FaultCode × Nat)) (z : Option Nat) (next : CellState) (cause : CellCause) :
    KeepsFlags s (s.abandonProgram c p o f z next cause) := by
  have run (t : State) (raise : Bool) : KeepsFlags t (t.abandonRun c p.ix z raise) :=
    ((((t.modCell_keeps c _).keepsFlags rfl).trans ((State.flagZone?_keeps _ p.ix _).keepsFlags rfl)).trans
      ((State.flagZone?_keeps _ p.ix z).keepsFlags rfl)).trans (State.raiseIf_keepsFlags _ raise p.ix .filmUnknown)
  exact (((((s.cutOff_keeps c p.ix).keepsFlags rfl).trans ((State.modCell_keeps _ c _).keepsFlags rfl)).trans
    (run _ _)).trans ((State.modCell_keeps _ c _).keepsFlags rfl)).trans (State.finishProgram_keepsFlags _ c p o f next cause)

/-- From `s` to `t` no record changes but in its hold part and what spraying writes. -/
def KeepsCores (s t : State) : Prop := ∀ i, (t.rec? i).map CarrierRecord.core = (s.rec? i).map CarrierRecord.core

theorem KeepsCores.trans {s t u : State} (h : KeepsCores s t) (k : KeepsCores t u) : KeepsCores s u :=
  fun i => (k i).trans (h i)

theorem KeepsCores.of_core {s t : State} (h : t.ltk.core = s.ltk.core) : KeepsCores s t := fun i => by
  simpa [Ltk.core, State.rec?] using congrArg (fun v : Ltk => v.table[i]) h

theorem KeepsCores.of_ltk {s t : State} (h : t.ltk = s.ltk) : KeepsCores s t := .of_core (congrArg Ltk.core h)

/-- What a cell's reaction to STOP leaves and tells (R89). -/
theorem State.cellStop_follows (s : State) (c : CellId) :
    KeepsCores s (s.cellStop c) ∧ KeepsFlags s (s.cellStop c) ∧ Tells 6 s (s.cellStop c) := by
  unfold State.cellStop
  split
  · exact ⟨.of_core (State.abandonProgram_core ..), s.abandonProgram_keepsFlags c _ _ _ _ _ _, State.abandonProgram_tells ..⟩
  · split
    · let halted := s.modCell c fun v => v.shutAndHalt.stopTimers
      have kept : Keeps { scc := true } s halted := s.modCell_keeps c _
      exact ⟨.of_ltk (((halted.cellTo_keeps c _ _ _).ltk rfl).trans (kept.ltk rfl)),
        (kept.keepsFlags rfl).trans (halted.cellTo_keepsFlags c _ _ _),
        ((kept.tells rfl).trans (halted.cellTo_tells c _ _ _)).mono (by omega)⟩
    all_goals exact ⟨.of_ltk rfl, .refl s, (Tells.refl s).mono (by omega)⟩

theorem State.deriveLane_keepsFlags (s : State) (l : LaneId) (cause : LaneCause) : KeepsFlags s (s.deriveLane l cause) := by
  have set (v : Lane) : KeepsFlags s (s.setLane l v) := .of_lmf (State.setLane_lmf s l v)
  unfold State.deriveLane
  dsimp only
  split
  · exact set _
  · exact (set _).trans (State.queueReport_keepsFlags _ _)

/-- What the tunnel's reaction to a mode leaves of it: the orders of the lanes and the zones (R113, R118). -/
theorem State.tunnelMode_leaves (s : State) :
    s.tunnelMode.ctc.zones = s.ctc.zones ∧ (∀ l, (s.tunnelMode.lane l).order = (s.lane l).order) ∧
      KeepsFlags s s.tunnelMode := by
  have first := s.deriveLane_rebinds .lane1 .lineMode
  have both := first.trans (State.deriveLane_rebinds _ .lane2 .lineMode)
  have zones := congrArg Ctc.zones both.ctc
  refine ⟨zones, fun l => ?_, ?_⟩
  · refine Eq.trans ?_ (both.order l)
    cases l <;> rfl
  · exact ((s.deriveLane_keepsFlags .lane1 _).trans (State.deriveLane_keepsFlags _ .lane2 _)).trans
      (.of_lmf rfl)

/-- What a fault of a zone and the STOP that it may bring leave: every record but for its hold part and its film, the orders
of the lanes, the reports queued before, and the flags. -/
structure Stays (s t : State) : Prop where
  cores : KeepsCores s t
  order : ∀ l, (t.lane l).order = (s.lane l).order
  reports : s.liu.reports <+: t.liu.reports
  flags : KeepsFlags s t
  now : t.now = s.now
  rsc : t.rsc = s.rsc

theorem Stays.refl (s : State) : Stays s s :=
  ⟨.of_ltk rfl, fun _ => rfl, List.prefix_refl _, .refl s, rfl, rfl⟩

theorem Stays.trans {s t u : State} (h : Stays s t) (k : Stays t u) : Stays s u where
  cores := h.cores.trans k.cores
  order l := (k.order l).trans (h.order l)
  reports := h.reports.trans k.reports
  flags := h.flags.trans k.flags
  now := k.now.trans h.now
  rsc := k.rsc.trans h.rsc

/-- The line mode's becoming STOP, with 15 reports at most. -/
theorem State.setMode_stop_follows (s : State) (cause : ModeCause) :
    Stays s (s.setMode .stop cause) ∧ (s.setMode .stop cause).ctc.zones = s.ctc.zones ∧
      (s.lmf.mode = .stop → s.setMode .stop cause = s) ∧ Tells 15 s (s.setMode .stop cause) := by
  have kept := s.setMode_keeps .stop cause
  by_cases already : s.lmf.mode = .stop
  · have same : s.setMode .stop cause = s := if_pos already
    rw [same]
    exact ⟨.refl s, rfl, fun _ => rfl, (Tells.refl s).mono (by omega)⟩
  · let put := s.putMode .stop cause
    let halted := put.haltMoves.headsMode .stop
    let stopped := (halted.cellStop .a).cellStop .b
    have shown : s.setMode .stop cause = stopped.tunnelMode := if_neg already
    have putKept := s.putMode_keeps .stop cause
    have moves := put.trackerMode_keeps .stop s.lmf.mode
    have heads := put.haltMoves.headsMode_keeps .stop
    obtain ⟨coresA, flagsA, tellsA⟩ := halted.cellStop_follows .a
    obtain ⟨coresB, flagsB, tellsB⟩ := (halted.cellStop .a).cellStop_follows .b
    have cells := (halted.cellStop_keeps .a).trans ((halted.cellStop .a).cellStop_keeps .b)
    have tunnel := stopped.tunnelMode_keeps
    obtain ⟨zones, order, flags⟩ := stopped.tunnelMode_leaves
    have before : stopped.ctc = s.ctc :=
      (cells.ctc rfl).trans ((heads.ctc rfl).trans ((moves.ctc rfl).trans (putKept.ctc rfl)))
    have putFlags : KeepsFlags s put := State.queueReport_keepsFlags { s with lmf := { s.lmf with mode := .stop } } _
    refine ⟨⟨?cores, ?order, kept.grows, ?flags, kept.clock rfl, kept.rsc rfl⟩, ?zones, fun h => absurd h already, ?tells⟩
    all_goals rw [shown]
    case cores =>
      have halting : KeepsCores put put.haltMoves := fun _ => rfl
      exact ((((KeepsCores.of_ltk (putKept.ltk rfl)).trans halting).trans (.of_ltk (heads.ltk rfl))).trans
        (coresA.trans coresB)).trans (.of_ltk (tunnel.ltk rfl))
    case zones => rw [zones, before]
    case order => exact fun l => (order l).trans (congrArg Lane.order (State.lane_of_ctc before l))
    case flags =>
      exact (((putFlags.trans (moves.keepsFlags rfl)).trans (heads.keepsFlags rfl)).trans (flagsA.trans flagsB)).trans flags
    case tells =>
      exact ((((s.putMode_tells .stop cause).trans (moves.tells rfl)).trans (heads.tells rfl)).trans
        (tellsA.trans tellsB)).trans stopped.tunnelMode_tells

/-! ## The faults of the zones (R120 to R122, R165) -/

/-- The reports queued, with those that a STOP still to come may queue. -/
def State.telling (s : State) : Nat := s.liu.reports.length + (if s.lmf.mode = .stop then 0 else 15)

/-- What a fault that is noted leaves and tells (R170). -/
theorem State.noteFault_follows (s : State) (code : FaultCode) (o : Origin) (d : FaultDetail) :
    let u := s.noteFault code o d
    Stays s u ∧ u.lmf.record.flag code.cls = true ∧
      (s.liu.reports.length < 32 →
        u.liu.reports = s.liu.reports ++ [{ time := s.now, body := .fault code.cls (s.faultEntry code o d) }]) := by
  have kept := s.noteFault_keeps code o d
  have told := State.queueReport_keepsFlags (s.setRecord (s.lmf.record.note (s.faultEntry code o d)))
    (.fault code.cls (s.faultEntry code o d))
  refine ⟨⟨.of_ltk (kept.ltk rfl), fun l => by rw [State.lane_of_ctc (kept.ctc rfl)], kept.grows,
    fun cls h => told cls ((FaultRecord.note_flag _ _ cls).2 (.inl h)), kept.clock rfl, kept.rsc rfl⟩,
    told _ ((FaultRecord.note_flag _ _ _).2 (.inr rfl)), fun room => ?_⟩
  exact congrArg (fun u : State => u.liu.reports) (if_pos room)

/-- What a FATAL or a CORRECTABLE fault leaves and tells: the first kind takes the line to STOP (R165, R170). -/
theorem State.raiseFault_follows (s : State) {code : FaultCode} (hc : code.cls ≠ .nonfatal) (o : Origin) (d : FaultDetail) :
    let u := s.raiseFault code o d
    Stays s u ∧ u.ctc.zones = s.ctc.zones ∧ u.telling ≤ s.telling + 1 ∧ u.lmf.record.flag code.cls = true ∧
      (s.liu.reports.length < 32 →
        s.liu.reports ++ [{ time := s.now, body := .fault code.cls (s.faultEntry code o d) }] <+: u.liu.reports) ∧
      u.lmf.mode = if code.cls = .fatal then .stop else s.lmf.mode := by
  intro u
  let n := s.noteFault code o d
  obtain ⟨stays, flag, told⟩ := s.noteFault_follows code o d
  have length : n.liu.reports.length ≤ s.liu.reports.length + 1 := s.noteFault_length code o d
  have mode : n.lmf.mode = s.lmf.mode := (s.noteFault_keeps code o d).mode rfl
  have zones : n.ctc.zones = s.ctc.zones := congrArg Ctc.zones ((s.noteFault_keeps code o d).ctc rfl)
  have shown : u = n.faultMode code := rfl
  cases hcls : code.cls with
  | nonfatal => exact absurd hcls hc
  | correctable =>
    have noted : u = n := by rw [shown, State.faultMode, hcls]
    rw [hcls] at flag told
    rw [noted]
    refine ⟨stays, zones, ?_, flag, fun room => by rw [told room], mode⟩
    unfold State.telling
    rw [mode]
    omega
  | fatal =>
    have stopped : u = n.setMode .stop (.fault code) := by rw [shown, State.faultMode, hcls]
    obtain ⟨stays', zones', already, tells⟩ := n.setMode_stop_follows (.fault code)
    rw [hcls] at flag told
    rw [stopped]
    refine ⟨stays.trans stays', zones'.trans zones, ?_, stays'.flags _ flag,
      fun room => by rw [← told room]; exact stays'.reports, n.setMode_mode .stop _⟩
    unfold State.telling
    rw [if_pos (n.setMode_mode .stop _)]
    by_cases stop : s.lmf.mode = .stop
    · rw [already (mode.trans stop), if_pos stop]
      omega
    · have queued := tells.reports
      rw [if_neg stop]
      omega

/-- From `s` to `u` the faults of `told` have been raised, each for its zone: their flags are set, each has its report when
there was room, and the FATAL ones have taken the line to STOP. -/
structure Told (s : State) (told : List (FaultCode × ZoneIx)) (u : State) : Prop where
  stays : Stays s u
  telling : u.telling ≤ s.telling + told.length
  flagged : ∀ p ∈ told, u.lmf.record.flag p.1.cls = true
  reported : s.liu.reports.length < 8 → ∀ p ∈ told, ∃ x ∈ u.liu.reports.drop s.liu.reports.length, ∃ e,
    x.body = .fault p.1.cls e ∧ e.code = p.1 ∧ e.origin = .ctc ∧ e.time = s.now ∧ e.detail.zone = some p.2
  stop : ∀ p ∈ told, p.1.cls = .fatal → u.lmf.mode = .stop
  mode : (∀ p ∈ told, p.1.cls ≠ .fatal) → u.lmf.mode = s.lmf.mode

theorem Told.nil (s : State) : Told s [] s := ⟨.refl s, le_refl _, nofun, fun _ => nofun, nofun, fun _ => rfl⟩

section
variable {s u : State} {told : List (FaultCode × ZoneIx)} (h : Told s told u)
include h

theorem Told.setZone (z : ZoneIx) (v : ZoneSense) : Told s told (u.setZone z v) where
  stays := h.stays.trans
    ⟨.of_ltk rfl, fun l => by cases l <;> rfl, List.prefix_refl _, .refl _, rfl, rfl⟩
  telling := h.telling
  flagged := h.flagged
  reported := h.reported
  stop := h.stop
  mode := h.mode

theorem Told.raise {code : FaultCode} (hc : code.cls ≠ .nonfatal) {z : ZoneIx} {d : FaultDetail} (hd : d.zone = some z)
    (few : told.length ≤ 9) : Told s (told ++ [(code, z)]) (u.raiseFault code .ctc d) := by
  obtain ⟨stays, -, telling, flag, report, mode⟩ := u.raiseFault_follows hc .ctc d
  have both {q : FaultCode × ZoneIx → Prop} (old : ∀ p ∈ told, q p) (new : q (code, z)) : ∀ p ∈ told ++ [(code, z)], q p := by
    simpa [or_imp, forall_and] using ⟨fun a b => old (a, b), new⟩
  refine ⟨h.stays.trans stays, ?telling, both (fun p hp => stays.flags _ (h.flagged p hp)) flag, fun room => ?reported,
    both (fun p hp fatal => ?stops) fun fatal => mode.trans (if_pos fatal), fun none => ?mode⟩
  case telling =>
    have before := h.telling
    rw [List.length_append, List.length_singleton]
    omega
  case reported =>
    refine both (fun p hp => ?old) ?new
    case old =>
      obtain ⟨x, hx, e⟩ := h.reported room p hp
      exact ⟨x, (stays.reports.drop _).subset hx, e⟩
    case new =>
      have space : u.liu.reports.length < 32 := by
        have before := h.telling
        simp only [State.telling] at before
        split at before <;> split at before <;> omega
      let told := u.faultEntry code .ctc d
      refine ⟨{ time := u.now, body := .fault code.cls told }, ((report space).drop _).subset ?_, told, rfl, rfl, rfl,
        h.stays.now, hd⟩
      rw [List.drop_append_of_le_length h.stays.reports.length_le]
      exact List.mem_append_right _ List.mem_cons_self
  case stops =>
    rw [mode]
    split
    · rfl
    · exact h.stop p hp fatal
  case mode =>
    rw [mode, if_neg (none (code, z) (by simp)), h.mode fun p hp => none p (List.mem_append_left _ hp)]

/-- A fault raised under a condition. -/
theorem Told.raiseWhen (b : Prop) [Decidable b] {code : FaultCode} (hc : code.cls ≠ .nonfatal) {z : ZoneIx}
    {d : FaultDetail} (hd : d.zone = some z) (few : told.length ≤ 9) :
    Told s (told ++ if b then [(code, z)] else []) (if b then u.raiseFault code .ctc d else u) ∧
      (if b then u.raiseFault code .ctc d else u).ctc.zones = u.ctc.zones := by
  by_cases hb : b
  · obtain ⟨-, zones, -⟩ := u.raiseFault_follows hc .ctc d
    simp only [if_pos hb]
    exact ⟨h.raise hc hd few, zones⟩
  · simp only [if_neg hb, List.append_nil]
    exact ⟨h, trivial⟩

end

/-- The faults of a zone's change from `old` to `new` (R120 to R122). -/
def zoneTells (z : ZoneIx) (old new : ZoneSense) : List (FaultCode × ZoneIx) :=
  (if new.cond = .degraded ∧ old.cond ≠ .degraded then [(.sensorDegraded, z)] else [])
    ++ (if new.cond = .lost ∧ old.cond ≠ .lost then [(.zoneSensorLost, z)] else [])
    ++ (if (tooHot new.temp && !tooHot old.temp) = true then [(.zoneOvertemp, z)] else [])

theorem mem_zoneTells {z : ZoneIx} {old new : ZoneSense} {p : FaultCode × ZoneIx} : p ∈ zoneTells z old new ↔
    (p = (.sensorDegraded, z) ∧ new.cond = .degraded ∧ old.cond ≠ .degraded) ∨
      (p = (.zoneSensorLost, z) ∧ new.cond = .lost ∧ old.cond ≠ .lost) ∨
      (p = (.zoneOvertemp, z) ∧ tooHot new.temp = true ∧ tooHot old.temp = false) := by
  have whenMem (b : Prop) [Decidable b] (q : FaultCode × ZoneIx) : p ∈ (if b then [q] else []) ↔ p = q ∧ b := by
    by_cases hb : b <;> simp [hb]
  simp only [zoneTells, List.mem_append, whenMem, or_assoc, Bool.and_eq_true, Bool.not_eq_true']

/-- A zone is DEGRADED or LOST, not both. -/
theorem zoneTells_length (z : ZoneIx) (old new : ZoneSense) : (zoneTells z old new).length ≤ 2 := by
  have one (b : Prop) [Decidable b] (q : FaultCode × ZoneIx) : (if b then [q] else []).length ≤ 1 := by split <;> simp
  have hot := one ((tooHot new.temp && !tooHot old.temp) = true) (.zoneOvertemp, z)
  have degraded := one (new.cond = .degraded ∧ old.cond ≠ .degraded) (.sensorDegraded, z)
  unfold zoneTells
  simp only [List.length_append]
  by_cases lost : new.cond = .lost
  · rw [if_neg (show ¬ (new.cond = .degraded ∧ old.cond ≠ .degraded) by simp [lost])]
    have lostOne := one (new.cond = .lost ∧ old.cond ≠ .lost) (.zoneSensorLost, z)
    simp only [List.length_nil]
    omega
  · rw [if_neg (show ¬ (new.cond = .lost ∧ old.cond ≠ .lost) from fun h => lost h.1)]
    simp only [List.length_nil]
    omega

theorem Told.zoneFaults {s u : State} {told : List (FaultCode × ZoneIx)} (h : Told s told u) (few : told.length ≤ 6)
    (z : ZoneIx) (old new : ZoneSense) (k : Option (Fin 8)) :
    Told s (told ++ zoneTells z old new) (u.zoneFaults z old new k) ∧ (u.zoneFaults z old new k).ctc.zones = u.ctc.zones := by
  have one (b : Prop) [Decidable b] (q : FaultCode × ZoneIx) : (if b then [q] else []).length ≤ 1 := by split <;> simp
  obtain ⟨t₁, z₁⟩ := h.raiseWhen (new.cond = .degraded ∧ old.cond ≠ .degraded) (code := .sensorDegraded) (z := z) nofun
    (d := { zone := some z, channel := k }) rfl (by omega)
  have l₁ := one (new.cond = .degraded ∧ old.cond ≠ .degraded) (.sensorDegraded, z)
  obtain ⟨t₂, z₂⟩ := t₁.raiseWhen (new.cond = .lost ∧ old.cond ≠ .lost) (code := .zoneSensorLost) (z := z) nofun
    (d := { zone := some z }) rfl (by rw [List.length_append]; omega)
  have l₂ := one (new.cond = .lost ∧ old.cond ≠ .lost) (.zoneSensorLost, z)
  obtain ⟨t₃, z₃⟩ := t₂.raiseWhen ((tooHot new.temp && !tooHot old.temp) = true) (code := .zoneOvertemp) (z := z) nofun
    (d := { zone := some z }) rfl (by simp only [List.length_append]; omega)
  refine ⟨?_, z₃.trans (z₂.trans z₁)⟩
  rw [zoneTells, ← List.append_assoc, ← List.append_assoc]
  exact t₃

/-! ## The zones sampled (R120, R121) -/

/-- What a zone is after a sample taken now. -/
def State.zoneNext (s : State) (adc : Vector (Option Int) 8) (z : ZoneIx) : ZoneSense :=
  zoneAfter s.now s.ctc.zones[z] (s.zoneReadings adc z)

/-- From `s` to `u` some zones have been sampled, each with its faults. -/
structure ZonesSampled (s : State) (adc : Vector (Option Int) 8) (zs : List ZoneIx) (u : State) : Prop where
  told : Told s (zs.flatMap fun z => zoneTells z s.ctc.zones[z] (s.zoneNext adc z)) u
  zones : ∀ z : ZoneIx, u.ctc.zones[z] = if z ∈ zs then s.zoneNext adc z else s.ctc.zones[z]

section
variable {s : State} {adc : Vector (Option Int) 8}

theorem ZonesSampled.sampleZone {zs : List ZoneIx} {u : State} (h : ZonesSampled s adc zs u) {z : ZoneIx} (fresh : z ∉ zs)
    (few : zs.length ≤ 3) : ZonesSampled s adc (zs ++ [z]) (u.sampleZone adc z) := by
  have old : u.ctc.zones[z] = s.ctc.zones[z] := (h.zones z).trans (if_neg fresh)
  have new : zoneAfter u.now u.ctc.zones[z] (u.zoneReadings adc z) = s.zoneNext adc z := by
    unfold State.zoneReadings
    rw [old, h.told.stays.now, h.told.stays.rsc]
    rfl
  have room : (zs.flatMap fun z => zoneTells z s.ctc.zones[z] (s.zoneNext adc z)).length ≤ 6 := by
    have each := List.sum_le_card_nsmul (zs.map fun z => (zoneTells z s.ctc.zones[z] (s.zoneNext adc z)).length) 2
      (by simpa using fun z _ => zoneTells_length z s.ctc.zones[z] (s.zoneNext adc z))
    rw [List.length_map, smul_eq_mul] at each
    rw [List.length_flatMap]
    omega
  obtain ⟨told, zones⟩ := (h.told.setZone z (s.zoneNext adc z)).zoneFaults room z s.ctc.zones[z] (s.zoneNext adc z)
    (invalidChannel z (u.zoneReadings adc z))
  have shown : u.sampleZone adc z = (u.setZone z (s.zoneNext adc z)).zoneFaults z s.ctc.zones[z] (s.zoneNext adc z)
      (invalidChannel z (u.zoneReadings adc z)) := by
    unfold State.sampleZone
    dsimp only
    rw [new, old]
  rw [shown]
  refine ⟨by rw [List.flatMap_append, List.flatMap_singleton]; exact told, fun y => ?_⟩
  rw [zones]
  by_cases e : y = z
  · subst e
    simp [State.setZone]
  · have other : (z : Nat) ≠ y := fun h => e (Fin.ext h.symm)
    have kept : (u.setZone z (s.zoneNext adc z)).ctc.zones[y] = u.ctc.zones[y] := by
      simp [State.setZone, Vector.getElem_set_ne, other]
    rw [kept, h.zones y]
    simp [e]

theorem ZonesSampled.foldl (zs : List ZoneIx) : ∀ {before : List ZoneIx} {u : State}, ZonesSampled s adc before u →
    (before ++ zs).Nodup → (before ++ zs).length ≤ 4 →
    ZonesSampled s adc (before ++ zs) (zs.foldl (fun t z => t.sampleZone adc z) u) := by
  induction zs with
  | nil => exact fun h _ _ => by rwa [List.append_nil]
  | cons z zs ih =>
    intro before u h once few
    have fresh : z ∉ before := fun hz => (List.nodup_append.1 once).2.2 z hz z List.mem_cons_self rfl
    have count : before.length ≤ 3 := by
      rw [List.length_append, List.length_cons] at few
      omega
    rw [List.append_cons] at once few ⊢
    exact ih (h.sampleZone fresh count) once few

/-- Every zone sampled. -/
theorem State.sampleZones_sampled (s : State) (adc : Vector (Option Int) 8) :
    ZonesSampled s adc zoneIxs (zoneIxs.foldl (fun t z => t.sampleZone adc z) s) :=
  ZonesSampled.foldl (before := []) zoneIxs ⟨Told.nil s, fun _ => rfl⟩ (List.nodup_finRange 4) (by simp [zoneIxs])

end

/-! ## The doses at a thermal sample (R129, R131, R133 to R135) -/

theorem thermalZone_eq {mm : Nat} {z : ZoneIx} (beyond : 200 ≤ mm)
    (hz : z.val = if mm < 1350 then 0 else if mm < 2500 then 1 else if mm < 3650 then 2 else 3) :
    thermalZone mm = some z := by
  have named (k : ZoneIx) (h : z.val = k.val) : some k = some z := congrArg some (Fin.ext h.symm)
  unfold thermalZone
  rw [if_neg (by omega)]
  split at hz
  · rw [if_pos ‹_›]; exact named 0 hz
  · rw [if_neg ‹_›]
    split at hz
    · rw [if_pos ‹_›]; exact named 1 hz
    · rw [if_neg ‹_›]
      split at hz
      · rw [if_pos ‹_›]; exact named 2 hz
      · rw [if_neg ‹_›]; exact named 3 hz

section
variable (rates : List Nat) (z : ZoneSense) (r : CarrierRecord)

theorem thermalStep_flags : (thermalStep rates z r).cureUnknown = (r.cureUnknown || decide (z.cond = .lost)) ∧
    (thermalStep rates z r).uvDose = r.uvDose := by
  unfold thermalStep
  by_cases lost : z.cond = .lost
  · rcases z.temp with _ | t <;> simp [lost]
  · rcases z.temp with _ | t <;> simp [lost]

theorem thermalStep_of_none (h : z.temp = none) :
    (thermalStep rates z r).thermalDose = r.thermalDose ∧ (thermalStep rates z r).peak = r.peak := by
  unfold thermalStep
  rw [h]
  dsimp only
  split
  · exact ⟨rfl, rfl⟩
  · exact ⟨rfl, rfl⟩

theorem thermalStep_of_some {t : Int} (h : z.temp = some t) :
    (thermalStep rates z r).thermalDose = min (r.thermalDose + cureRate rates t) 2147483647 ∧
      (thermalStep rates z r).peak = some ((r.peak.map fun x => max x t).getD t) := by
  unfold thermalStep
  rw [h]
  refine ⟨rfl, ?_⟩
  rcases r.peak with _ | x
  · rfl
  · rfl

end

/-- A thermal sample is that of the zones, then that of the doses, at its line time (R120, R131). -/
theorem State.thermalSample_eq (s : State) (adc : Vector (Option Int) 8) : ∃ t : State,
    s.thermalSample adc = (zoneIxs.foldl (fun u z => u.sampleZone adc z) t).thermalDoses ∧ t.ltk = s.ltk ∧ t.rsc = s.rsc ∧
      t.liu = s.liu ∧ t.now = s.sampleTime 1000 s.ctc.thermalAt ∧ t.lmf.mode = s.lmf.mode ∧
      t.ctc = { s.ctc with thermalAt := s.sampleTime 1000 s.ctc.thermalAt } :=
  ⟨_, rfl, rfl, rfl, rfl, rfl, rfl, rfl⟩

theorem Stays.beltRecords {s t : State} (h : Stays s t) : t.beltRecords = s.beltRecords :=
  congrArg₂ (· ++ ·) (h.order .lane1) (h.order .lane2)

theorem State.thermalDoses_follows {s : State} (once : s.beltRecords.Nodup) :
    (∃ v, s.thermalDoses = s.withTable v) ∧ ∀ i, s.thermalDoses.rec? i = (s.rec? i).map fun r =>
      if i ∈ s.beltRecords ∧ r.status.isLive = true then thermalDoseStep (s.ratesOf i) s.ctc.zones r else r :=
  State.foldl_modLive_follows (fun i => thermalDoseStep (s.ratesOf i) s.ctc.zones) once s

/-- The record of a carrier that a fault has left as it was, but for its hold part and its film. -/
theorem Stays.rec? {s t : State} (h : Stays s t) {i : RecIx} {r : CarrierRecord} (hr : s.rec? i = some r) :
    ∃ r', t.rec? i = some r' ∧ r'.core = r.core := by
  have core := h.cores i
  rw [hr] at core
  exact Option.map_eq_some_iff.1 core

/-- What the tunnel reads and writes of a record is no part of its hold or of its film. -/
theorem CarrierRecord.tunnel_of_core {q r : CarrierRecord} (h : q.core = r.core) :
    (q.status = r.status ∧ q.slot = r.slot ∧ q.posInLane = r.posInLane) ∧
      q.cureUnknown = r.cureUnknown ∧ q.uvDose = r.uvDose ∧ q.thermalDose = r.thermalDose ∧ q.peak = r.peak := by
  simp only [CarrierRecord.core, CarrierRecord.mk.injEq] at h
  simp only [h, and_self]

theorem tooHot_iff (v : Option Int) : tooHot v = true ↔ ∃ t, v = some t ∧ 2300 < t := by
  rcases v with _ | t
  · simp [tooHot]
  · exact decide_eq_true_iff.trans (by simp [Config.overtemp])

theorem tooHot_eq_false_iff (v : Option Int) : tooHot v = false ↔ ∀ t, v = some t → t ≤ 2300 := by
  rcases v with _ | t
  · simp [tooHot]
  · exact decide_eq_false_iff_not.trans (by simp [Config.overtemp])

/-- The line after a thermal sample of the zones, before that of the doses. -/
structure ThermalZones (s : State) (adc : Vector (Option Int) 8) (w : State) : Prop where
  clock : w.lmf.clock = s.sampleTime 1000 s.ctc.thermalAt
  zones : ∀ z : ZoneIx, w.ctc.zones[z] = zoneAfter w.lmf.clock s.ctc.zones[z] (s.zoneReadings adc z)
  belts : w.beltRecords = s.beltRecords
  recs : ∀ i r, s.rec? i = some r → ∃ r', w.rec? i = some r' ∧ r'.core = r.core
  rsc : w.rsc = s.rsc
  raised : ∀ z : ZoneIx, ∀ p ∈ zoneTells z s.ctc.zones[z] w.ctc.zones[z], w.lmf.record.flag p.1.cls = true ∧
    (s.liu.reports.length < 8 → ∃ x ∈ w.liu.reports.drop s.liu.reports.length, ∃ e,
      x.body = .fault p.1.cls e ∧ e.code = p.1 ∧ e.origin = .ctc ∧ e.time = w.lmf.clock ∧ e.detail.zone = some p.2)
  stop : ∀ z : ZoneIx, ∀ p ∈ zoneTells z s.ctc.zones[z] w.ctc.zones[z], p.1.cls = .fatal → w.lmf.mode = .stop
  mode : (∀ z : ZoneIx, ∀ p ∈ zoneTells z s.ctc.zones[z] w.ctc.zones[z], p.1.cls ≠ .fatal) → w.lmf.mode = s.lmf.mode

theorem State.thermalSample_zones (s : State) (adc : Vector (Option Int) 8) :
    ∃ w, s.thermalSample adc = w.thermalDoses ∧ ThermalZones s adc w := by
  obtain ⟨b, sampled, ltk, rsc, liu, now, mode, ctc⟩ := s.thermalSample_eq adc
  refine ⟨_, sampled, ?_⟩
  obtain ⟨told, zones⟩ := b.sampleZones_sampled adc
  generalize zoneIxs.foldl (fun u z => u.sampleZone adc z) b = w at told zones
  have clock : w.lmf.clock = b.now := told.stays.now
  have all (z : ZoneIx) : z ∈ zoneIxs := List.mem_finRange z
  have old : b.ctc.zones = s.ctc.zones := by rw [ctc]
  have next (z : ZoneIx) : b.zoneNext adc z = w.ctc.zones[z] := ((zones z).trans (if_pos (all z))).symm
  have tells (p : FaultCode × ZoneIx) : (p ∈ zoneIxs.flatMap fun z => zoneTells z b.ctc.zones[z] (b.zoneNext adc z)) ↔
      ∃ z : ZoneIx, p ∈ zoneTells z s.ctc.zones[z] w.ctc.zones[z] := by
    simp only [List.mem_flatMap, next, old, all, true_and]
  refine ⟨clock.trans now, fun z => ?zones, told.stays.beltRecords.trans ?belts, fun i r hr => ?recs,
    told.stays.rsc.trans rsc, fun z p hp => ?raised, fun z p hp => told.stop p ((tells p).2 ⟨z, hp⟩), fun none => ?mode⟩
  case zones =>
    rw [← next, clock, State.zoneNext, old]
    exact congrArg (zoneAfter _ _) (by simp only [State.zoneReadings, rsc])
  case belts => simp only [State.beltRecords, ctc]
  case recs => exact told.stays.rec? ((State.rec?_of_ltk ltk i).trans hr)
  case raised =>
    have listed := (tells p).2 ⟨z, hp⟩
    have report := told.reported
    rw [liu] at report
    refine ⟨told.flagged p listed, fun room => ?_⟩
    obtain ⟨x, hx, e, body, code, origin, time, zone⟩ := report room p listed
    exact ⟨x, hx, e, body, code, origin, time.trans clock.symm, zone⟩
  case mode =>
    refine (told.mode fun p hp => ?_).trans mode
    obtain ⟨z, hz⟩ := (tells p).1 hp
    exact none z p hz

/-- The record of a live carrier on a belt beyond the UV zone after a thermal sample, the faults of its zones taken first. -/
theorem ThermalZones.dosed {s w : State} {adc : Vector (Option Int) 8} (h : ThermalZones s adc w) {i : RecIx}
    (once : s.beltRecords.Nodup) (on : i ∈ s.beltRecords) {r : CarrierRecord} (hr : s.rec? i = some r)
    (hl : r.status.isLive = true) {p : Recipe} (hp : s.recipeOf i = some p) {mm : Nat} (hmm : r.posInLane = some mm)
    {z : ZoneIx} (hz : thermalZone mm = some z) :
    ∃ q, w.thermalDoses.rec? i = some (thermalStep p.cure.rates w.ctc.zones[z] q) ∧ q.core = r.core := by
  obtain ⟨q, hq, core⟩ := h.recs i r hr
  obtain ⟨⟨status, slot, place⟩, -⟩ := CarrierRecord.tunnel_of_core core
  have live : q.status.isLive = true := by rwa [status]
  have recipe : w.recipeOf i = some p := (State.recipeOf_of_slot hr hq slot h.rsc).trans hp
  have rates : w.ratesOf i = p.cure.rates := by rw [State.ratesOf, recipe]
  refine ⟨q, ?_, core⟩
  rw [(State.thermalDoses_follows (h.belts ▸ once)).2 i, hq, Option.map_some, if_pos ⟨h.belts ▸ on, live⟩, rates,
    thermalDoseStep, place, hmm]
  dsimp only
  rw [hz]

/-! ## The statement -/

/-- Settles O56: the UV sample by the lamp and the doses, the thermal sample by its zones, their faults and the doses. -/
theorem samplesAddDose : Obligations.SamplesAddDose := by
  refine ⟨fun s raw once => ?uv, fun s adc once => ?thermal⟩
  case uv =>
    obtain ⟨t, sampled, ltk, rsc, clock, ctc⟩ := s.uvSample_eq raw
    obtain ⟨v, b, lampCtc⟩ := t.lampSample_ctc
    have kept := t.lampSample_keeps
    have belts : t.lampSample.beltRecords = s.ctc.lane1.order ++ s.ctc.lane2.order := by
      rw [State.beltRecords, lampCtc, ctc]
    obtain ⟨⟨table, dosed⟩, records⟩ := State.uvDoses_follows (s := t.lampSample) (by rwa [belts])
    have measured : t.lampSample.ctc.measured = irradianceOf raw s.rsc.live.gain := by rw [lampCtc, ctc]
    have lamp : LampFollows s.ctc.lamp t.lampSample.ctc.lamp t.lampSample.ctc.measured s.rsc.live.lampMin := by
      have follows := t.lampSample_follows
      rw [ctc, rsc] at follows
      rw [measured]
      exact follows
    have kinds : t.lampSample.ctc.zones = s.ctc.zones ∧ t.lampSample.ctc.lane1 = s.ctc.lane1 ∧
        t.lampSample.ctc.lane2 = s.ctc.lane2 := by
      rw [lampCtc, ctc]
      exact ⟨rfl, rfl, rfl⟩
    obtain ⟨zones, lane1, lane2⟩ := kinds
    have same (i : RecIx) : t.lampSample.rec? i = s.rec? i := State.rec?_of_ltk ((kept.ltk rfl).trans ltk) i
    refine ⟨t.lampSample.withTable table, State.goesOn_congr (sampled.trans dosed), measured.trans ?measured, (kept.clock rfl).trans clock,
      zones, lane1, lane2, fun hs => ⟨lamp.readyFalls hs, lamp.readyCounts hs, lamp.readyStays hs⟩,
      fun hs => ⟨lamp.lowRises hs, lamp.lowCounts hs, lamp.lowStays hs⟩, fun i => ?records⟩
    case measured =>
      cases raw with
      | none => rfl
      | some v => rfl
    case records =>
      have gained := records i
      rw [dosed, belts, same i] at gained
      exact gained
  case thermal =>
    obtain ⟨w, sampled, zoned⟩ := s.thermalSample_zones adc
    obtain ⟨⟨table, dosed⟩, -⟩ := State.thermalDoses_follows (s := w) (by rw [zoned.belts]; exact once)
    refine ⟨w.withTable table, State.goesOn_congr (sampled.trans dosed), zoned.clock, fun z => (zoned.zones z).trans ?zone,
      ⟨fun z => ⟨?degraded, ?lost, ?overtemp⟩, ?stop, ?mode⟩, fun i r p mm z on hr hl hp hmm beyond hz => ?dose⟩
    case zone =>
      rcases s.zoneReadings adc z with ⟨_ | a, _ | b⟩
      · rcases s.ctc.zones[z] with ⟨cond, v, x⟩
        cases cond with
        | normal | degraded | lost => rfl
        | holding =>
          rcases x with _ | x
          · rfl
          · unfold zoneAfter
            dsimp only
            split
            · rw [if_pos ‹_›]
            · rw [if_neg ‹_›]
      all_goals rfl
    case degraded =>
      intro becomes
      exact zoned.raised z _ (mem_zoneTells.2 (.inl ⟨rfl, becomes⟩))
    case lost =>
      intro becomes
      exact zoned.raised z _ (mem_zoneTells.2 (.inr (.inl ⟨rfl, becomes⟩)))
    case overtemp =>
      rintro ⟨hot, was⟩
      exact zoned.raised z _ (mem_zoneTells.2 (.inr (.inr ⟨rfl, (tooHot_iff _).2 hot, (tooHot_eq_false_iff _).2 was⟩)))
    case stop =>
      rintro ⟨z, becomes | ⟨hot, was⟩⟩
      · exact zoned.stop z _ (mem_zoneTells.2 (.inr (.inl ⟨rfl, becomes⟩))) rfl
      · exact zoned.stop z _
          (mem_zoneTells.2 (.inr (.inr ⟨rfl, (tooHot_iff _).2 hot, (tooHot_eq_false_iff _).2 was⟩))) rfl
    case mode =>
      intro none
      refine zoned.mode fun z q hq => ?_
      rcases mem_zoneTells.1 hq with ⟨rfl, -⟩ | ⟨-, becomes⟩ | ⟨-, hot, was⟩
      · exact nofun
      · exact absurd becomes (none z).1
      · exact absurd ⟨(tooHot_iff _).1 hot, (tooHot_eq_false_iff _).1 was⟩ (none z).2
    case dose =>
      obtain ⟨q, hq, core⟩ := zoned.dosed once on hr hl hp hmm (thermalZone_eq beyond hz)
      obtain ⟨-, flag, uv, thermal, peak⟩ := CarrierRecord.tunnel_of_core core
      obtain ⟨flagged, kept⟩ := thermalStep_flags p.cure.rates w.ctc.zones[z] q
      rw [dosed] at hq
      refine ⟨_, hq, by rw [flagged, flag]; rfl, kept.trans uv, ?_⟩
      split
      · rename_i absent
        obtain ⟨same, samePeak⟩ := thermalStep_of_none p.cure.rates w.ctc.zones[z] q absent
        exact ⟨same.trans thermal, samePeak.trans peak⟩
      · rename_i t there
        obtain ⟨gained, highest⟩ := thermalStep_of_some p.cure.rates w.ctc.zones[z] q there
        rw [thermal] at gained
        rw [peak] at highest
        refine ⟨gained, highest.trans ?_⟩
        rcases r.peak with _ | x
        · rfl
        · rfl

end Sys2Proof.Machine
end

section
/-! SUPPORT. What the requests and the Bench Link's silence do to the records, STRIP, ADMIT and the closing dispositions
apart: every record left comes from the one at its index, within its limits and with no dose lowered (`NoNew`; R5, R133). -/

namespace Sys2Proof.Machine

/-! ## Composing -/

theorem NoNew.of_ltk {s t : State} (h : t.ltk = s.ltk) : NoNew s t := fun i r' hr' =>
  ⟨r', (State.rec?_of_ltk h i).symm.trans hr', RecStep.refl r'⟩

/-- One operation more. -/
theorem NoNew.step {b : Blocks} {s t u : State} (h : NoNew s t) (k : Keeps b t u) : NoNew s u := h.trans k.recs

theorem NoNew.of_free {s t : State} (h : ∀ i, t.rec? i = none) : NoNew s t := fun i r' hr' => by
  rw [h i] at hr'
  cases hr'

theorem NoNew.foldl {α : Type} {f : State → α → State} (hf : ∀ t a, NoNew t (f t a)) (xs : List α) (s : State) :
    NoNew s (xs.foldl f s) := by
  induction xs generalizing s with
  | nil => exact NoNew.refl s
  | cons x xs ih => exact (hf s x).trans (ih _)

/-- A record freed. -/
theorem State.setRec_none_noNew (s : State) (i : RecIx) : NoNew s (s.setRec i none) :=
  (s.setRec_keeps i none fun _ h => nomatch h).recs

/-! ## An answer's state -/

section
variable {P : State → Prop} {s : State} (hs : P s)
include hs

theorem State.unless_state (c : Bool) (st : ReplyStatus) {a : Answer} (h : P a.1) : P (s.unless c st a).1 := by
  unfold State.unless
  split
  · exact h
  · exact hs

theorem State.withRec_state (b : Byte) {f : RecIx → Answer} (h : ∀ i, P (f i).1) : P (s.withRec b f).1 := by
  unfold State.withRec
  split
  · exact h _
  · exact hs

theorem State.withCode_state {α : Type} (v : Option α) {f : α → Answer} (h : ∀ a, v = some a → P (f a).1) :
    P (s.withCode v f).1 := by
  unfold State.withCode
  split
  · exact h _ rfl
  · exact hs

end

/-! ## The line mode and LINE_CLEAR (R164 to R169) -/

/-- LINE_MODE_SET is refused, or sets a mode. -/
theorem State.doModeSet_state (s : State) (m : LineMode) :
    (s.doModeSet m).1 = s ∨ ∃ x, (s.doModeSet m).1 = s.setMode x .lineModeSet := by
  have sets (x : LineMode) (c : Bool) (st : ReplyStatus) :
      (s.unless c st ((s.setMode x .lineModeSet).ok [])).1 = s ∨
        ∃ y, (s.unless c st ((s.setMode x .lineModeSet).ok [])).1 = s.setMode y .lineModeSet :=
    State.unless_state (P := fun t => t = s ∨ ∃ y, t = s.setMode y .lineModeSet) (.inl rfl) c st (.inr ⟨x, rfl⟩)
  unfold State.doModeSet
  split
  case h_1 | h_4 => exact sets _ _ _
  case h_2 | h_3 | h_5 | h_6 | h_7 => exact .inl rfl
  all_goals exact .inr ⟨_, rfl⟩

theorem State.doModeSet_noNew (s : State) (m : LineMode) : NoNew s (s.doModeSet m).1 := by
  rcases s.doModeSet_state m with e | ⟨x, e⟩
  · rw [e]
    exact NoNew.refl s
  · rw [e]
    exact (s.setMode_keeps x _).recs

theorem State.doResume_noNew (s : State) : NoNew s s.doResume.1 := by
  unfold State.doResume
  split
  · exact NoNew.refl s
  · split
    · exact NoNew.refl s
    · exact (s.setMode_keeps .pause .resume).recs

theorem State.clearBlocks_rec (s : State) (i : RecIx) : s.clearBlocks.rec? i = none := by
  unfold State.clearBlocks
  simp [State.rec?, Ltk.lineClear]

theorem State.doLineClear_noNew (s : State) : NoNew s s.doLineClear.1 := by
  have cleared : NoNew s s.clearBlocks := NoNew.of_free s.clearBlocks_rec
  unfold State.doLineClear
  split
  · exact NoNew.refl s
  · dsimp only [State.ok]
    split
    · exact (cleared.step (State.dropRead_keeps _ .load)).step (State.beginArrival_keeps _)
    · exact cleared

/-! ## Records removed and taken (R15, R16, R25) -/

theorem State.doRemove_noNew (s : State) (i : RecIx) : NoNew s (s.doRemove i).1 := by
  have pending := s.modRec_keeps i (fun r => { r with removalPending := true })
    (fun _ ok => ⟨{ ok with }, le_refl _, le_refl _⟩) fun _ h => h
  unfold State.doRemove
  split
  · exact NoNew.refl s
  · split
    · exact pending.recs
    all_goals exact (s.retire_keeps i .removed).recs

theorem State.doMarkClear_noNew (s : State) (id : TagId) : NoNew s (s.doMarkClear id).1 := by
  unfold State.doMarkClear
  split
  · exact NoNew.refl s
  · exact State.unless_state (NoNew.refl s) _ _ (s.askWrite_keeps .load 0 (.markClear id)).recs

theorem State.doTraceTake_noNew (s : State) (i : RecIx) : NoNew s (s.doTraceTake i).1 := by
  unfold State.doTraceTake
  split
  · exact State.unless_state (NoNew.refl s) _ _ ((s.setRec_none_noNew i).step (State.rematch_keeps _ _ _))
  · exact NoNew.refl s

/-! ## Holds (R144, R150 to R154) -/

/-- A hold part with its texts or its claim changed. -/
theorem State.modHold_noNew (s : State) (i : RecIx) (f : Hold → Hold) (hf : ∀ h, HoldStep h (f h)) :
    NoNew s (s.modHold i f) := (s.modHold_keeps i f hf).recs

theorem State.doHoldPlace_noNew (s : State) (i : RecIx) (v : Severity) : NoNew s (s.doHoldPlace i v).1 := by
  unfold State.doHoldPlace
  split
  · split
    case h_1 | h_2 => exact (s.raiseReason_keeps i .ordered v).recs
    all_goals exact NoNew.refl s
  · exact NoNew.refl s

theorem State.doHoldRead_noNew (s : State) (l : Link) (i : RecIx) : NoNew s (s.doHoldRead l i).1 := by
  unfold State.doHoldRead
  split
  · exact NoNew.refl s
  · cases l with
    | host => exact NoNew.refl s
    | bench => exact (s.instructionRead_keeps i _).recs

theorem State.doHoldClaim_noNew (s : State) (l : Link) (i : RecIx) : NoNew s (s.doHoldClaim l i).1 := by
  unfold State.doHoldClaim
  split
  · exact NoNew.refl s
  · split
    · exact (s.setClaim_keeps i _).recs
    · exact State.unless_state (NoNew.refl s) _ _ (NoNew.refl s)

theorem State.doHoldUnclaim_noNew (s : State) (l : Link) (i : RecIx) : NoNew s (s.doHoldUnclaim l i).1 := by
  unfold State.doHoldUnclaim
  split
  · exact NoNew.refl s
  · exact State.unless_state (NoNew.refl s) _ _ (s.setClaim_keeps i none).recs

theorem State.doInstructionPost_noNew (s : State) (i : RecIx) (text : List Byte) :
    NoNew s (s.doInstructionPost i text).1 := by
  unfold State.doInstructionPost
  split
  · exact NoNew.refl s
  · exact State.unless_state (NoNew.refl s) _ _ (s.modHold_noNew i _ fun _ => HoldStep.of_eq rfl rfl)

theorem State.doFindingPost_noNew (s : State) (i : RecIx) (text : List Byte) : NoNew s (s.doFindingPost i text).1 := by
  have posted := (s.modHold_noNew i (fun h => { h with finding := newText text }) fun _ => HoldStep.of_eq rfl rfl).step
    (State.holdChanged_keeps _ i .finding)
  unfold State.doFindingPost
  split
  · exact NoNew.refl s
  · split
    case h_3 => exact State.unless_state (NoNew.refl s) _ _ posted
    all_goals exact NoNew.refl s

theorem State.doFindingRead_noNew (s : State) (i : RecIx) : NoNew s (s.doFindingRead i).1 := by
  unfold State.doFindingRead
  split
  · exact NoNew.refl s
  · split
    · exact NoNew.refl s
    · exact s.modHold_noNew i _ fun _ => HoldStep.of_eq rfl rfl

theorem State.dropClaim_noNew (s : State) (i : RecIx) : NoNew s (s.dropClaim i) := by
  unfold State.dropClaim
  split
  · split
    · split
      · exact (s.setClaim_keeps i none).recs
      · exact NoNew.refl s
    · exact NoNew.refl s
  · exact NoNew.refl s

theorem State.benchSilence_noNew (s : State) : NoNew s s.benchSilence := by
  unfold State.benchSilence
  split
  · rename_i t _
    refine NoNew.trans ?_ (NoNew.foldl State.dropClaim_noNew recIxs _)
    exact (s.expire_keeps t).recs
  · exact NoNew.refl s

/-! ## Rework dispositions but STRIP (R155 to R159) -/

theorem disposeRefusal_none_passAllows {l : Link} {d : Disposition} {r : CarrierRecord} {h : Hold}
    (hd : disposeRefusal l d r h = none) : passAllows r.pass l d = true := by
  unfold disposeRefusal at hd
  split_ifs at hd with _ _ _ _ _ forbidden
  simpa using forbidden

/-- No rework disposition stands in pass 3 (R156). -/
theorem passAllows_rework {n : Nat} {l : Link} {d : Disposition} (hd : closingOf d = none) (h : passAllows n l d = true) :
    n ≠ 3 := by
  simpa [passAllows, hd] using h

/-- A hold part disposed before pass 3. -/
theorem RecStep.disposed {r : CarrierRecord} {h : Hold} (hr : r.hold = some h) (hp : r.pass ≠ 3) (d : Disposition) (l : Link)
    (now : LineTime) : RecStep r { r with hold := some (h.disposed d l now) } := fun ok =>
  ⟨{ ok with
     disposed := fun _ _ _ => Nat.le_of_lt_succ (lt_of_le_of_ne ok.passHigh hp)
     reasons := fun k e => by cases e; exact ok.reasons h hr }, le_refl _, le_refl _⟩

theorem State.rework_noNew {s : State} {i : RecIx} {r : CarrierRecord} {h : Hold} (hr : s.rec? i = some r)
    (hh : r.hold = some h) (hp : r.pass ≠ 3) {d : Disposition} (hd : d ≠ .strip) (l : Link) :
    NoNew s (s.rework i r h d l) := by
  unfold State.rework
  dsimp only
  rw [if_neg hd]
  have disposed := s.setRec_keeps i (some { r with hold := some (h.disposed d l s.now) }) fun r' e => by
    cases e
    exact ⟨r, hr, RecStep.disposed hh hp d l s.now⟩
  exact (disposed.recs.step (State.holdChanged_keeps _ i _)).step (State.rematch_keeps _ _ _)

end Sys2Proof.Machine
end

section
/-! PROOF. No command but a STRIP lowers a dose of a record that stays in use (R133). -/

namespace Sys2Proof.Machine

/-! ## Doses kept or increased -/

/-- From `s` to `t` no dose of a record that stays in use falls, given that the records of `s` keep their limits. -/
def KeepsDoses (s t : State) : Prop :=
  RecordLaw s → ∀ i r r', s.rec? i = some r → t.rec? i = some r' →
    r.thermalDose ≤ r'.thermalDose ∧ r.uvDose ≤ r'.uvDose

theorem NoNew.keepsDoses {s t : State} (h : NoNew s t) : KeepsDoses s t := fun law i r r' hr hr' => by
  obtain ⟨q, hq, le⟩ := h i r' hr'
  cases hr.symm.trans hq
  exact (le (law i r hr)).2

theorem KeepsDoses.refl (s : State) : KeepsDoses s s := (NoNew.refl s).keepsDoses

/-- Doses are the table's alone. -/
theorem KeepsDoses.congr {s t s' t' : State} (h : KeepsDoses s t) (hs : ∀ i, s'.rec? i = s.rec? i)
    (ht : ∀ i, t'.rec? i = t.rec? i) : KeepsDoses s' t' := fun law i r r' hr hr' =>
  h (fun j q hq => law j q ((hs j).trans hq)) i r r' ((hs i).symm.trans hr) ((ht i).symm.trans hr')

theorem KeepsDoses.congr_ltk {s t s' t' : State} (h : KeepsDoses s t) (hs : s'.ltk = s.ltk) (ht : t'.ltk = t.ltk) :
    KeepsDoses s' t' := h.congr (State.rec?_of_ltk hs) (State.rec?_of_ltk ht)

/-- A state whose records in use stand in another as they are, from which no dose falls. -/
theorem KeepsDoses.of_stays {s t u : State} (hs : ∀ i r, s.rec? i = some r → t.rec? i = some r) (h : NoNew t u) :
    KeepsDoses s u := fun law i r r' hr hr' => by
  obtain ⟨q, hq, le⟩ := h i r' hr'
  cases (hs i r hr).symm.trans hq
  exact (le (law i r hr)).2

/-! ## ADMIT (R12) -/

/-- The record that ADMIT fills was FREE. -/
theorem State.admitTo_keepsDoses {s : State} {i : RecIx} (hi : s.rec? i = none) (e : LoadEntry) (r : CarrierRecord) :
    KeepsDoses s (s.admitTo i e r) := by
  refine KeepsDoses.of_stays (t := s.setRec i (some r)) (fun j q hq => ?_)
    ((State.setEntry_keeps _ _).recs.step (State.requestLoad_keeps _ i _))
  have other : j ≠ i := by
    rintro rfl
    rw [hi] at hq
    cases hq
  exact (s.setRec_rec?_of_ne other (some r)).trans hq

theorem State.doAdmit_keepsDoses (s : State) (id : TagId) (n : Nat) (serial : List Byte) :
    KeepsDoses s (s.doAdmit id n serial).1 := by
  unfold State.doAdmit
  split
  · exact .refl s
  · split
    · exact .refl s
    · split
      · exact .refl s
      · split
        · exact .refl s
        · rename_i i hi
          split
          · exact .refl s
          · split
            · exact .refl s
            · exact State.admitTo_keepsDoses (State.lowestFree_none hi) _ _

/-! ## Dispositions (R155 to R160) -/

theorem CarrierRecord.offLane_doses (r : CarrierRecord) :
    r.offLane.thermalDose = r.thermalDose ∧ r.offLane.uvDose = r.uvDose := by
  unfold CarrierRecord.offLane
  split <;> exact ⟨rfl, rfl⟩

/-- A closing disposition: the record becomes DONE with its doses, the others are those that `retire` leaves. -/
theorem State.closeOut_keepsDoses {s : State} {i : RecIx} {r : CarrierRecord} (hr : s.rec? i = some r) (h : Hold)
    (d : Disposition) (l : Link) (o : DoneOutcome) : KeepsDoses s (s.closeOut i r h d l o) := by
  have closed (g : List HistoryEntry) (b : ReportBody) :
      KeepsDoses s (((s.setRec i (some { r with hold := none, history := g })).queueReport b).retire i o) := by
    let closing := { r with hold := none, history := g }
    intro law j q q' hq hq'
    by_cases hj : j = i
    · subst hj
      cases hr.symm.trans hq
      have told : ((s.setRec j (some closing)).queueReport b).rec? j = some closing := by simp
      cases (State.retire_rec told o).symm.trans hq'
      obtain ⟨thermal, uv⟩ := (closing.done o).offLane_doses
      exact ⟨thermal.ge, uv.ge⟩
    · obtain ⟨x, hx, le⟩ := (State.queueReport_keeps _ b).recs.step (State.retire_keeps _ i o) j q' hq'
      rw [State.setRec_rec?_of_ne s hj, hq] at hx
      cases hx
      exact (le (law j q hq)).2
  unfold State.closeOut
  dsimp only
  split
  · exact (closed _ _).congr (fun _ => rfl) fun _ => State.askWrite_rec _ _ _ _ _
  · exact closed _ _

theorem State.doHoldDispose_keepsDoses (s : State) (l : Link) (i : RecIx) {d : Disposition} (hd : d ≠ .strip) :
    KeepsDoses s (s.doHoldDispose l i d).1 := by
  unfold State.doHoldDispose
  split
  · exact .refl s
  · rename_i e
    obtain ⟨hr, hh⟩ := State.holdOpenTo_some e
    split
    · exact .refl s
    · split
      · exact .refl s
      · exact State.closeOut_keepsDoses hr _ _ _ _
      · rename_i permitted rework
        exact (State.rework_noNew hr hh (passAllows_rework rework (disposeRefusal_none_passAllows permitted)) hd l).keepsDoses

/-- 0x05 alone is the code of STRIP. -/
theorem dispositionOf_strip {b : Byte} (h : dispositionOf b = some .strip) : b = 0x05 := by
  unfold dispositionOf at h
  split_ifs at h with _ _ _ _ strip
  any_goals cases h
  exact strip

/-! ## Requests (R179) -/

/-- No HOLD_DISPOSE with STRIP. -/
def StripsNot (r : Request) : Prop := ∀ i, r ≠ .holdDispose i 0x05

theorem State.dispatch_keepsDoses (s : State) (l : Link) (tag : Byte) {r : Request} (hr : StripsNot r) :
    KeepsDoses s (s.dispatch l tag r).1 := by
  have apart (h : (partsOfRequest r).ltk = false) : KeepsDoses s (s.dispatch l tag r).1 :=
    (NoNew.of_ltk ((s.dispatch_onlyIn l tag r).ltk h)).keepsDoses
  have refl := NoNew.refl s
  cases r with
  | lineModeSet m => exact (State.withCode_state refl _ fun m _ => s.doModeSet_noNew m).keepsDoses
  | resume => exact s.doResume_noNew.keepsDoses
  | lineClear => exact s.doLineClear_noNew.keepsDoses
  | admitCarrier id n serial => exact s.doAdmit_keepsDoses id _ serial
  | remove i => exact (State.withRec_state refl i s.doRemove_noNew).keepsDoses
  | markClear id => exact (s.doMarkClear_noNew id).keepsDoses
  | traceTake i => exact (State.withRec_state refl i s.doTraceTake_noNew).keepsDoses
  | holdPlace i v =>
    exact (State.withRec_state refl i fun i => State.withCode_state refl _ fun v _ => s.doHoldPlace_noNew i v).keepsDoses
  | holdRead i => exact (State.withRec_state refl i (s.doHoldRead_noNew l)).keepsDoses
  | holdClaim i => exact (State.withRec_state refl i (s.doHoldClaim_noNew l)).keepsDoses
  | holdUnclaim i => exact (State.withRec_state refl i (s.doHoldUnclaim_noNew l)).keepsDoses
  | instructionPost i text => exact (State.withRec_state refl i fun i => s.doInstructionPost_noNew i text).keepsDoses
  | findingPost i text => exact (State.withRec_state refl i fun i => s.doFindingPost_noNew i text).keepsDoses
  | findingRead i => exact (State.withRec_state refl i s.doFindingRead_noNew).keepsDoses
  | holdDispose i b =>
    refine State.withRec_state (.refl s) i fun j => State.withCode_state (.refl s) _ fun d hb => ?_
    refine s.doHoldDispose_keepsDoses l j fun strip => hr i ?_
    rw [dispositionOf_strip (hb.trans (congrArg some strip))]
  | cellAbort c =>
    refine (State.withCode_state refl _ fun c _ => ?_).keepsDoses
    unfold State.doCellAbort
    split
    · exact (s.abandonProgram_keeps c _ _ _ _ _ _).recs
    · exact refl
  | identify | lineStatus | faultRead | carrierRead | benchList | slotList | lineConfig | faultAck | cellHome | cellClear
  | headClear | lampSet | storeRead | storeWrite | recipeCheck => exact apart rfl

/-- What a screened frame leaves of the table is what its dispatch leaves, or all of it. -/
theorem State.screen_ltk (s : State) (l : Link) (kind tag : Byte) (r : Option Request) :
    (s.screen l kind tag r).ltk = s.ltk ∨ ∃ q, r = some q ∧ (s.screen l kind tag r).ltk = (s.dispatch l tag q).1.ltk := by
  have answered : (s.screenRequest l kind tag r).1.ltk = s.ltk ∨
      ∃ q, r = some q ∧ (s.screenRequest l kind tag r).1.ltk = (s.dispatch l tag q).1.ltk := by
    unfold State.screenRequest
    split
    · exact .inl rfl
    · split
      · exact .inl rfl
      · split
        · exact .inl rfl
        · rename_i q
          split
          · exact .inl rfl
          · split
            · exact .inl rfl
            · exact .inr ⟨q, rfl, rfl⟩
  unfold State.screen
  split
  · exact .inl rfl
  · unfold Answer.deliver
    split
    · simpa using answered
    · exact answered

/-- What a frame leaves of the table is what the dispatch of its request leaves, once its link is heard, or all of it. -/
theorem State.take_ltk (s : State) (l : Link) (f : Frame) (r : Option Request) :
    (s.take l f r).ltk = s.ltk ∨
      ∃ (t : State) (q : Request), t.ltk = s.ltk ∧ r = some q ∧ (s.take l f r).ltk = (t.dispatch l f.tag q).1.ltk := by
  have screened (t : State) (ht : t.ltk = s.ltk) : (t.screen l f.kind f.tag r).ltk = s.ltk ∨
      ∃ (u : State) (q : Request), u.ltk = s.ltk ∧ r = some q ∧
        (t.screen l f.kind f.tag r).ltk = (u.dispatch l f.tag q).1.ltk :=
    (t.screen_ltk l f.kind f.tag r).imp (·.trans ht) fun ⟨q, hq, e⟩ => ⟨t, q, ht, hq, e⟩
  unfold State.take
  split
  · exact .inl rfl
  · cases l with
    | bench =>
      dsimp only
      split
      · exact .inl rfl
      · exact screened s.benchHeard rfl
    | host =>
      dsimp only
      split
      · exact .inl rfl
      · split
        · exact .inl rfl
        · exact screened s rfl

theorem State.takeRequest_keepsDoses (s : State) (l : Link) (tag : Byte) {r : Request} (hr : StripsNot r) :
    KeepsDoses s (s.takeRequest l tag r) := by
  rcases s.take_ltk l (frameOf tag r) (if r.lengthOk then some r else none) with e | ⟨t, q, ht, hq, e⟩
  · exact (NoNew.of_ltk e).keepsDoses
  · split at hq
    · cases hq
      exact (t.dispatch_keepsDoses l _ hr).congr_ltk ht.symm e
    · cases hq

/-! ## The other commands -/

theorem State.estopEvent_noNew (s : State) : NoNew s s.estopEvent := by
  unfold State.estopEvent
  split
  · exact NoNew.refl s
  · split
    · exact (s.setEstop_keeps true).recs
    · exact s.estopActive_keeps.recs

theorem State.powerOn_rec (s : State) (fast : Bool) (i : RecIx) : (s.powerOn fast).rec? i = none := by
  simp [State.powerOn, State.rec?, Ltk.reset]

theorem State.accessEnd_noNew (s : State) (a : Access) : NoNew s (s.accessEnd a) := by
  have closed := s.closePort_keeps.recs
  unfold State.accessEnd
  split
  · exact closed.step (State.handRead_keeps _ _ _)
  · rename_i o data _
    have put : NoNew s.closePort (s.closePort.putStore o data) := NoNew.of_ltk rfl
    exact (closed.trans put).step (State.handWrite_keeps _)

theorem State.accessError_noNew (s : State) (a : Access) : NoNew s (s.accessError a) := by
  have spoiled (t : State) : NoNew t (t.spoil a.op) := NoNew.of_ltk (t.spoil_ltk a.op)
  unfold State.accessError
  exact ((((s.reach_keeps _ _).recs.step (State.closePort_keeps _)).trans (spoiled _)).step
    (State.noteFault_keeps _ _ _ _)).step (State.handError_keeps _ _)

/-- What a command goes on to keeps the doses. -/
def LeadsToKept (s : State) (o : Host.Outcome State Fault Refusal) : Prop := ∀ t, o = .next t → KeepsDoses s t

theorem KeepsDoses.leadsToKept {s u : State} (h : KeepsDoses s u) : LeadsToKept s u.goesOn := fun t e => by
  cases e
  exact h.congr_ltk rfl u.settle_ltk

theorem Keeps.leadsToKept {b : Blocks} {s u : State} (h : Keeps b s u) : LeadsToKept s u.goesOn :=
  h.recs.keepsDoses.leadsToKept

theorem State.endAccess_leadsToKept {s : State} {f : State → Access → State} (hf : ∀ a, NoNew s (f s a)) :
    LeadsToKept s (s.endAccess f) := by
  unfold State.endAccess
  split
  · split
    · exact (hf _).keepsDoses.leadsToKept
    · exact fun _ e => nomatch e
  · exact (KeepsDoses.refl s).leadsToKept

/-- A command that goes on within parts that are none of the Line Tracker's. -/
theorem GoesOnWithin.leadsToKept {c : Instr} {s : State} (h : GoesOnWithin c s) (hc : (commandParts c).ltk = false) :
    LeadsToKept s (exec c s) := by
  obtain ⟨u, e, only⟩ := h
  rw [e]
  exact (NoNew.of_ltk (only.ltk hc)).keepsDoses.leadsToKept

theorem leadsToKept_of_request {c : Instr} {l : Link} {tag : Byte} {r : Request} (h : c.request? = some (l, tag, r))
    (hr : StripsNot r) (s : State) : LeadsToKept s (exec c s) := by
  rw [exec_request h]
  exact (s.takeRequest_keepsDoses l tag hr).leadsToKept

theorem exec_leadsToKept (c : Instr) (s : State) (hframe : ∀ l bytes, c ≠ .frameValid l bytes)
    (hheld : c ≠ .heldFrameScreen) (hstrip : ∀ l tag i, c ≠ .holdDispose l tag i 0x05) : LeadsToKept s (exec c s) := by
  cases c with
  | frameValid l bytes => exact absurd rfl (hframe l bytes)
  | heldFrameScreen => exact absurd rfl hheld
  | por fast => exact (NoNew.of_free (s.powerOn_rec fast)).keepsDoses.leadsToKept
  | storeAccessEnd => exact State.endAccess_leadsToKept s.accessEnd_noNew
  | storeAccessTimeout => exact State.endAccess_leadsToKept s.accessError_noNew
  | emergencyStop => exact s.estopEvent_noNew.keepsDoses.leadsToKept
  | benchSilenceExpiry => exact s.benchSilence_noNew.keepsDoses.leadsToKept
  | storeGrant => exact s.grant_keeps.leadsToKept
  | loadArrival => exact s.loadPresent_keeps.leadsToKept
  | tagReadAttemptEnd p x => exact (s.readEnd_keeps p x).leadsToKept
  | tagWriteAttemptEnd p b => exact (s.writeEnd_keeps p b).leadsToKept
  | loadEntryClear => exact s.loadClear_keeps.leadsToKept
  | moveBegin i => exact (s.moveBegin_keeps i).leadsToKept
  | moveEnd i => exact (s.moveEnd_keeps i).leadsToKept
  | transportTimeout i => exact (s.moveTimeout_keeps i).leadsToKept
  | sourceCleared p => exact (s.sourceClear_keeps p).leadsToKept
  | carrierMissing p => exact (s.carrierMissing_keeps p).leadsToKept
  | carrierLifted p => exact (s.carrierLifted_keeps p).leadsToKept
  | carrierSetBack p => exact (s.setBack_keeps p).leadsToKept
  | doneCarrierLifted p => exact (s.doneLifted_keeps p).leadsToKept
  | benchMoveStart => exact s.benchMoveStart_keeps.leadsToKept
  | walkStart h => exact (s.startWalk_keeps h).leadsToKept
  | channelResult h k reading => exact (s.channelResult_keeps h k reading).leadsToKept
  | groupWaitExpiry h => exact (s.groupWaitExpiry_keeps h).leadsToKept
  | resultTimerExpiry h k => exact (s.resultTimerExpiry_keeps h k).leadsToKept
  | motionEnd x => exact (s.motionEnd_keeps x).leadsToKept
  | gantryTimeout x => exact (s.gantryTimeout_keeps x).leadsToKept
  | starveLimit x => exact (s.starveLimit_keeps x).leadsToKept
  | valveFault x => exact (s.valveFault_keeps x).leadsToKept
  | entryTransferStart => exact s.entryStart_keeps.leadsToKept
  | laneEntryEnd l => exact (s.laneEntryEnd_keeps l).leadsToKept
  | encoderPulse l => exact (s.encoderPulse_keeps l).leadsToKept
  | exitTransferStart => exact s.exitGrant_keeps.leadsToKept
  | exitTransferEnd => exact s.exitEnd_keeps.leadsToKept
  | uvSample raw => exact (s.uvSample_keeps raw).leadsToKept
  | thermalSample adc => exact (s.thermalSample_keeps adc).leadsToKept
  | emergencyStopRelease | frameDiscard | rxGapTimeout | hostTxDone | benchTxDone | positionerArrival
  | inspectPositionTimeout | homeReached | homeTimeout | programStart | seekEnd | leadTimerExpiry | valveCloseTimer
  | gantryHaltReport | warmUpEnd | ballastFault | ballastFaultInactive =>
    exact GoesOnWithin.leadsToKept (exec_goesOnWithin s _ (fun _ h => nomatch h) (fun h => nomatch h) fun h => nomatch h) rfl
  | holdDispose l tag i d =>
    refine leadsToKept_of_request rfl (fun j e => ?_) s
    cases e
    exact hstrip l tag i rfl
  | identify | lineStatus | lineModeSet | resume | lineConfig | lineClear | faultRead | faultAck | admitCarrier | remove
  | markClear | carrierRead | traceTake | holdPlace | holdRead | holdClaim | holdUnclaim | instructionPost | findingPost
  | findingRead | benchList | cellHome | cellAbort | cellClear | headClear | lampSet | storeRead | storeWrite
  | recipeCheck | slotList =>
    refine leadsToKept_of_request rfl (fun _ e => ?_) s
    cases e

/-- Settles O9: every command but a STRIP and the frames that can carry one keeps the doses. -/
theorem dosesNeverDecrease : Obligations.DosesNeverDecrease :=
  fun c s t i r r' law e hframe hheld hstrip hr hr' => exec_leadsToKept c s hframe hheld hstrip t e law i r r' hr hr'

end Sys2Proof.Machine
end

section
/-! PROOF. The cure rate interpolates the rate table, truncated toward zero (R132). -/

namespace Sys2Proof.Machine

/-! ## Interpolation between two rates -/

/-- The rate at `f` hundredths of the way from `a` to `b`, truncated toward zero. -/
def interpolated (a b f : Nat) : Int := a + Int.tdiv (((b : Int) - a) * f) 100

theorem hundredths_lt {n f : Nat} (hf : f < 100) (hn : 0 < n) : n * f / 100 < n :=
  Nat.div_lt_of_lt_mul (by rw [Nat.mul_comm 100]; exact Nat.mul_lt_mul_of_pos_left hf hn)

theorem hundredths_le {f : Nat} (hf : f ≤ 100) (n : Nat) : n * f / 100 ≤ n :=
  Nat.div_le_of_le_mul (by rw [Nat.mul_comm 100]; exact Nat.mul_le_mul_left n hf)

theorem interpolated_up (a n f : Nat) : interpolated a (a + n) f = ((a + n * f / 100 : Nat) : Int) := by
  have rise : (((a + n : Nat) : Int) - a) * f = ((n * f : Nat) : Int) := by push_cast; ring
  rw [interpolated, rise, Nat.cast_add]
  rfl

theorem interpolated_down {n f : Nat} (b : Nat) (h : n * f / 100 ≤ n) :
    interpolated (b + n) b f = ((b + (n - n * f / 100) : Nat) : Int) := by
  have fall : ((b : Int) - (b + n : Nat)) * f = -((n * f : Nat) : Int) := by push_cast; ring
  have part : Int.tdiv ((n * f : Nat) : Int) 100 = ((n * f / 100 : Nat) : Int) := rfl
  rw [interpolated, fall, Int.neg_tdiv, part]
  omega

/-- The interpolated rate lies between the two, both included; it is the first at no distance, and short of the second. -/
theorem interpolated_between {f : Nat} (hf : f < 100) (a b : Nat) :
    ∃ m : Nat, interpolated a b f = m ∧ min a b ≤ m ∧ m ≤ max a b ∧ (f = 0 → m = a) ∧ (a ≠ b → m ≠ b) := by
  have short {n : Nat} (hn : 0 < n) := hundredths_lt hf hn
  have start {n : Nat} (h : f = 0) : n * f / 100 = 0 := by rw [h]; simp
  rcases Nat.lt_or_ge b a with fall | rise
  · obtain ⟨n, rfl⟩ := Nat.exists_eq_add_of_le fall.le
    have part : n * f / 100 < n := short (by omega)
    refine ⟨_, interpolated_down b part.le, by omega, by omega, fun h => ?_, fun _ => by omega⟩
    rw [start h]
    omega
  · obtain ⟨n, rfl⟩ := Nat.exists_eq_add_of_le rise
    have part : n * f / 100 ≤ n := hundredths_le hf.le n
    refine ⟨_, interpolated_up a n f, by omega, by omega, fun h => ?_, fun apart => ?_⟩
    · rw [start h]
      omega
    · have := short (n := n) (by omega)
      omega

/-! ## The rate of a temperature -/

theorem rateAt_eq (rates : List Nat) (k : Nat) : rateAt rates k = (rates.getD k 0 : Int) := by
  rw [rateAt, List.getD_eq_getElem?_getD]

theorem cureRate_below {t : Int} (h : t < 400) (rates : List Nat) : cureRate rates t = 0 := if_pos h

theorem cureRate_above {t : Int} (h : 1900 ≤ t) (rates : List Nat) : cureRate rates t = rates.getD 15 0 := by
  unfold cureRate
  rw [if_neg (by omega), if_pos h, rateAt_eq, Int.toNat_natCast]

theorem cureRate_within {k f : Nat} (hk : k ≤ 14) (hf : f < 100) (rates : List Nat) :
    cureRate rates (400 + 100 * k + f) = (interpolated (rates.getD k 0) (rates.getD (k + 1) 0) f).toNat := by
  have entry : (((400 : Int) + 100 * k + f - 400) / 100).toNat = k := by omega
  have rest : ((400 : Int) + 100 * k + f - 400) % 100 = f := by omega
  unfold cureRate
  rw [if_neg (by omega), if_neg (by omega)]
  simp only [entry, rest, rateAt_eq]
  rfl

/-- A temperature that the table covers lies less than 100 beyond one of the first fifteen entries. -/
theorem exists_tableEntry {t : Int} (low : 400 ≤ t) (high : t < 1900) :
    ∃ k f : Nat, k ≤ 14 ∧ f < 100 ∧ t = 400 + 100 * k + f :=
  ⟨((t - 400) / 100).toNat, ((t - 400) % 100).toNat, by omega, by omega, by omega⟩

theorem getD_le_of_forall {rates : List Nat} {n : Nat} (h : ∀ r ∈ rates, r ≤ n) (k : Nat) : rates.getD k 0 ≤ n := by
  rcases Nat.lt_or_ge k rates.length with hk | hk
  · rw [List.getD_eq_getElem _ _ hk]
    exact h _ (List.getElem_mem hk)
  · rw [List.getD_eq_default _ _ hk]
    exact Nat.zero_le n

theorem cureRate_le {rates : List Nat} (h : ∀ r ∈ rates, r ≤ 1000) (t : Int) : cureRate rates t ≤ 1000 := by
  have entry := getD_le_of_forall h
  rcases lt_or_ge t 400 with low | low
  · rw [cureRate_below low]
    omega
  · rcases lt_or_ge t 1900 with high | high
    · obtain ⟨k, f, hk, hf, rfl⟩ := exists_tableEntry low high
      obtain ⟨m, hm, -, le, -⟩ := interpolated_between hf (rates.getD k 0) (rates.getD (k + 1) 0)
      rw [cureRate_within hk hf, hm, Int.toNat_natCast]
      exact le.trans (max_le (entry k) (entry (k + 1)))
    · rw [cureRate_above high]
      exact entry 15

/-- Settles O59: below the table, above it, and between two of its entries. -/
theorem ratesInterpolateTheTable : Obligations.RatesInterpolateTheTable := by
  intro rates t _ bounded
  refine ⟨fun h => cureRate_below h rates, fun h => cureRate_above h rates, fun k f hk hf ht => ?_, cureRate_le bounded t⟩
  subst ht
  obtain ⟨m, hm, low, high, first, second⟩ := interpolated_between hf (rates.getD k 0) (rates.getD (k + 1) 0)
  have rate : cureRate rates (400 + 100 * k + f) = m := by rw [cureRate_within hk hf, hm, Int.toNat_natCast]
  rw [rate]
  exact ⟨hm.symm, low, high, first, second⟩

end Sys2Proof.Machine
end

section
/-! PROOF. The cure checks, the film stages of a segment, and the verdicts of zones and readings (R54, R93 to R96, R101,
R102, R136). -/

namespace Sys2Proof.Machine

/-! ## The cure checks (R136) -/

theorem mem_one_if {α : Type} (x y : α) (b : Prop) [Decidable b] : (x ∈ if b then [y] else []) ↔ x = y ∧ b := by
  split
  · rename_i h
    simp [h]
  · rename_i h
    simp [h]

theorem peakTooHigh_iff (c : CureSpec) (r : CarrierRecord) :
    peakTooHigh c r = true ↔ ∃ p, r.peak = some p ∧ (c.peakMax : Int) < p := by
  unfold peakTooHigh
  cases r.peak with
  | none => simp
  | some p => simp

theorem mem_cureFailures (c : CureSpec) (r : CarrierRecord) (x : ReasonCode) :
    x ∈ cureFailures c r ↔
      (x = .cureUnknown ∧ r.cureUnknown = true) ∨ (x = .undercureThermal ∧ r.thermalDose < c.thermalTarget) ∨
      (x = .undercureUv ∧ r.uvDose < c.uvTarget) ∨ (x = .overcure ∧ c.thermalMax < r.thermalDose) ∨
      (x = .overtemp ∧ ∃ p, r.peak = some p ∧ (c.peakMax : Int) < p) := by
  simp only [cureFailures, List.mem_append, mem_one_if, peakTooHigh_iff, or_assoc]

/-- Each check gives its own reason, at most once. -/
theorem cureFailures_nodup (c : CureSpec) (r : CarrierRecord) : (cureFailures c r).Nodup := by
  have one (b : Prop) [Decidable b] (x : ReasonCode) : (if b then [x] else []).Sublist [x] := by
    split
    · exact List.Sublist.refl _
    · exact List.nil_sublist _
  have all := ((((one (r.cureUnknown = true) .cureUnknown).append
    (one (r.thermalDose < c.thermalTarget) .undercureThermal)).append (one (r.uvDose < c.uvTarget) .undercureUv)).append
    (one (c.thermalMax < r.thermalDose) .overcure)).append (one (peakTooHigh c r = true) .overtemp)
  exact List.Sublist.nodup all (by decide)

theorem goodFront_iff_passes {s : State} {i : RecIx} {p : Recipe} {r : CarrierRecord} (hp : s.recipeOf i = some p)
    (hr : s.rec? i = some r) : s.goodFront i = true ↔ r.hold = none ∧ cureFailures p.cure r = [] := by
  rw [State.goodFront_iff hr hp]
  refine ⟨fun ⟨q, w, hq, hw, good⟩ => ?_, fun good => ⟨r, p, hr, hp, good⟩⟩
  cases hr.symm.trans hq
  cases hp.symm.trans hw
  exact good

/-! ## The film of a segment (R93 to R96) -/

/-- Neither of the two fractions of a deposit raises it. -/
theorem staged_le (n : Nat) {solids efficiency : Nat} (hs : solids ≤ 1000) (he : efficiency ≤ 100) :
    n * solids / 1000 * efficiency / 100 ≤ n :=
  calc n * solids / 1000 * efficiency / 100
    _ ≤ n * solids / 1000 := Nat.div_le_of_le_mul (by rw [Nat.mul_comm 100]; exact Nat.mul_le_mul_left _ he)
    _ ≤ n := Nat.div_le_of_le_mul (by rw [Nat.mul_comm 1000]; exact Nat.mul_le_mul_left _ hs)

/-- The trail ends within the motion. -/
theorem usedTrail_lt_motionTime (g : Segment) : usedTrail g < motionTime g := by
  unfold usedTrail motionTime
  split
  · exact Nat.zero_lt_two
  · split <;> omega

/-- A MOVE segment lays nothing down. -/
theorem depositOver_zero (m : Material) (ms : Nat) : depositOver m 0 ms = 0 := by simp [depositOver]

/-! ## Verdicts (R54, R102) -/

theorem zoneVerdict_iff (b : Bool) (t : Nat) {z : ZoneSpec} (hz : z.low ≤ z.high) :
    (zoneVerdict b t z = .unknown ↔ b = true) ∧ (zoneVerdict b t z = .low ↔ b = false ∧ t < z.low) ∧
      (zoneVerdict b t z = .high ↔ b = false ∧ z.high < t) ∧
      (zoneVerdict b t z = .ok ↔ b = false ∧ z.low ≤ t ∧ t ≤ z.high) := by
  unfold zoneVerdict
  cases b with
  | true => simp
  | false =>
    by_cases low : t < z.low
    · have under : ¬ z.low ≤ t := Nat.not_le.2 low
      have notHigh : ¬ z.high < t := by omega
      simp [low, under, notHigh]
    · by_cases high : z.high < t
      · simp [low, high]
      · simp [low, high, Nat.not_lt.1 low, Nat.not_lt.1 high]

/-- A reading inside the two counts of a mask point is PRESENT, asked in either order. -/
theorem readingVerdict_mask_within {p : Point} (h : p.OfMask) (n : Nat) :
    readingVerdict p n = if n < p.low then .absent else if n ≤ p.high then .present else .misplaced := by
  rw [readingVerdict_mask h]
  by_cases high : n ≤ p.high
  · rw [if_pos high, if_neg (Nat.not_lt.2 high)]
  · rw [if_neg high, if_pos (Nat.not_le.1 high)]

theorem readingVerdict_keepout {p : Point} (h : p.kind = .keepout) (n : Nat) :
    readingVerdict p n = if n ≤ p.high then .clean else .contaminated := by
  unfold readingVerdict
  rw [h]
  by_cases high : n ≤ p.high
  · rw [if_pos high]
    exact if_neg (Nat.not_lt.2 high)
  · rw [if_neg high]
    exact if_pos (Nat.not_le.1 high)

theorem readingVerdict_cover {p : Point} (h : p.kind = .cover) (n : Nat) :
    readingVerdict p n = if p.low ≤ n then .covered else .void := by
  unfold readingVerdict
  rw [h]
  by_cases low : p.low ≤ n
  · rw [if_pos low]
    exact if_neg (Nat.not_lt.2 low)
  · rw [if_neg low]
    exact if_pos (Nat.not_le.1 low)

/-- Settles O60: the cure checks, the values of a segment, of a zone, and of a reading. -/
theorem cureChecksFilmAndVerdicts : Obligations.CureChecksFilmAndVerdicts := by
  refine ⟨⟨mem_cureFailures, cureFailures_nodup, rfl, rfl, rfl, rfl, rfl, fun s i p r hp hr => goodFront_iff_passes hp hr⟩,
    ?segment, ?thickness, fun b t _ hz => zoneVerdict_iff b t hz, ?reading⟩
  case segment =>
    intro m fmax e g
    have trail : (formValues m fmax .spray e g).trail < (formValues m fmax .spray e g).time := usedTrail_lt_motionTime g
    have lays : (formValues m fmax .move e g).deposit = 0 := depositOver_zero m _
    rw [formValues_eq] at trail ⊢
    exact ⟨rfl, trail, rfl, rfl, rfl, rfl, staged_le _, rfl, lays⟩
  case thickness => exact fun _ _ => rfl
  case reading =>
    intro p x
    cases hk : p.kind with
    | cap => exact readingVerdict_mask_within (.inl hk) x
    | tape => exact readingVerdict_mask_within (.inr (.inl hk)) x
    | boot => exact readingVerdict_mask_within (.inr (.inr (.inl hk))) x
    | plug => exact readingVerdict_mask_within (.inr (.inr (.inr hk))) x
    | keepout => exact readingVerdict_keepout hk x
    | cover => exact readingVerdict_cover hk x

end Sys2Proof.Machine
end

section
/-! PROOF. A raise placed in the reasons list (R141 to R143). -/

namespace Sys2Proof.Machine

/-! ## The order of severities (R141) -/

theorem severityCode_inj : ∀ {a b : Severity}, severityCode a = severityCode b → a = b
  | .minor, .minor, _ | .major, .major, _ | .critical, .critical, _ => rfl

theorem severityCode_max (a b : Severity) : severityCode (a.max b) = max (severityCode a) (severityCode b) := by
  unfold Severity.max
  split <;> omega

theorem severityCode_minor_le (a : Severity) : severityCode .minor ≤ severityCode a := by cases a <;> decide

theorem foldl_severity (rs : List Reason) (a : Severity) :
    rs.foldl (fun v r => v.max r.severity) a = a.max (holdSeverity rs) := by
  induction rs generalizing a with
  | nil => exact (if_neg (Nat.not_lt.2 (severityCode_minor_le a))).symm
  | cons r rs ih =>
    have tail : holdSeverity (r :: rs) = (Severity.minor.max r.severity).max (holdSeverity rs) := ih _
    refine (ih _).trans (severityCode_inj ?_)
    have least := severityCode_minor_le r.severity
    simp only [tail, severityCode_max]
    omega

theorem severityCode_holdSeverity_cons (r : Reason) (rs : List Reason) :
    severityCode (holdSeverity (r :: rs)) = max (severityCode r.severity) (severityCode (holdSeverity rs)) := by
  have least := severityCode_minor_le r.severity
  rw [holdSeverity, List.foldl_cons, foldl_severity, severityCode_max, severityCode_max]
  omega

theorem severityCode_holdSeverity_append (xs ys : List Reason) :
    severityCode (holdSeverity (xs ++ ys)) = max (severityCode (holdSeverity xs)) (severityCode (holdSeverity ys)) := by
  rw [holdSeverity, List.foldl_append, foldl_severity, severityCode_max]
  rfl

/-- The hold severity is that of an entry of the list (R141). -/
theorem exists_holdSeverity {rs : List Reason} (h : rs ≠ []) : ∃ r ∈ rs, r.severity = holdSeverity rs := by
  induction rs with
  | nil => exact absurd rfl h
  | cons r rs ih =>
    have code := severityCode_holdSeverity_cons r rs
    by_cases low : severityCode r.severity < severityCode (holdSeverity rs)
    · have rest : rs ≠ [] := by
        rintro rfl
        exact absurd (severityCode_minor_le r.severity) (Nat.not_le.2 low)
      obtain ⟨q, hq, top⟩ := ih rest
      exact ⟨q, List.mem_cons_of_mem r hq, severityCode_inj (by rw [top, code]; omega)⟩
    · exact ⟨r, List.mem_cons_self, severityCode_inj (by rw [code]; omega)⟩

/-! ## The cases of a raise (R142, R143) -/

theorem Reason.bump_eq (r : Reason) : r.bump = { r with count := min (r.count + 1) 255 } :=
  congrArg (fun n => { r with count := n }) (satInc_eq r.count)

/-- The overflow takes the earliest entry of its severity (R143). -/
theorem overflowInto_split {top : Severity} (sev : Severity) {rs : List Reason} (h : ∃ r ∈ rs, r.severity = top) :
    ∃ pre r post, rs = pre ++ r :: post ∧ r.severity = top ∧ (∀ q ∈ pre, q.severity ≠ top) ∧
      overflowInto top sev rs =
        pre ++ { r with count := min (r.count + 1) 255, severity := r.severity.max sev } :: post := by
  induction rs with
  | nil => exact absurd h (by simp)
  | cons x xs ih =>
    by_cases hx : x.severity = top
    · refine ⟨[], x, xs, rfl, hx, nofun, ?_⟩
      rw [overflowInto, if_pos hx, Reason.bump_eq, hx]
      rfl
    · have later : ∃ r ∈ xs, r.severity = top := by simpa [hx] using h
      obtain ⟨pre, r, post, rfl, hr, hpre, placed⟩ := ih later
      refine ⟨x :: pre, r, post, rfl, hr, List.forall_mem_cons.2 ⟨hx, hpre⟩, ?_⟩
      rw [overflowInto, if_neg hx, placed]
      rfl

section
variable {code : ReasonCode} (sev : Severity) (now : LineTime) {rs : List Reason}

theorem placeReason_of_listed (h : ∃ r ∈ rs, r.code = code) :
    placeReason code sev now rs =
      rs.map fun r => if r.code = code then { r with count := min (r.count + 1) 255 } else r := by
  rw [placeReason, if_pos (by simpa using h), countListed]
  simp only [Reason.bump_eq]

theorem placeReason_of_unlisted (h : ∀ r ∈ rs, r.code ≠ code) :
    placeReason code sev now rs =
      if rs.length < 8 then rs ++ [newReason code sev now] else overflowInto (holdSeverity rs) sev rs :=
  if_neg (by simpa using h)

/-- A full list's earliest entry of the highest severity takes the raise (R143). -/
theorem placeReason_of_full (h : ∀ r ∈ rs, r.code ≠ code) (full : rs.length = 8) :
    ∃ pre r post, rs = pre ++ r :: post ∧ r.severity = holdSeverity rs ∧ (∀ q ∈ pre, q.severity ≠ holdSeverity rs) ∧
      placeReason code sev now rs =
        pre ++ { r with count := min (r.count + 1) 255, severity := r.severity.max sev } :: post := by
  rw [placeReason_of_unlisted sev now h, if_neg (by omega)]
  exact overflowInto_split sev (exists_holdSeverity (List.ne_nil_of_length_pos (by omega)))

/-- The raise of a code that is not listed enters the hold severity, on either side of the overflow. -/
theorem holdSeverity_placeReason (h : ∀ r ∈ rs, r.code ≠ code) (bound : rs.length ≤ 8) :
    holdSeverity (placeReason code sev now rs) = (holdSeverity rs).max sev := by
  refine severityCode_inj ?_
  rcases Nat.lt_or_eq_of_le bound with room | full
  · have single : severityCode (holdSeverity [newReason code sev now]) = severityCode sev :=
      (severityCode_holdSeverity_cons _ _).trans (max_eq_left (severityCode_minor_le sev))
    rw [placeReason_of_unlisted sev now h, if_pos room, severityCode_holdSeverity_append, single, severityCode_max]
  · obtain ⟨pre, r, post, split, -, -, placed⟩ := placeReason_of_full sev now h full
    rw [placed, split]
    simp only [severityCode_holdSeverity_append, severityCode_holdSeverity_cons, severityCode_max]
    omega

end

/-- Settles O30: a code that is listed, one that the list has room for, and the overflow. -/
theorem raisesArePlacedInTheList : Obligations.RaisesArePlacedInTheList := fun _ sev now _ =>
  ⟨placeReason_of_listed sev now,
    fun unlisted room => (placeReason_of_unlisted sev now unlisted).trans (if_pos room),
    placeReason_of_full sev now, holdSeverity_placeReason sev now⟩

end Sys2Proof.Machine
end

section
/-! SUPPORT. A request that either link takes (R177 to R180), and the hold part that it may name (R150, R154). -/

namespace Sys2Proof.Machine

/-! ## A request that a link takes (R177 to R180) -/

theorem State.heard_rec? (s : State) (l : Link) (i : RecIx) : (s.heard l).rec? i = s.rec? i := by cases l <;> rfl

theorem State.heard_not_busy {s : State} {l : Link} (h : s.takesRequest l = true) (r : Request) :
    (s.heard l).busy l r = false := by
  cases l with
  | bench => rfl
  | host =>
    have idle : s.rsc.hostReq = none := Option.isNone_iff_eq_none.1 (Bool.and_eq_true _ _ ▸ h).2
    simp [State.busy, State.heard, idle]

theorem wellAsked_of {l : Link} {r : Request} (hc : carries l (kindOf r) = true) (hl : r.lengthOk = true)
    (hr : rangesOk r = true) : wellAsked l r = true := by
  rw [wellAsked, hc, hl, hr]
  rfl

theorem index_inRange {b : Byte} {i : RecIx} (h : b.toNat = i.val) : decide (b.toNat < 24) = true :=
  decide_eq_true (h ▸ i.isLt)

/-- A request that its link takes, of a length and in the ranges of its kind, is acted on and answered (R179). -/
theorem State.takeRequest_acted {s u : State} {l : Link} {r : Request} {st : ReplyStatus} {data : List Byte}
    (ht : s.takesRequest l = true) (ha : wellAsked l r = true) (tag : Byte)
    (h : (s.heard l).dispatch l tag r = (u, some (st, data))) :
    (s.takeRequest l tag r).goesOn = .next (u.answers l tag r st data).settle := by
  simp only [wellAsked, Bool.and_eq_true] at ha
  obtain ⟨⟨hcarried, hlength⟩, hranges⟩ := ha
  have screened : (s.heard l).screenRequest l (kindOf r) tag (some r) = (u, some (st, data)) := by
    unfold State.screenRequest
    rw [if_neg (by rw [kindOf_request]; exact nofun), if_neg (by simp [hcarried])]
    dsimp only
    rw [if_neg (by simp [hranges]), if_neg (by simp [State.heard_not_busy ht])]
    exact h
  refine State.goesOn_congr ?_
  rw [State.takeRequest_heard (State.hears_of_takesRequest ht), if_pos hlength, State.screen,
    if_neg (Nat.not_le.2 (request_kind_lt _ (kindOf_request r))), screened]
  rfl

/-! ## The hold part that a link may name (R150, R154) -/

section
variable {s : State} {l : Link} {i : RecIx} {r : CarrierRecord} {h : Hold}

theorem State.holdSeen_eq_some :
    s.holdSeen l i = some (r, h) ↔ s.rec? i = some r ∧ r.hold = some h ∧ visibleTo l r = true := by
  unfold State.holdSeen
  constructor
  · intro found
    split at found
    · rename_i q hq
      split at found
      · rename_i g hg
        obtain ⟨seen, e⟩ := Option.ite_none_right_eq_some.1 found
        cases e
        exact ⟨hq, hg, seen⟩
      · cases found
    · cases found
  · rintro ⟨hr, hh, seen⟩
    rw [hr]
    dsimp only
    rw [hh]
    exact if_pos seen

theorem State.holdOpenTo_eq_some : s.holdOpenTo l i = some (r, h) ↔
    s.rec? i = some r ∧ r.status.isLive = true ∧ r.hold = some h ∧ visibleTo l r = true := by
  rw [State.holdOpenTo, Option.ite_none_right_eq_some, State.holdSeen_eq_some]
  constructor
  · rintro ⟨live, hr, seen⟩
    obtain ⟨q, hq⟩ := Option.isSome_iff_exists.1 live
    obtain ⟨hrq, hl⟩ := State.live?_eq_some.1 hq
    cases hr.symm.trans hrq
    exact ⟨hr, hl, seen⟩
  · rintro ⟨hr, hl, seen⟩
    exact ⟨by rw [State.live?_eq_some.2 ⟨hr, hl⟩]; rfl, hr, seen⟩

/-- A link may change no hold where the record has none, is not live, or is not to be named by it. -/
theorem State.holdOpenTo_eq_none
    (hn : ∀ q, s.rec? i = some q → q.hold = none ∨ q.status.isLive = false ∨ visibleTo l q = false) :
    s.holdOpenTo l i = none := by
  refine Option.eq_none_iff_forall_ne_some.2 fun ⟨q, g⟩ found => ?_
  obtain ⟨hr, hl, held, seen⟩ := State.holdOpenTo_eq_some.1 found
  rcases hn q hr with e | e | e
  · exact absurd (e.symm.trans held) (by simp)
  · exact absurd (e.symm.trans hl) (by simp)
  · exact absurd (e.symm.trans seen) (by simp)

/-- A hold part changed is its record set. -/
theorem State.modHold_eq (hr : s.rec? i = some r) (hh : r.hold = some h) (f : Hold → Hold) :
    s.modHold i f = s.setRec i (some { r with hold := some (f h) }) := by
  rw [State.modHold, State.modRec_eq hr, hh]
  rfl

/-- A hold part changed and told (R145). -/
theorem State.modHold_holdChanged (hr : s.rec? i = some r) (hh : r.hold = some h) (f : Hold → Hold) (cause : HoldCause) :
    (s.modHold i f).holdChanged i cause =
      (s.setRec i (some { r with hold := some (f h) })).queueReport (.holdChanged (holdReport i r (f h) cause)) := by
  rw [State.modHold_eq hr hh, State.holdChanged_of_some (State.setRec_rec_self _ _ _) rfl]
  rfl

end

theorem slotUnread_eq_true {x : Option TextSlot} : slotUnread x = true ↔ ∃ t, x = some t ∧ t.unread = true := by
  cases x <;> simp [slotUnread]

theorem slotUnread_eq_false {x : Option TextSlot} : slotUnread x = false ↔ ∀ t, x = some t → t.unread = false := by
  cases x <;> simp [slotUnread]

end Sys2Proof.Machine
end

section
/-! PROOF. HOLD_PLACE raises ORDERED (R142, R144). -/

namespace Sys2Proof.Machine

section
variable {s : State} {i : RecIx} {r : CarrierRecord}

theorem Status.isLive_of_inPass {st : Status} (h : st.inPass = true) : st.isLive = true := by
  cases st with
  | waitLane => rfl
  | active => rfl
  | loading => cases h
  | done o => cases h

theorem State.raiseReason_creates (hr : s.rec? i = some r) (hl : r.status.isLive = true) (hh : r.hold = none)
    (code : ReasonCode) (sev : Severity) :
    s.raiseReason i code sev = (s.setRec i (some { r with hold := some (newHold code sev r.pass s.now) })).queueReport
      (.holdRaised (holdReport i r (newHold code sev r.pass s.now) .reason)) := by
  unfold State.raiseReason
  rw [State.live?_eq_some.2 ⟨hr, hl⟩]
  dsimp only
  rw [hh]

theorem State.raiseReason_places {h : Hold} (hr : s.rec? i = some r) (hl : r.status.isLive = true) (hh : r.hold = some h)
    (code : ReasonCode) (sev : Severity) :
    s.raiseReason i code sev = (s.setRec i (some { r with hold := some (h.raise code sev s.now) })).queueReport
      (.holdChanged (holdReport i r (h.raise code sev s.now) (if h.state = .disposed then .reopened else .reason))) := by
  unfold State.raiseReason
  rw [State.live?_eq_some.2 ⟨hr, hl⟩]
  dsimp only
  rw [hh]

/-- A raise opens a DISPOSED hold again, without its disposition (R142). -/
theorem Hold.raise_eq (h : Hold) (code : ReasonCode) (sev : Severity) (now : LineTime) :
    h.raise code sev now = { h with
      reasons := placeReason code sev now h.reasons
      state := if h.state = .disposed then .opened else h.state
      disposition := if h.state = .disposed then none else h.disposition } := by
  unfold Hold.raise
  rcases hs : h.state with _ | _ | _ <;> rfl

theorem State.doHoldPlace_inPass (hr : s.rec? i = some r) (hp : r.status.inPass = true) (sev : Severity) :
    s.doHoldPlace i sev = (s.raiseReason i .ordered sev).ok [] := by
  unfold State.doHoldPlace
  rw [State.live?_eq_some.2 ⟨hr, Status.isLive_of_inPass hp⟩]
  dsimp only
  rcases hs : r.status with _ | _ | _ | o
  · rw [hs] at hp; cases hp
  · rfl
  · rfl
  · rw [hs] at hp; cases hp

theorem State.doHoldPlace_notFound (hn : ∀ r, s.rec? i = some r → r.status.inPass = false) (sev : Severity) :
    s.doHoldPlace i sev = s.refuse .notFound := by
  unfold State.doHoldPlace
  rcases found : s.live? i with _ | r
  · rfl
  · have out := hn r (State.live?_some found).1
    dsimp only
    rcases hs : r.status with _ | _ | _ | o
    · rfl
    · rw [hs] at out; cases out
    · rw [hs] at out; cases out
    · rfl

end

/-- Settles O31: the record that takes no raise, the hold created, and the hold that stands. -/
theorem holdPlaceRaisesOrdered : Obligations.HoldPlaceRaisesOrdered := by
  intro s tag b v i sev ht hb hv q
  have asked : wellAsked .host q = true := wellAsked_of rfl rfl (by simp [q, rangesOk, hb, hv])
  have acted : s.dispatch .host tag q = s.doHoldPlace i sev :=
    (State.withRec_eq hb _).trans (by rw [hv]; rfl)
  have answered {u : State} {st : ReplyStatus} (h : s.doHoldPlace i sev = (u, some (st, []))) :
      exec (.holdPlace .host tag b v) s = .next (u.answers .host tag q st []).settle :=
    State.takeRequest_acted ht asked tag (acted.trans h)
  refine ⟨fun hn => answered (State.doHoldPlace_notFound hn sev), fun r hr hp => ⟨fun hh => ?_, fun h hh => ?_⟩⟩
  · exact answered ((State.doHoldPlace_inPass hr hp sev).trans
      (congrArg (State.ok · []) (State.raiseReason_creates hr (Status.isLive_of_inPass hp) hh .ordered sev)))
  · intro h'
    have raised : h.raise .ordered sev s.now = h' := Hold.raise_eq h .ordered sev s.now
    have placed := State.raiseReason_places hr (Status.isLive_of_inPass hp) hh .ordered sev
    rw [raised] at placed
    exact answered ((State.doHoldPlace_inPass hr hp sev).trans (congrArg (State.ok · []) placed))

end Sys2Proof.Machine
end

section
/-! PROOF. Claims of a hold (R150). -/

namespace Sys2Proof.Machine

section
variable {s : State} {l : Link} {i : RecIx}

theorem State.doHoldClaim_notFound (hn : s.holdOpenTo l i = none) : s.doHoldClaim l i = s.refuse .notFound := by
  rw [State.doHoldClaim, hn]

theorem State.doHoldUnclaim_notFound (hn : s.holdOpenTo l i = none) : s.doHoldUnclaim l i = s.refuse .notFound := by
  rw [State.doHoldUnclaim, hn]

variable {r : CarrierRecord} {h : Hold}

theorem State.setClaim_eq (hr : s.rec? i = some r) (hh : r.hold = some h) (c : Option Link) :
    s.setClaim i c = (s.setRec i (some { r with hold := some { h with claim := c } })).queueReport
      (.holdChanged (holdReport i r { h with claim := c } .claim)) :=
  State.modHold_holdChanged hr hh (fun g => { g with claim := c }) .claim

theorem State.doHoldClaim_free (ho : s.holdOpenTo l i = some (r, h)) (hc : h.claim = none) :
    s.doHoldClaim l i = (s.setClaim i (some l)).ok [] := by
  rw [State.doHoldClaim, ho]
  dsimp only
  rw [hc]

theorem State.doHoldClaim_taken {o : Link} (ho : s.holdOpenTo l i = some (r, h)) (hc : h.claim = some o) :
    s.doHoldClaim l i = if o = l then s.ok [] else s.refuse .claimedElsewhere := by
  rw [State.doHoldClaim, ho]
  dsimp only
  rw [hc]
  simp only [State.unless, decide_eq_true_eq]

theorem State.doHoldUnclaim_open (ho : s.holdOpenTo l i = some (r, h)) :
    s.doHoldUnclaim l i = if h.claim = some l then (s.setClaim i none).ok [] else s.refuse .notClaimed := by
  rw [State.doHoldUnclaim, ho]
  simp only [State.unless, decide_eq_true_eq]

end

/-- Settles O32, by the claim that stands. -/
theorem claimsBelongToOneLink : Obligations.ClaimsBelongToOneLink := by
  intro s l tag b i ht hb answered claim unclaim
  have claims : wellAsked l (.holdClaim b) = true := wellAsked_of (by cases l <;> rfl) rfl (index_inRange hb)
  have unclaims : wellAsked l (.holdUnclaim b) = true := wellAsked_of (by cases l <;> rfl) rfl (index_inRange hb)
  have claimed {u : State} {st : ReplyStatus} (h : (s.heard l).doHoldClaim l i = (u, some (st, []))) :
      claim u (.holdClaim b) st := State.takeRequest_acted ht claims tag ((State.withRec_eq hb _).trans h)
  have unclaimed {u : State} {st : ReplyStatus} (h : (s.heard l).doHoldUnclaim l i = (u, some (st, []))) :
      unclaim u (.holdUnclaim b) st := State.takeRequest_acted ht unclaims tag ((State.withRec_eq hb _).trans h)
  refine ⟨fun hn => ?none, fun r h hr hh hl hv => ?some⟩
  case none =>
    have closed := State.holdOpenTo_eq_none (s := s.heard l) fun q hq => hn q ((s.heard_rec? l i).symm.trans hq)
    exact ⟨claimed (State.doHoldClaim_notFound closed), unclaimed (State.doHoldUnclaim_notFound closed)⟩
  case some =>
    intro set
    have hr' : (s.heard l).rec? i = some r := (s.heard_rec? l i).trans hr
    have opened : (s.heard l).holdOpenTo l i = some (r, h) := State.holdOpenTo_eq_some.2 ⟨hr', hl, hh, hv⟩
    have setting (c : Option Link) : (s.heard l).setClaim i c = set c := State.setClaim_eq hr' hh c
    have given := State.doHoldUnclaim_open opened
    refine ⟨fun hc => ⟨?_, ?_⟩, fun hc => ⟨?_, ?_⟩, fun o hne hc => ⟨?_, ?_⟩⟩
    · exact claimed ((State.doHoldClaim_free opened hc).trans (congrArg (State.ok · []) (setting _)))
    · exact unclaimed (given.trans (if_neg (by simp [hc])))
    · exact claimed ((State.doHoldClaim_taken opened hc).trans (if_pos rfl))
    · exact unclaimed ((given.trans (if_pos hc)).trans (congrArg (State.ok · []) (setting _)))
    · exact claimed ((State.doHoldClaim_taken opened hc).trans (if_neg hne))
    · exact unclaimed (given.trans (if_neg (by simp [hc, hne])))

end Sys2Proof.Machine
end

section
/-! PROOF. The texts of a hold: HOLD_READ, INSTRUCTION_POST, FINDING_POST and FINDING_READ (R152 to R154). -/

namespace Sys2Proof.Machine

section
variable {s : State} {i : RecIx} {r : CarrierRecord} {h : Hold}

theorem State.doHoldRead_host (hs : s.holdSeen .host i = some (r, h)) :
    s.doHoldRead .host i = s.ok (eHoldRead i r h) := by
  rw [State.doHoldRead, hs]

theorem State.doHoldRead_bench (hs : s.holdSeen .bench i = some (r, h)) :
    s.doHoldRead .bench i = (s.instructionRead i h).ok (eHoldRead i r h) := by
  rw [State.doHoldRead, hs]

theorem State.instructionRead_read (hi : ∀ t, h.instruction = some t → t.unread = false) :
    s.instructionRead i h = s := by
  rw [State.instructionRead, slotUnread_eq_false.2 hi]
  rfl

/-- A live record's unread instruction is marked read and told (R152). -/
theorem State.instructionRead_unread (hr : s.rec? i = some r) (hl : r.status.isLive = true) (hh : r.hold = some h)
    {t : TextSlot} (hi : h.instruction = some t) (hu : t.unread = true) :
    let h' : Hold := { h with instruction := some { t with unread := false } }
    s.instructionRead i h =
      (s.setRec i (some { r with hold := some h' })).queueReport
        (.holdChanged (holdReport i r h' .instructionRead)) := by
  rw [State.instructionRead, slotUnread_eq_true.2 ⟨t, hi, hu⟩, State.live?_eq_some.2 ⟨hr, hl⟩]
  refine (State.modHold_holdChanged hr hh _ .instructionRead).trans ?_
  rw [hi]
  rfl

theorem State.doInstructionPost_open (ho : s.holdOpenTo .host i = some (r, h)) (text : List Byte) :
    s.doInstructionPost i text =
      if slotUnread h.instruction then s.refuse .slotFull
      else (s.setRec i (some { r with hold := some { h with instruction := newText text } })).ok [] := by
  obtain ⟨hr, -, hh, -⟩ := State.holdOpenTo_eq_some.1 ho
  rw [State.doInstructionPost, ho]
  dsimp only
  rw [State.modHold_eq hr hh, State.unless]
  cases slotUnread h.instruction <;> rfl

theorem State.doFindingRead_open (ho : s.holdOpenTo .host i = some (r, h)) :
    s.doFindingRead i =
      match h.finding with
      | none => s.refuse .notFound
      | some t => (s.setRec i (some { r with hold := some { h with finding := some t.read } })).ok (eSlot t) := by
  obtain ⟨hr, -, hh, -⟩ := State.holdOpenTo_eq_some.1 ho
  rw [State.doFindingRead, ho]
  dsimp only
  rcases hf : h.finding with _ | t
  · rfl
  · rw [State.modHold_eq hr hh, hf]
    rfl

theorem State.doFindingPost_unclaimed (ho : s.holdOpenTo .bench i = some (r, h)) (hc : h.claim = none)
    (text : List Byte) : s.doFindingPost i text = s.refuse .notClaimed := by
  rw [State.doFindingPost, ho]
  dsimp only
  rw [hc]

theorem State.doFindingPost_elsewhere (ho : s.holdOpenTo .bench i = some (r, h)) (hc : h.claim = some .host)
    (text : List Byte) : s.doFindingPost i text = s.refuse .claimedElsewhere := by
  rw [State.doFindingPost, ho]
  dsimp only
  rw [hc]

/-- The pendant that claims the hold posts a finding over an absent or read one (R153). -/
theorem State.doFindingPost_claimed (ho : s.holdOpenTo .bench i = some (r, h)) (hc : h.claim = some .bench)
    (text : List Byte) :
    let h' : Hold := { h with finding := newText text }
    s.doFindingPost i text =
      if slotUnread h.finding then s.refuse .slotFull
      else ((s.setRec i (some { r with hold := some h' })).queueReport
        (.holdChanged (holdReport i r h' .finding))).ok [] := by
  intro h'
  obtain ⟨hr, -, hh, -⟩ := State.holdOpenTo_eq_some.1 ho
  rw [State.doFindingPost, ho]
  dsimp only
  rw [hc]
  dsimp only
  rw [State.modHold_holdChanged hr hh, State.unless]
  cases slotUnread h.finding <;> rfl

end

/-- Settles O33: the texts as the Host Link reads and posts them, and as the pendant does. -/
theorem textsAreReadAndPosted : Obligations.TextsAreReadAndPosted := by
  intro s tag b i r h text hb hr hh hl hlow hhigh hall unread put bench
  have length : (Request.instructionPost b text).lengthOk = true ∧ (Request.findingPost b text).lengthOk = true := by
    simp [Request.lengthOk, hlow, hhigh]
  have ranges : rangesOk (.instructionPost b text) = true ∧ rangesOk (.findingPost b text) = true := by
    simp only [rangesOk, index_inRange hb, hlow, hhigh, hall]
    exact ⟨rfl, rfl⟩
  have holdRead (l : Link) : wellAsked l (.holdRead b) = true := wellAsked_of (by cases l <;> rfl) rfl (index_inRange hb)
  have findingRead : wellAsked .host (.findingRead b) = true := wellAsked_of rfl rfl (index_inRange hb)
  refine ⟨fun ht => ?hostLink, fun ht hside => ?benchLink⟩
  case hostLink =>
    have opened : s.holdOpenTo .host i = some (r, h) := State.holdOpenTo_eq_some.2 ⟨hr, hl, hh, rfl⟩
    have posted {u : State} {st : ReplyStatus} (e : s.doInstructionPost i text = (u, some (st, []))) :
        exec (.instructionPost .host tag b text) s =
          .next (u.answers .host tag (.instructionPost b text) st []).settle :=
      State.takeRequest_acted ht (wellAsked_of rfl length.1 ranges.1) tag ((State.withRec_eq hb _).trans e)
    have found {u : State} {st : ReplyStatus} {data : List Byte} (e : s.doFindingRead i = (u, some (st, data))) :
        exec (.findingRead .host tag b) s = .next (u.answers .host tag (.findingRead b) st data).settle :=
      State.takeRequest_acted ht findingRead tag ((State.withRec_eq hb _).trans e)
    have post := State.doInstructionPost_open opened text
    have read := State.doFindingRead_open opened
    refine ⟨?_, fun hi => ?_, fun t hi hu => ?_, fun hf => ?_, fun t hf => ?_⟩
    · exact State.takeRequest_acted ht (holdRead _) tag ((State.withRec_eq hb _).trans
        (State.doHoldRead_host (State.holdSeen_eq_some.2 ⟨hr, hh, rfl⟩)))
    · exact posted (post.trans (if_neg (by simp [slotUnread_eq_false.2 hi])))
    · exact posted (post.trans (if_pos (slotUnread_eq_true.2 ⟨t, hi, hu⟩)))
    · exact found (read.trans (by rw [hf]; rfl))
    · exact found (read.trans (by rw [hf]; rfl))
  case benchLink =>
    have hr' : bench.rec? i = some r := hr
    have opened : bench.holdOpenTo .bench i = some (r, h) := State.holdOpenTo_eq_some.2 ⟨hr', hl, hh, hside⟩
    have seen : bench.holdSeen .bench i = some (r, h) := State.holdSeen_eq_some.2 ⟨hr', hh, hside⟩
    have readBack {u : State} (e : bench.instructionRead i h = u) :
        exec (.holdRead .bench tag b) s =
          .next (u.answers .bench tag (.holdRead b) .ok (eHoldRead i r h)).settle :=
      State.takeRequest_acted ht (holdRead _) tag ((State.withRec_eq hb _).trans
        ((State.doHoldRead_bench seen).trans (congrArg (State.ok · (eHoldRead i r h)) e)))
    have posted {u : State} {st : ReplyStatus} (e : bench.doFindingPost i text = (u, some (st, []))) :
        exec (.findingPost .bench tag b text) s = .next (u.answers .bench tag (.findingPost b text) st []).settle :=
      State.takeRequest_acted ht (wellAsked_of rfl length.2 ranges.2) tag ((State.withRec_eq hb _).trans e)
    refine ⟨fun hi => ?_, fun t hi hu => ?_, fun hc => ?_, fun hc => ?_, fun t hc hf hu => ?_, fun hc hf => ?_⟩
    · exact readBack (State.instructionRead_read hi)
    · exact readBack (State.instructionRead_unread hr' hl hh hi hu)
    · exact posted (State.doFindingPost_unclaimed opened hc text)
    · exact posted (State.doFindingPost_elsewhere opened hc text)
    · exact posted ((State.doFindingPost_claimed opened hc text).trans (if_pos (slotUnread_eq_true.2 ⟨t, hf, hu⟩)))
    · exact posted ((State.doFindingPost_claimed opened hc text).trans (if_neg (by simp [slotUnread_eq_false.2 hf])))

end Sys2Proof.Machine
end

section
/-! PROOF. HOLD_DISPOSE: who may dispose what, and the checks in their order (R155 to R157). -/

namespace Sys2Proof.Machine

/-! ## Permissions (R156, R157) -/

section
variable {l : Link} {d : Disposition}

theorem closingOf_isSome : (closingOf d).isSome = true ↔ d = .useAsIs ∨ d = .scrap := by
  cases d <;> simp [closingOf]

theorem severityAllows_iff {sev : Severity} : severityAllows sev l d = true ↔
    (sev = .minor → l = .host ∨ ¬(d = .useAsIs ∨ d = .scrap)) ∧ (sev = .major → l = .host) ∧
      (sev = .critical → l = .host ∧ d = .scrap) := by
  rw [← closingOf_isSome]
  cases sev with
  | minor => cases l <;> simp [severityAllows]
  | major => cases l <;> simp [severityAllows]
  | critical => cases l <;> simp [severityAllows]

theorem passAllows_iff {pass : Nat} :
    passAllows pass l d = true ↔ (pass = 3 → l = .host ∧ (d = .useAsIs ∨ d = .scrap)) := by
  rw [← closingOf_isSome]
  simp only [passAllows, Bool.or_eq_true, Bool.and_eq_true, decide_eq_true_eq]
  exact (imp_iff_not_or (a := pass = 3)).symm

theorem stageAllows_eq_false {st : Stage} : stageAllows st d = false ↔
    (d = .remask ∧ st ≠ .mask) ∨ (d = .wetWipe ∧ st ≠ .inspect) ∨ ((d = .respray ∨ d = .recure) ∧ st ≠ .exit) := by
  cases d <;> simp [stageAllows]

/-! ## The checks in their order (R155) -/

variable {r : CarrierRecord} {h : Hold}

theorem disposeRefusal_unclaimed (hc : h.claim = none) : disposeRefusal l d r h = some (.notClaimed, []) := if_pos hc

theorem disposeRefusal_elsewhere {o : Link} (hc : h.claim = some o) (hne : o ≠ l) :
    disposeRefusal l d r h = some (.claimedElsewhere, []) := by
  rw [disposeRefusal, if_neg (by simp [hc]), if_pos (by simp [hc, hne])]

/-- What is checked of a hold that the link claims, before the permissions: where its carrier stands (R155). -/
theorem disposeRefusal_misplaced (hc : h.claim = some l) (hp : r.position.disposable = false) :
    disposeRefusal l d r h = some (.notPermitted, e8 DisposeCheck.position.code) := by
  rw [disposeRefusal, if_neg (by simp [hc]), if_neg (by simp [hc]), if_pos (by simp [hp])]

theorem disposeRefusal_unread (hc : h.claim = some l) (hp : r.position.disposable = true) (hl : l = .bench)
    (hi : slotUnread h.instruction = true) : disposeRefusal l d r h = some (.instructionUnread, []) := by
  rw [disposeRefusal, if_neg (by simp [hc]), if_neg (by simp [hc]), if_neg (by simp [hp]), if_pos ⟨hl, hi⟩]

/-- Behind the checks of the claim, the position and the instruction, the three permissions are checked (R155). -/
theorem disposeRefusal_permissions (hc : h.claim = some l) (hp : r.position.disposable = true)
    (hi : ¬(l = .bench ∧ slotUnread h.instruction = true)) :
    disposeRefusal l d r h =
      if severityAllows (holdSeverity h.reasons) l d = false then some (.notPermitted, e8 DisposeCheck.severity.code)
      else if passAllows r.pass l d = false then some (.notPermitted, e8 DisposeCheck.pass.code)
      else if stageAllows h.stage d = false then some (.notPermitted, e8 DisposeCheck.stage.code)
      else none := by
  rw [disposeRefusal, if_neg (by simp [hc]), if_neg (by simp [hc]), if_neg (by simp [hp]), if_neg hi]
  simp only [Bool.not_eq_true']

/-! ## HOLD_DISPOSE refused -/

variable {s : State} {i : RecIx}

theorem State.doHoldDispose_refused {a : ReplyStatus × List Byte} (ho : s.holdOpenTo l i = some (r, h))
    (ha : r.status = .active) (hd : disposeRefusal l d r h = some a) : s.doHoldDispose l i d = (s, some a) := by
  rw [State.doHoldDispose, ho]
  dsimp only
  rw [if_neg (not_not_intro ha), hd]

theorem State.doHoldDispose_notFound
    (hn : ∀ q, s.rec? i = some q → q.status ≠ .active ∨ q.hold = none ∨ visibleTo l q = false) :
    s.doHoldDispose l i d = s.refuse .notFound := by
  unfold State.doHoldDispose
  rcases ho : s.holdOpenTo l i with _ | ⟨q, g⟩
  · rfl
  · obtain ⟨hr, -, hh, hv⟩ := State.holdOpenTo_eq_some.1 ho
    rcases hn q hr with e | e | e
    · exact if_pos e
    · exact absurd (e.symm.trans hh) (by simp)
    · exact absurd (e.symm.trans hv) (by simp)

end

/-- A HOLD_DISPOSE that a link takes is answered with what the Hold Manager answers. -/
theorem State.exec_holdDispose {s u : State} {l : Link} {b v : Byte} {i : RecIx} {d : Disposition} {st : ReplyStatus}
    {data : List Byte} (ht : s.takesRequest l = true) (hb : b.toNat = i.val) (hv : dispositionOf v = some d) (tag : Byte)
    (h : (s.heard l).doHoldDispose l i d = (u, some (st, data))) :
    exec (.holdDispose l tag b v) s = .next (u.answers l tag (.holdDispose b v) st data).settle := by
  have asked : wellAsked l (.holdDispose b v) = true :=
    wellAsked_of (by cases l <;> rfl) rfl (by simp [rangesOk, hb, hv])
  have acted : (s.heard l).dispatch l tag (.holdDispose b v) = (s.heard l).doHoldDispose l i d :=
    (State.withRec_eq hb _).trans (by rw [hv]; rfl)
  exact State.takeRequest_acted ht asked tag (acted.trans h)

/-- Settles O34: the permissions, and the first check that fails. -/
theorem disposePermissionsAndChecks : Obligations.DisposePermissionsAndChecks := by
  refine ⟨fun sev pass l d => ?permissions, fun s l tag b v i d r h ht hb hv => ?checks⟩
  case permissions =>
    intro closes
    rw [severityAllows_iff, passAllows_iff]
    exact ⟨fun ⟨⟨minor, major, critical⟩, third⟩ => ⟨minor, major, critical, third⟩,
      fun ⟨minor, major, critical, third⟩ => ⟨⟨minor, major, critical⟩, third⟩⟩
  case checks =>
    intro refused
    refine ⟨fun hn => State.exec_holdDispose ht hb hv tag
      (State.doHoldDispose_notFound fun q hq => hn q ((s.heard_rec? l i).symm.trans hq)), fun hr ha hh hs => ?_⟩
    have opened : (s.heard l).holdOpenTo l i = some (r, h) :=
      State.holdOpenTo_eq_some.2 ⟨(s.heard_rec? l i).trans hr, by rw [ha]; rfl, hh, hs⟩
    have failed {st : ReplyStatus} {data : List Byte} (hd : disposeRefusal l d r h = some (st, data)) :
        refused st data :=
      State.exec_holdDispose ht hb hv tag (State.doHoldDispose_refused opened ha hd)
    refine ⟨fun hc => failed (disposeRefusal_unclaimed hc), fun o hne hc => failed (disposeRefusal_elsewhere hc hne),
      fun hc => ⟨fun hp => failed (disposeRefusal_misplaced hc hp), fun hp => ⟨fun hl hi => ?_, fun hread => ?_⟩⟩⟩
    · exact failed (disposeRefusal_unread hc hp hl (slotUnread_eq_true.2 hi))
    · have read : ¬(l = .bench ∧ slotUnread h.instruction = true) := by
        rintro ⟨rfl, unread⟩
        rcases hread with e | e
        · cases e
        · exact absurd ((slotUnread_eq_false.2 e).symm.trans unread) (by simp)
      have checks := disposeRefusal_permissions (d := d) hc hp read
      refine ⟨fun hsev => ?_, fun hsev hpass => ?_, fun hsev hpass hstage => ?_⟩
      · exact failed (checks.trans (if_pos hsev))
      · exact failed (checks.trans ((if_neg (by simp [hsev])).trans (if_pos hpass)))
      · exact failed (checks.trans ((if_neg (by simp [hsev])).trans ((if_neg (by simp [hpass])).trans
          (if_pos (stageAllows_eq_false.2 hstage)))))

end Sys2Proof.Machine
end

section
/-! SUPPORT. A carrier at LOAD that is matched again (R9 to R11). -/

namespace Sys2Proof.Machine

section
variable {s : State} {was : MatchResult} {id : TagId}

theorem State.rematch_of {e : LoadEntry} {t : TagRead} (he : s.ltk.loadEntry = some e) (ht : e.tag = some t)
    (hw : e.result = was) (hid : t.id = id) : s.rematch was id = s.takeMatch t := by
  unfold State.rematch
  rw [he]
  dsimp only
  rw [ht]
  exact if_pos ⟨hw, hid⟩

theorem State.rematch_not (hn : ∀ e t, s.ltk.loadEntry = some e → e.tag = some t → e.result = was → t.id ≠ id) :
    s.rematch was id = s := by
  unfold State.rematch
  rcases he : s.ltk.loadEntry with _ | e
  · rfl
  · dsimp only
    rcases ht : e.tag with _ | t
    · rfl
    · exact if_neg fun ⟨hw, hid⟩ => hn e t he ht hw hid

end

/-- The record that holds a tag is found by the tag IDs alone (R9). -/
theorem State.recordOfTag_congr {s u : State} (h : ∀ i, u.ltk.tags.1 i = s.ltk.tags.1 i) (id : TagId) :
    u.recordOfTag id = s.recordOfTag id := by
  have found (v : State) : v.recordOfTag id = recIxs.find? fun i => v.ltk.tags.1 i == some id := by
    unfold State.recordOfTag
    refine congrArg recIxs.find? (funext fun i => ?_)
    rw [State.tags_fst]
    cases v.rec? i with
    | none => rfl
    | some r => exact (Option.some_beq_some ..).symm
  rw [found, found, funext h]

/-- The match of a record that awaits its re-entry is taken by it (R9, R10). -/
theorem State.takeMatch_reentry {s : State} {t : TagRead} {i : RecIx} {r : CarrierRecord} {h : Hold}
    (hi : s.recordOfTag t.id = some i) (hr : s.rec? i = some r) (ha : r.status = .active) (hh : r.hold = some h)
    (hd : h.state = .disposed) (hm : t.mark.toNat = i.val + 1) :
    s.takeMatch t = ((s.setEntry (some { tag := some t, result := .reentry, takenBy := some i })).queueReport
      (.loadArrival (some t) .reentry)).reenter i := by
  have matched : s.matchTag t = (.reentry, some i) := by
    rw [State.matchTag_of_some hi hr, if_pos]
    exact ⟨r.awaitsReentry_iff.2 ⟨ha, h, hh, hd⟩, (eq_markOf_iff _ _).2 hm⟩
  unfold State.takeMatch
  rw [matched]
  rfl

/-- What such a match leaves: the LOAD entry taken, and the record at LOAD in its next pass, its hold closed (R10). -/
theorem State.takeMatch_reenters {s : State} {t : TagRead} {i : RecIx} {r : CarrierRecord} {h : Hold}
    {d : DispositionEntry} (hi : s.recordOfTag t.id = some i) (hr : s.rec? i = some r) (ha : r.status = .active)
    (hh : r.hold = some h) (hd : h.state = .disposed) (hdis : h.disposition = some d) (hm : t.mark.toNat = i.val + 1) :
    (s.takeMatch t).ltk.loadEntry = some { tag := some t, result := .reentry, takenBy := some i } ∧
      ∃ q, (s.takeMatch t).rec? i = some q ∧ q.pass = r.pass + 1 ∧ q.hold = none ∧ q.position = .standing .load := by
  let told : State := (s.setEntry (some { tag := some t, result := .reentry, takenBy := some i })).queueReport
    (.loadArrival (some t) .reentry)
  have hrec : told.rec? i = some r := (State.queueReport_rec? _ _ i).trans hr
  have entry : told.ltk.loadEntry = some { tag := some t, result := .reentry, takenBy := some i } :=
    congrArg Ltk.loadEntry (State.queueReport_ltk _ _)
  rw [State.takeMatch_reentry hi hr ha hh hd hm, State.reenter_eq hrec hh hdis]
  exact ⟨entry, _, State.setRec_rec_self told i _, rfl, rfl, rfl⟩

end Sys2Proof.Machine
end

section
/-! PROOF. HOLD_DISPOSE accepted: rework recorded, and the closing dispositions (R155, R158 to R161). -/

namespace Sys2Proof.Machine

section
variable {s : State} {l : Link} {d : Disposition} {i : RecIx} {r : CarrierRecord} {h : Hold}

/-! ## A rework disposition (R158, R159) -/

/-- The hold part with a rework disposition recorded. -/
def Hold.reworked (h : Hold) (d : Disposition) (l : Link) (now : LineTime) : Hold :=
  if d = .strip then { h.disposed d l now with stage := .stripped } else h.disposed d l now

/-- The record whose hold part takes a rework disposition. -/
def CarrierRecord.reworked (r : CarrierRecord) (h : Hold) (d : Disposition) (l : Link) (now : LineTime) :
    CarrierRecord :=
  if d = .strip then stripRecord { r with hold := some (h.disposed d l now) }
  else { r with hold := some (h.disposed d l now) }

theorem CarrierRecord.reworked_hold (r : CarrierRecord) (h : Hold) (d : Disposition) (l : Link) (now : LineTime) :
    (r.reworked h d l now).hold = some (h.reworked d l now) := by
  unfold CarrierRecord.reworked Hold.reworked
  split <;> rfl

/-- What a rework disposition leaves of a record: all that its match and its re-entry read, but for the hold part. -/
theorem CarrierRecord.reworked_keeps (r : CarrierRecord) (h : Hold) (d : Disposition) (l : Link) (now : LineTime) :
    (r.reworked h d l now).tagId = r.tagId ∧ (r.reworked h d l now).status = r.status ∧
      (r.reworked h d l now).pass = r.pass := by
  unfold CarrierRecord.reworked
  split
  · exact ⟨rfl, rfl, rfl⟩
  · exact ⟨rfl, rfl, rfl⟩

theorem Hold.reworked_disposed (h : Hold) (d : Disposition) (l : Link) (now : LineTime) :
    (h.reworked d l now).state = .disposed ∧
      (h.reworked d l now).disposition = some { what := d, disposer := l, time := now } := by
  unfold Hold.reworked
  split
  · exact ⟨rfl, rfl⟩
  · exact ⟨rfl, rfl⟩

/-- The state in which a rework disposition is recorded and told, before the re-match. -/
def State.reworkTold (s : State) (i : RecIx) (r : CarrierRecord) (h : Hold) (d : Disposition) (l : Link) : State :=
  (s.setRec i (some (r.reworked h d l s.now))).queueReport
    (.holdChanged (holdReport i (r.reworked h d l s.now) (h.reworked d l s.now) .disposed))

theorem State.rework_eq (s : State) (i : RecIx) (r : CarrierRecord) (h : Hold) (d : Disposition) (l : Link) :
    s.rework i r h d l = (s.reworkTold i r h d l).rematch .duplicate r.tagId := by
  have recorded : s.rework i r h d l =
      ((s.setRec i (some (r.reworked h d l s.now))).holdChanged i .disposed).rematch .duplicate r.tagId := rfl
  rw [recorded, State.holdChanged_of_some (State.setRec_rec_self _ _ _) (r.reworked_hold h d l s.now)]
  rfl

theorem State.reworkTold_rec (s : State) (i : RecIx) (r : CarrierRecord) (h : Hold) (d : Disposition) (l : Link) :
    (s.reworkTold i r h d l).rec? i = some (r.reworked h d l s.now) :=
  (State.queueReport_rec? _ _ i).trans (State.setRec_rec_self _ _ _)

theorem State.reworkTold_loadEntry (s : State) (i : RecIx) (r : CarrierRecord) (h : Hold) (d : Disposition) (l : Link) :
    (s.reworkTold i r h d l).ltk.loadEntry = s.ltk.loadEntry := by
  rw [State.reworkTold, State.queueReport_ltk]
  rfl

theorem State.reworkTold_recordOfTag (hr : s.rec? i = some r) (id : TagId) :
    (s.reworkTold i r h d l).recordOfTag id = s.recordOfTag id := by
  refine State.recordOfTag_congr (fun j => ?_) id
  rw [State.reworkTold, State.queueReport_ltk, State.setRec_tags_fst]
  split
  · rename_i e
    subst e
    rw [State.tags_fst, hr]
    exact congrArg some (r.reworked_keeps h d l s.now).1
  · rfl

/-! ## A closing disposition (R160, R161) -/

/-- The record as a closing disposition leaves it to become DONE: its hold part in its history. -/
def CarrierRecord.closedOut (r : CarrierRecord) (h : Hold) : CarrierRecord :=
  { r with hold := none, history := r.history ++ [historyOf h] }

/-- The state in which the hold is closed and told. -/
def State.closeTold (s : State) (i : RecIx) (r : CarrierRecord) (h : Hold) : State :=
  (s.setRec i (some (r.closedOut h))).queueReport (.holdChanged (holdReport i r h .closed))

theorem State.closeOut_eq (s : State) (i : RecIx) (r : CarrierRecord) (h : Hold) (d : Disposition) (l : Link)
    (o : DoneOutcome) :
    s.closeOut i r h d l o =
      match closingWriter r.position with
      | some p => ((s.closeTold i r (h.disposed d l s.now)).retire i o).askWrite p 0 (.closing i)
      | none => (s.closeTold i r (h.disposed d l s.now)).retire i o := by
  unfold State.closeOut
  rcases closingWriter r.position with _ | p
  · rfl
  · rfl

/-- Only the writes tell whether a closing disposition asked for one. -/
theorem State.closeOut_keeps (s : State) (i : RecIx) (r : CarrierRecord) (h : Hold) (d : Disposition) (l : Link)
    (o : DoneOutcome) :
    let u := s.closeOut i r h d l o
    let v := (s.closeTold i r (h.disposed d l s.now)).retire i o
    u.ltk.table = v.ltk.table ∧ u.rsc = v.rsc ∧ u.liu = v.liu ∧ u.hmg = v.hmg := by
  dsimp only
  rw [State.closeOut_eq]
  generalize (s.closeTold i r (h.disposed d l s.now)).retire i o = v
  rcases closingWriter r.position with _ | p
  · exact ⟨rfl, rfl, rfl, rfl⟩
  · exact ⟨rfl, rfl, rfl, rfl⟩

/-- The write of mark 0 is asked where the carrier stands at a lift place (R160 step 5). -/
theorem State.closeOut_writes (s : State) (i : RecIx) {r : CarrierRecord} (h : Hold) (d : Disposition) (l : Link)
    (o : DoneOutcome) {p : Place} (hp : r.position = .standing p) (lift : p.isLiftPlace = true) :
    ∃ ws, (s.closeOut i r h d l o).ltk.writes =
      ws ++ [{ place := p, value := 0, why := .closing i, attempt := 1 }] := by
  have writer : closingWriter r.position = some p := by
    rw [hp]
    exact if_pos lift
  rw [State.closeOut_eq, writer]
  exact ⟨_, State.askWrite_writes _ _ _ _⟩

theorem State.closeTold_rec (s : State) (i : RecIx) (r : CarrierRecord) (h : Hold) :
    (s.closeTold i r h).rec? i = some (r.closedOut h) :=
  (State.queueReport_rec? _ _ i).trans (State.setRec_rec_self _ _ _)

theorem State.closeTold_rsc (s : State) (i : RecIx) (r : CarrierRecord) (h : Hold) : (s.closeTold i r h).rsc = s.rsc :=
  State.queueReport_rsc _ _

/-- A record off its lane keeps the rest. -/
theorem CarrierRecord.offLane_keeps (r : CarrierRecord) :
    r.offLane.status = r.status ∧ r.offLane.hold = r.hold ∧ r.offLane.history = r.history ∧
      r.offLane.thermalDose = r.thermalDose ∧ r.offLane.uvDose = r.uvDose ∧ r.offLane.pass = r.pass := by
  unfold CarrierRecord.offLane
  split
  · exact ⟨rfl, rfl, rfl, rfl, rfl, rfl⟩
  · exact ⟨rfl, rfl, rfl, rfl, rfl, rfl⟩

/-! ## HOLD_DISPOSE accepted -/

theorem State.doHoldDispose_rework (ho : s.holdOpenTo l i = some (r, h)) (ha : r.status = .active)
    (hd : disposeRefusal l d r h = none) (hc : closingOf d = none) :
    s.doHoldDispose l i d = (s.rework i r h d l).ok [] := by
  rw [State.doHoldDispose, ho]
  dsimp only
  rw [if_neg (not_not_intro ha), hd, hc]

theorem State.doHoldDispose_closes {o : DoneOutcome} (ho : s.holdOpenTo l i = some (r, h)) (ha : r.status = .active)
    (hd : disposeRefusal l d r h = none) (hc : closingOf d = some o) :
    s.doHoldDispose l i d = (s.closeOut i r h d l o).ok [] := by
  rw [State.doHoldDispose, ho]
  dsimp only
  rw [if_neg (not_not_intro ha), hd, hc]

theorem State.heard_now (s : State) (l : Link) : (s.heard l).now = s.now := by cases l <;> rfl

theorem State.heard_recordOfTag (s : State) (l : Link) (id : TagId) : (s.heard l).recordOfTag id = s.recordOfTag id := by
  cases l <;> rfl

theorem State.heard_ltk (s : State) (l : Link) : (s.heard l).ltk = s.ltk := by cases l <;> rfl

theorem State.heard_rsc (s : State) (l : Link) : (s.heard l).rsc = s.rsc := by cases l <;> rfl

theorem State.heard_reports (s : State) (l : Link) : (s.heard l).liu.reports = s.liu.reports := by cases l <;> rfl

end

/-- Settles O35: a rework disposition with its re-match, and a closing one. -/
theorem dispositionsTakeEffect : Obligations.DispositionsTakeEffect := by
  intro s l tag b v i d r h ht hb hv hr ha hh hs hd h'
  have now := s.heard_now l
  have hr' : (s.heard l).rec? i = some r := (s.heard_rec? l i).trans hr
  have opened : (s.heard l).holdOpenTo l i = some (r, h) :=
    State.holdOpenTo_eq_some.2 ⟨hr', by rw [ha]; rfl, hh, hs⟩
  have disposed : h.disposed d l (s.heard l).now = h' := by rw [now]; rfl
  refine ⟨fun hc => ?rework, fun o hc => ?close⟩
  case rework =>
    intro stripped h'' r' u answered
    have held : h.reworked d l (s.heard l).now = h'' := by rw [Hold.reworked, disposed]
    have recorded : r.reworked h d l (s.heard l).now = r' := by
      rw [CarrierRecord.reworked, disposed]
      by_cases strip : d = .strip
      · simp only [r', h'', if_pos strip]
        rfl
      · simp only [r', h'', if_neg strip]
    have told : (s.heard l).reworkTold i r h d l = u := by
      rw [State.reworkTold, recorded, held]
    have accepted {w : State} (e : u.rematch .duplicate r.tagId = w) : answered w := by
      have reworked : (s.heard l).rework i r h d l = w := by rw [State.rework_eq, told, e]
      exact State.exec_holdDispose ht hb hv tag
        ((State.doHoldDispose_rework opened ha hd hc).trans (congrArg (State.ok · []) reworked))
    have entry : u.ltk.loadEntry = s.ltk.loadEntry := by
      rw [← told, State.reworkTold_loadEntry, State.heard_ltk]
    refine ⟨fun hn => accepted (State.rematch_not (entry ▸ hn)), fun e t he hte hdup hid => ⟨?_, fun hi hm => ?_⟩⟩
    · exact accepted (State.rematch_of (entry.trans he) hte hdup hid)
    · obtain ⟨-, active, pass⟩ := recorded ▸ r.reworked_keeps h d l (s.heard l).now
      obtain ⟨state, disposition⟩ := held ▸ h.reworked_disposed d l (s.heard l).now
      have hi' : u.recordOfTag t.id = some i := by
        rw [← told, State.reworkTold_recordOfTag hr', State.heard_recordOfTag, hi]
      have hru : u.rec? i = some r' := by
        rw [← told, State.reworkTold_rec, recorded]
      have hhu : r'.hold = some h'' := by
        rw [← recorded, CarrierRecord.reworked_hold, held]
      obtain ⟨taken, q, hq, next, rest⟩ :=
        State.takeMatch_reenters hi' hru (active.trans ha) hhu state disposition hm
      exact ⟨taken, q, hq, next.trans (congrArg (· + 1) pass), rest⟩
  case close =>
    let told := (s.heard l).closeTold i r h'
    have hclosed : told.rec? i = some (r.closedOut h') := State.closeTold_rec _ _ _ _
    obtain ⟨htable, hrsc, hliu, hhmg⟩ := disposed ▸ (s.heard l).closeOut_keeps i r h d l o
    refine ⟨(s.heard l).closeOut i r h d l o, State.exec_holdDispose ht hb hv tag
      (State.doHoldDispose_closes opened ha hd hc), ?_, ?_, ?_, ?_, ?_⟩
    · obtain ⟨status, hold, history, thermal, uv, pass⟩ := ((r.closedOut h').done o).offLane_keeps
      refine ⟨_, ?_, status, hold, history, thermal, uv, pass⟩
      rw [State.rec?, htable]
      exact State.retire_rec hclosed o
    · intro k
      rw [hrsc, ← s.heard_rsc l, ← State.closeTold_rsc (s.heard l) i r h']
      exact State.retire_released hclosed o k
    · intro room
      have queued : told.liu.reports = (s.heard l).liu.reports ++ [{ time := (s.heard l).now, body := _ }] :=
        State.queueReport_reports _ _ (by simpa [State.heard_reports] using room)
      obtain ⟨rest, grown⟩ := (State.retire_keeps told i o).grows
      refine ⟨rest, ?_⟩
      rw [hliu, ← grown, queued, State.heard_reports, now, List.append_assoc]
      rfl
    · intro n
      rw [hhmg]
      exact State.unseat_bench _ i n
    · rintro p hp lift
      refine State.closeOut_writes _ i h d l o hp ?_
      rcases lift with rfl | ⟨n, rfl⟩
      · rfl
      · rfl

end Sys2Proof.Machine
end

section
/-! PROOF. The end of an attempt of a tag write (R10, R15, R149, R160). -/

namespace Sys2Proof.Machine

/-! ## The write in progress at a place -/

theorem bumpFirst_split {p : Place} {j : TagWriteJob} {pre post : List TagWriteJob} (hj : j.place = p)
    (hpre : ∀ k ∈ pre, k.place ≠ p) :
    bumpFirst p (pre ++ j :: post) = pre ++ { j with attempt := j.attempt + 1 } :: post := by
  induction pre with
  | nil => exact if_pos hj
  | cons k pre ih =>
    obtain ⟨hk, rest⟩ := List.forall_mem_cons.1 hpre
    exact (if_neg hk).trans (congrArg (k :: ·) (ih rest))

theorem writeOrigin_eq (p : Place) : writeOrigin p = if p = .load then .ltk else .hmg := by
  cases p <;> rfl

section
variable {s : State} {p : Place} {j : TagWriteJob} {pre post : List TagWriteJob}

theorem State.writeAt_eq (hw : s.ltk.writes = pre ++ j :: post) (hj : j.place = p) (hpre : ∀ k ∈ pre, k.place ≠ p) :
    s.writeAt p = some j := by
  rw [State.writeAt, hw, List.find?_append, List.find?_eq_none.2 (by simpa using hpre)]
  simp [hj]

theorem State.popWrite_eq (hw : s.ltk.writes = pre ++ j :: post) (hj : j.place = p) (hpre : ∀ k ∈ pre, k.place ≠ p) :
    s.popWrite p = s.setWrites (pre ++ post) := by
  rw [State.popWrite, hw, eraseP_writes hj hpre]

theorem State.writeEnd_done (hw : s.ltk.writes = pre ++ j :: post) (hj : j.place = p) (hpre : ∀ k ∈ pre, k.place ≠ p) :
    s.writeEnd p (some j.value) = (s.setWrites (pre ++ post)).writeDone j.why := by
  rw [State.writeEnd, State.writeAt_eq hw hj hpre]
  exact (if_pos rfl).trans (congrArg (State.writeDone · j.why) (State.popWrite_eq hw hj hpre))

theorem State.writeEnd_retried (hw : s.ltk.writes = pre ++ j :: post) (hj : j.place = p) (hpre : ∀ k ∈ pre, k.place ≠ p)
    {v : Option Byte} (hv : v ≠ some j.value) (hn : j.attempt < 3) :
    s.writeEnd p v = (s.noteFault .tagWriteRetry (if p = .load then .ltk else .hmg) j.detail).setWrites
      (pre ++ { j with attempt := j.attempt + 1 } :: post) := by
  rw [State.writeEnd, State.writeAt_eq hw hj hpre]
  dsimp only
  rw [← writeOrigin_eq, if_neg hv, if_pos hn, State.noteFault_ltk, hw, bumpFirst_split hj hpre]

/-- The state with both faults of a third failed attempt noted (R149, log 19). -/
def State.writeGivenUp (s : State) (p : Place) (j : TagWriteJob) : State :=
  (s.noteFault .tagWriteRetry (if p = .load then .ltk else .hmg) j.detail).noteFault .tagWriteFail
    (if p = .load then .ltk else .hmg) j.detail

theorem State.writeGivenUp_ltk (s : State) (p : Place) (j : TagWriteJob) : (s.writeGivenUp p j).ltk = s.ltk := by
  rw [State.writeGivenUp, State.noteFault_ltk, State.noteFault_ltk]

theorem State.writeEnd_failed (hw : s.ltk.writes = pre ++ j :: post) (hj : j.place = p) (hpre : ∀ k ∈ pre, k.place ≠ p)
    {v : Option Byte} (hv : v ≠ some j.value) (hn : 3 ≤ j.attempt) :
    s.writeEnd p v = ((s.writeGivenUp p j).setWrites (pre ++ post)).writeFailed j.why := by
  have kept : (s.writeGivenUp p j).ltk.writes = pre ++ j :: post := by rw [State.writeGivenUp_ltk, hw]
  rw [State.writeEnd, State.writeAt_eq hw hj hpre]
  dsimp only
  rw [writeOrigin_eq, if_neg hv, if_neg (Nat.not_lt.2 hn)]
  exact congrArg (State.writeFailed · j.why) (State.popWrite_eq kept hj hpre)

end

/-! ## What the end of a write does, by what it was asked for -/

section
variable {s : State} {i : RecIx}

/-- A write whose result changes nothing: a closing one, and one of a hold mark or a re-entry that was dropped or whose
record is DONE or FREE (R5). -/
def WriteDropped (s : State) (i : RecIx) (why : WriteFor) : Prop :=
  why = .closing i ∨ why = .reentry i none ∨ why = .holdMark i false ∨
    ((why = .holdMark i true ∨ ∃ d, why = .reentry i (some d)) ∧ s.live? i = none)

theorem State.holdMarkEnd_dead (hl : s.live? i = none) (live ok : Bool) : s.holdMarkEnd i live ok = s := by
  rw [State.holdMarkEnd, hl]
  exact if_neg (by simp)

theorem State.beginPass_dead (hl : s.live? i = none) (d : Disposition) : s.beginPass i d = s := by
  rw [State.beginPass, hl]

/-- A dropped result changes nothing, whether the write has succeeded or failed. -/
theorem WriteDropped.ends {why : WriteFor} (h : WriteDropped s i why) : s.writeDone why = s ∧ s.writeFailed why = s := by
  rcases h with rfl | rfl | rfl | ⟨rfl | ⟨d, rfl⟩, hl⟩
  · exact ⟨rfl, rfl⟩
  · exact ⟨rfl, rfl⟩
  · exact ⟨rfl, rfl⟩
  · exact ⟨State.holdMarkEnd_dead hl true true, State.holdMarkEnd_dead hl true false⟩
  · exact ⟨State.beginPass_dead hl d, State.beginPass_dead hl d⟩

section
variable {r : CarrierRecord} {h : Hold} (hr : s.rec? i = some r) (hl : r.status.isLive = true) (hh : r.hold = some h)
include hr hl hh

theorem State.holdMarkEnd_written : s.holdMarkEnd i true true =
    (s.setRec i (some { r with hold := some { h with markWritten := true } })).queueReport
      (.holdChanged (holdReport i r { h with markWritten := true } .mark)) := by
  rw [State.holdMarkEnd, State.live?_eq_some.2 ⟨hr, hl⟩]
  exact State.modHold_holdChanged hr hh (fun g => { g with markWritten := true }) .mark

theorem State.holdMarkEnd_unwritten :
    s.holdMarkEnd i true false = s.queueReport (.holdChanged (holdReport i r h .mark)) := by
  rw [State.holdMarkEnd, State.live?_eq_some.2 ⟨hr, hl⟩]
  exact State.holdChanged_of_some hr hh .mark

end

/-! ## A mark cleared (R15) -/

variable {id : TagId}

section
variable {e : LoadEntry} {t : TagRead} (he : s.ltk.loadEntry = some e) (ht : e.tag = some t) (hm : e.result = .marked)
  (hid : t.id = id)
include he ht hm hid

theorem State.entryMarked_of : s.entryMarked id = some t := by
  unfold State.entryMarked
  rw [he]
  dsimp only
  rw [ht]
  exact if_pos ⟨hm, hid⟩

theorem State.entryUnmarked_of : s.entryUnmarked id = s.setEntry (some { e with tag := some { t with mark := 0 } }) := by
  unfold State.entryUnmarked
  rw [he]
  dsimp only
  rw [ht]
  exact if_pos ⟨hm, hid⟩

/-- The LOAD entry whose mark is cleared is matched again, as NEW where no record holds its tag ID (R9, R15). -/
theorem State.markCleared (free : ∀ k r, s.rec? k = some r → r.tagId ≠ id) :
    (s.entryUnmarked id).rematch .marked id =
      (s.setEntry (some { tag := some { t with mark := 0 }, result := .new, takenBy := none })).queueReport
        (.loadArrival (some { t with mark := 0 }) .new) := by
  let u := s.setEntry (some { e with tag := some { t with mark := 0 } })
  have unheld : u.recordOfTag t.id = none := State.recordOfTag_eq_none.2 fun k r hk => hid ▸ free k r hk
  have new : (u.matchTag { t with mark := 0 }).1 = .new := State.matchTag_of_none (t := { t with mark := 0 }) unheld
  rw [State.entryUnmarked_of he ht hm hid,
    State.rematch_of (e := { e with tag := some { t with mark := 0 } }) rfl rfl hm hid]
  exact State.takeMatch_untaken new (by decide)

theorem State.writeFailed_markClear : s.writeFailed (.markClear id) = s.queueReport (.loadArrival (some t) .marked) := by
  unfold State.writeFailed
  dsimp only
  rw [State.entryMarked_of he ht hm hid]

end

/-- Where LOAD holds no such tag, the end of a MARK_CLEAR's write changes nothing. -/
theorem State.markClear_gone
    (hn : ∀ e t, s.ltk.loadEntry = some e → e.tag = some t → e.result = .marked → t.id ≠ id) :
    s.writeDone (.markClear id) = s ∧ s.writeFailed (.markClear id) = s := by
  have gone : ¬(s.entryMarked id).isSome = true := fun found => by
    obtain ⟨e, t, he, ht, hm, hid⟩ := State.entryMarked_isSome.1 found
    exact hn e t he ht hm hid
  have unmarked : s.entryUnmarked id = s := by
    unfold State.entryUnmarked
    rcases he : s.ltk.loadEntry with _ | e
    · rfl
    · dsimp only
      rcases ht : e.tag with _ | t
      · rfl
      · exact if_neg fun ⟨hm, hid⟩ => hn e t he ht hm hid
  refine ⟨(congrArg (State.rematch · .marked id) unmarked).trans (State.rematch_not hn), ?_⟩
  unfold State.writeFailed
  dsimp only
  rw [Option.not_isSome_iff_eq_none.1 gone]

end

/-- Settles O45, by what the write was asked for and by its attempt. -/
theorem tagWritesAreTriedThreeTimes : Obligations.TagWritesAreTriedThreeTimes := by
  intro s p j pre post hw hj hpre ended retried failed dropped
  have done : exec (.tagWriteAttemptEnd p (some j.value)) s = .next ((ended s).writeDone j.why).settle :=
    State.goesOn_congr (State.writeEnd_done hw hj hpre)
  have last (hn : 3 ≤ j.attempt) (v : Option Byte) (hv : v ≠ some j.value) :
      exec (.tagWriteAttemptEnd p v) s = .next ((ended failed).writeFailed j.why).settle :=
    State.goesOn_congr (State.writeEnd_failed hw hj hpre hv hn)
  have same : (ended failed).ltk = (ended s).ltk :=
    congrArg (fun v : Ltk => { v with writes := pre ++ post }) (s.writeGivenUp_ltk p j)
  have settled {u v : State} (h : u = v) :
      (.next u.settle : Host.Outcome State Fault Refusal) = .next v.settle := by rw [h]
  refine ⟨fun i hi => ⟨?_, fun hn v hv => ?_⟩, fun i r h hwhy hr hl hh => ⟨?_, fun hn v hv => ?_⟩,
    fun id hwhy => ⟨fun e t he ht hm hid => ⟨fun free => ?_, fun hn v hv => ?_⟩, fun gone => ⟨?_, fun hn v hv => ?_⟩⟩,
    fun hn v hv => ?_⟩
  · have still : WriteDropped (ended s) i j.why := hi
    exact done.trans (settled still.ends.1)
  · have still : WriteDropped (ended failed) i j.why := by
      rw [WriteDropped, State.live?_of_ltk same]
      exact hi
    exact (last hn v hv).trans (settled still.ends.2)
  · rw [done, hwhy]
    exact settled (State.holdMarkEnd_written (s := ended s) hr hl hh)
  · rw [last hn v hv, hwhy]
    exact settled (State.holdMarkEnd_unwritten ((State.rec?_of_ltk same i).trans hr) hl hh)
  · rw [done, hwhy]
    exact settled (State.markCleared (s := ended s) he ht hm hid free)
  · rw [last hn v hv, hwhy]
    exact settled (State.writeFailed_markClear ((congrArg Ltk.loadEntry same).trans he) ht hm hid)
  · rw [done, hwhy]
    exact settled (State.markClear_gone (s := ended s) gone).1
  · rw [last hn v hv, hwhy]
    exact settled (State.markClear_gone fun e t he => gone e t ((congrArg Ltk.loadEntry same).symm.trans he)).2
  · refine (State.goesOn_congr (State.writeEnd_retried hw hj hpre hv hn)).trans (settled ?_)
    rfl

end Sys2Proof.Machine
end

section
/-! SUPPORT. A request that is not heard, one that screening refuses, and one that is served (R172, R176 to R180). -/

namespace Sys2Proof.Machine

/-- Until start-up ends, and on the Bench Link while the V24 transmits, a request has no effect (R172, R176). -/
theorem State.takeRequest_unheard {s : State} {l : Link}
    (h : s.starting = true ∨ (l = .bench ∧ s.liu.benchTx.isSome = true)) (tag : Byte) (r : Request) :
    s.takeRequest l tag r = s := by
  unfold State.takeRequest State.take
  by_cases starting : s.starting = true
  · exact if_pos starting
  · obtain ⟨rfl, sending⟩ := h.resolve_left starting
    rw [if_neg starting]
    exact if_pos sending

/-- A request that a link does not hear leaves all but the link as it is (R172, R176, R178). -/
theorem State.takeRequest_notHeard_onlyIn {s : State} {l : Link} (h : s.hears l = false) (tag : Byte) (r : Request) :
    OnlyIn { link := true } s (s.takeRequest l tag r) := by
  have same (e : s.takeRequest l tag r = s) : OnlyIn { link := true } s (s.takeRequest l tag r) := by
    rw [e]
    exact .refl _ s
  by_cases starting : s.starting = true
  · exact same (State.takeRequest_unheard (.inl starting) tag r)
  · cases l with
    | bench =>
      refine same (State.takeRequest_unheard (.inr ⟨rfl, ?_⟩) tag r)
      simpa [State.hears, Bool.eq_false_iff.2 starting, Option.isSome_iff_ne_none] using h
    | host =>
      unfold State.takeRequest State.take
      rw [if_neg starting]
      dsimp only
      by_cases held : s.liu.held.isSome = true
      · rw [if_pos held]
        exact .refl _ s
      · have taken : Config.replyPlaces ≤ s.placesTaken := by
          simpa [State.hears, Bool.eq_false_iff.2 starting, Option.not_isSome_iff_eq_none.1 held] using h
        rw [if_neg held, if_pos taken]
        exact s.setHeld_onlyIn _

theorem wellAsked_iff {l : Link} {r : Request} :
    wellAsked l r = true ↔ carries l (kindOf r) = true ∧ r.lengthOk = true ∧ rangesOk r = true := by
  simp only [wellAsked, Bool.and_eq_true, and_assoc]

/-- Screening hands a well-asked request to its owner, unless the busy rule refuses it (R179, R180). -/
theorem State.screenRequest_wellAsked {l : Link} {r : Request} (ha : wellAsked l r = true) (s : State) (tag : Byte) :
    s.screenRequest l (kindOf r) tag (if r.lengthOk then some r else none) =
      if s.busy l r then s.refuse .busy else s.dispatch l tag r := by
  obtain ⟨hc, hl, hr⟩ := wellAsked_iff.1 ha
  unfold State.screenRequest
  rw [if_neg (by rw [kindOf_request]; exact nofun), if_neg (by simp [hc]), if_pos hl]
  exact if_neg (by simp [hr])

/-- Screening refuses any other request with a status alone (R179). -/
theorem State.screenRequest_illAsked {l : Link} {r : Request} (ha : wellAsked l r = false) (s : State) (tag : Byte) :
    ∃ st, s.screenRequest l (kindOf r) tag (if r.lengthOk then some r else none) = s.refuse st := by
  unfold State.screenRequest
  rw [if_neg (by rw [kindOf_request]; exact nofun)]
  by_cases hc : carries l (kindOf r) = true
  · rw [if_neg (by simp [hc])]
    by_cases hl : r.lengthOk = true
    · have hr : rangesOk r = false := by simpa [wellAsked, hc, hl] using ha
      rw [if_pos hl]
      exact ⟨_, if_pos (by simp [hr])⟩
    · rw [if_neg hl]
      exact ⟨_, rfl⟩
  · exact ⟨_, if_pos (by simp [hc])⟩

/-- A request of a wrong length (R179 step 4). -/
theorem State.takeRequest_badLength {s : State} {l : Link} (h : s.hears l = true) (tag : Byte) {r : Request}
    (hc : carries l (kindOf r) = true) (hl : r.lengthOk = false) :
    (s.takeRequest l tag r).goesOn = .next ((s.heard l).answers l tag r .badLength []).settle := by
  refine State.takeRequest_refused h tag ?_
  unfold State.screenRequest
  rw [if_neg (by rw [kindOf_request]; exact nofun), if_neg (by simp [hc]), if_neg (by simp [hl])]

/-- A request that comes while another one of the Host Link is in execution (R180). -/
theorem State.takeRequest_busy {s : State} (h : s.hears .host = true) (tag : Byte) {r : Request}
    (ha : wellAsked .host r = true) (hb : s.busy .host r = true) :
    (s.takeRequest .host tag r).goesOn = .next (s.answers .host tag r .busy []).settle :=
  State.takeRequest_refused h tag ((State.screenRequest_wellAsked ha s tag).trans (if_pos hb))

/-- A well-asked request that is heard and that the busy rule lets pass is acted on and answered (R179). -/
theorem State.takeRequest_served {s u : State} {l : Link} (h : s.hears l = true) {r : Request}
    (ha : wellAsked l r = true) (hb : (s.heard l).busy l r = false) (tag : Byte) {st : ReplyStatus} {data : List Byte}
    (hd : (s.heard l).dispatch l tag r = (u, some (st, data))) :
    (s.takeRequest l tag r).goesOn = .next (u.answers l tag r st data).settle := by
  refine State.goesOn_congr ?_
  rw [State.takeRequest_heard h, State.screen, if_neg (Nat.not_le.2 (request_kind_lt _ (kindOf_request r))),
    State.screenRequest_wellAsked ha, if_neg (by simp [hb]), hd]
  rfl

theorem Answer.deliver_onlyIn (a : Answer) (l : Link) (kind tag : Byte) :
    OnlyIn { link := true } a.1 (a.deliver l kind tag) := by
  unfold Answer.deliver
  split
  · exact a.1.sendReply_onlyIn l _
  · exact .refl _ a.1

theorem State.heard_onlyIn (s : State) (l : Link) : OnlyIn { link := true } s (s.heard l) := by
  cases l with
  | host => exact .refl _ s
  | bench => exact s.benchHeard_onlyIn

/-- But for the links, a request does nothing, or it is well asked and does what its owner does. -/
theorem State.takeRequest_acts (s : State) (l : Link) (tag : Byte) (r : Request) :
    OnlyIn { link := true } s (s.takeRequest l tag r) ∨
      (wellAsked l r = true ∧ OnlyIn { link := true } ((s.heard l).dispatch l tag r).1 (s.takeRequest l tag r)) := by
  by_cases h : s.hears l = true
  · rw [State.takeRequest_heard h, State.screen, if_neg (Nat.not_le.2 (request_kind_lt _ (kindOf_request r)))]
    have refused {st : ReplyStatus} (e : (s.heard l).screenRequest l (kindOf r) tag (if r.lengthOk then some r else none) =
        (s.heard l).refuse st) : OnlyIn { link := true } s
          (((s.heard l).screenRequest l (kindOf r) tag (if r.lengthOk then some r else none)).deliver l (kindOf r) tag) := by
      rw [e]
      exact (s.heard_onlyIn l).trans (Answer.deliver_onlyIn ((s.heard l).refuse st) l _ tag)
    by_cases ha : wellAsked l r = true
    · have screened := State.screenRequest_wellAsked ha (s.heard l) tag
      by_cases hb : (s.heard l).busy l r = true
      · exact .inl (refused (screened.trans (if_pos hb)))
      · rw [screened, if_neg hb]
        exact .inr ⟨ha, Answer.deliver_onlyIn _ l _ tag⟩
    · obtain ⟨st, e⟩ := State.screenRequest_illAsked (Bool.eq_false_iff.2 ha) (s.heard l) tag
      exact .inl (refused e)
  · exact .inl (State.takeRequest_notHeard_onlyIn (Bool.eq_false_iff.2 h) tag r)

end Sys2Proof.Machine
end

section
/-! PROOF. How a line mode is left (R163 to R167). -/

namespace Sys2Proof.Machine

/-! ## A change of mode that no request asks for (R165, R166) -/

/-- The line mode stays, becomes STOP, or falls from RUN to PAUSE. -/
def ModeFalls (s t : State) : Prop :=
  t.lmf.mode = s.lmf.mode ∨ t.lmf.mode = .stop ∨ (s.lmf.mode = .run ∧ t.lmf.mode = .pause)

theorem ModeFalls.refl (s : State) : ModeFalls s s := .inl rfl

theorem ModeFalls.trans {s t u : State} (h : ModeFalls s t) (k : ModeFalls t u) : ModeFalls s u := by
  rcases k with same | stop | ⟨run, pause⟩
  · unfold ModeFalls
    rwa [same]
  · exact .inr (.inl stop)
  · rcases h with same | stop | ⟨-, paused⟩
    · exact .inr (.inr ⟨same.symm.trans run, pause⟩)
    · cases run.symm.trans stop
    · cases run.symm.trans paused

/-- An operation that does not touch the line mode. -/
theorem Keeps.modeFalls {b : Blocks} {s t : State} (h : Keeps b s t) (hb : b.mode = false) : ModeFalls s t :=
  .inl (h.mode hb)

theorem ModeFalls.foldl {α : Type} {f : State → α → State} (hf : ∀ t x, ModeFalls t (f t x)) (xs : List α) (s : State) :
    ModeFalls s (xs.foldl f s) := by
  induction xs generalizing s with
  | nil => exact .refl s
  | cons x xs ih => exact (hf s x).trans (ih _)

theorem State.modRec_modeFalls (s : State) (i : RecIx) (f : CarrierRecord → CarrierRecord) : ModeFalls s (s.modRec i f) := by
  unfold State.modRec
  split <;> exact .inl rfl

/-- A fault takes the line to STOP, or RUN to PAUSE (R165). -/
theorem State.raiseFault_modeFalls (s : State) (code : FaultCode) (o : Origin) (d : FaultDetail) :
    ModeFalls s (s.raiseFault code o d) := by
  have changes (t : State) : ModeFalls t (t.faultMode code) := by
    unfold State.faultMode
    split
    · exact .inr (.inl (t.setMode_mode .stop _))
    · exact .refl t
    · split
      · rename_i h
        exact .inr (.inr ⟨h.2, t.setMode_mode .pause _⟩)
      · exact .refl t
  exact ((s.noteFault_keeps code o d).modeFalls rfl).trans (changes _)

/-- The emergency stop takes the line to STOP (R166). -/
theorem State.emergency_mode (s : State) : s.emergency.lmf.mode = .stop := by
  unfold State.emergency
  split
  · exact (s.cellsEmergency_keeps.mode rfl).trans ‹_›
  · rw [(State.tunnelMode_keeps _).mode rfl, (State.cellsEmergency_keeps _).mode rfl, (State.headsMode_keeps _ _).mode rfl,
      (State.trackerMode_keeps _ _ _).mode rfl, State.putMode_mode]

theorem State.estopEvent_modeFalls (s : State) : ModeFalls s s.estopEvent := by
  unfold State.estopEvent
  split
  · exact .refl s
  · split
    · exact .inl rfl
    · exact .inr (.inl (State.emergency_mode _))

/-! ## The commands that may raise such a fault -/

theorem State.checkFailed_modeFalls (s : State) (i : RecIx) (p : Place) : ModeFalls s (s.checkFailed i p) :=
  ((((s.dropRead_keeps p).modeFalls rfl).trans (State.modRec_modeFalls _ i _)).trans
    ((State.dropWalks_keeps _ i).modeFalls rfl)).trans (State.raiseFault_modeFalls _ _ _ _)

theorem State.readEnd_modeFalls (s : State) (p : Place) (result : Option TagRead) : ModeFalls s (s.readEnd p result) := by
  have again (q : Place) : ModeFalls s (s.nextAttempt q) := (s.nextAttempt_keeps q).modeFalls rfl
  unfold State.readEnd
  split
  · exact .refl s
  · split
    · exact (((s.dropRead_keeps p).modeFalls rfl).trans ((State.takeMatch_keeps _ _).modeFalls rfl)).trans
        ((State.arrivalTold_keeps _).modeFalls rfl)
    · split
      · exact again p
      · exact (s.unreadable_keeps.modeFalls rfl).trans ((State.arrivalTold_keeps _).modeFalls rfl)
    · unfold State.checkAttempt
      split
      · exact (s.dropRead_keeps _).modeFalls rfl
      · split
        · exact (s.checkPassed_keeps _ _).modeFalls rfl
        · exact s.checkFailed_modeFalls _ _
      · split
        · exact again _
        · exact s.checkFailed_modeFalls _ _

theorem State.moveTimeout_modeFalls (s : State) (i : RecIx) : ModeFalls s (s.moveTimeout i) := by
  unfold State.moveTimeout
  split
  · exact (((s.expire_keeps _).modeFalls rfl).trans ((State.timeOutMove_keeps _ i).modeFalls rfl)).trans
      (State.raiseFault_modeFalls _ _ _ _)
  · exact .refl s

theorem State.carrierMissing_modeFalls (s : State) (p : Place) : ModeFalls s (s.carrierMissing p) := by
  unfold State.carrierMissing
  split
  · split
    · exact (((((s.setSensor_keeps p false).modeFalls rfl).trans ((State.dropRead_keeps _ p).modeFalls rfl)).trans
        (State.modRec_modeFalls _ _ _)).trans (State.raiseFault_modeFalls _ _ _ _)).trans
          ((State.loseCarrier_keeps _ _ p).modeFalls rfl)
    · exact .refl s
  · exact .refl s

theorem State.sampleZone_modeFalls (s : State) (adc : Vector (Option Int) 8) (z : ZoneIx) :
    ModeFalls s (s.sampleZone adc z) := by
  have raised {b : Prop} [Decidable b] {t : State} (h : ModeFalls s t) (code : FaultCode) (d : FaultDetail) :
      ModeFalls s (if b then t.raiseFault code .ctc d else t) := by
    split
    · exact h.trans (t.raiseFault_modeFalls _ _ _)
    · exact h
  exact raised (raised (raised ((s.setZone_keeps z _).modeFalls rfl) _ _) _ _) _ _

theorem State.thermalSample_modeFalls (s : State) (adc : Vector (Option Int) 8) : ModeFalls s (s.thermalSample adc) := by
  have sampled (t : State) : ModeFalls t (zoneIxs.foldl (fun u z => u.sampleZone adc z) t) :=
    ModeFalls.foldl (fun u z => u.sampleZone_modeFalls adc z) _ t
  have timed (x : LineTime) :
      ModeFalls s { s.atTime x with ctc := { (s.atTime x).ctc with thermalAt := x } } := .inl rfl
  unfold State.thermalSample
  exact ((timed _).trans (sampled _)).trans ((State.thermalDoses_keeps _).modeFalls rfl)

/-! ## The store's accesses (R26, R172) -/

theorem State.endStartUp_modeFalls (s : State) (config : LiveConfig) : ModeFalls s (s.endStartUp config) := by
  let told := (s.modRsc fun v => { v with startUp := none, live := config }).queueReport
    (.lineMode s.lmf.mode .idle s.now .startUp)
  have tells : ModeFalls s told :=
    ((s.modRsc_keeps _ rfl).modeFalls rfl).trans ((State.queueReport_keeps _ _).modeFalls rfl)
  have stops : ModeFalls told (if told.lmf.estop then told.emergency else told) := by
    split
    · exact .inr (.inl told.emergency_mode)
    · exact .refl told
  have arrives (t : State) : ModeFalls t (if t.present .load then t.beginArrival else t) := by
    split
    · exact t.beginArrival_keeps.modeFalls rfl
    · exact .refl t
  exact (tells.trans stops).trans (arrives _)

theorem State.startUpTakes_modeFalls (s : State) (bytes : Option (List Byte)) : ModeFalls s (s.startUpTakes bytes) := by
  have sets (t : State) (u : Option StartUp) : ModeFalls t (t.setStartUp u) := (t.setStartUp_keeps u).modeFalls rfl
  have copied (f : Rsc → Rsc) : ModeFalls s (s.modRsc f) := .inl rfl
  have header (u : StartUp) : ModeFalls s (s.takeHeader u) := by
    unfold State.takeHeader
    generalize (if u.failed then StoreState.blank else storeStateOf u.bytes) = st
    dsimp only
    split
    · exact (copied _).trans (State.endStartUp_modeFalls _ _)
    · exact (copied _).trans (sets _ _)
  unfold State.startUpTakes
  split
  · exact .refl s
  · dsimp only
    split
    · exact sets s _
    · split
      · exact (copied _).trans (State.endStartUp_modeFalls _ _)
      · exact header _

theorem State.handRead_modeFalls (s : State) (who : Requestor) (bytes : List Byte) : ModeFalls s (s.handRead who bytes) := by
  unfold State.handRead
  split
  · exact s.startUpTakes_modeFalls _
  · exact (s.landFetch_keeps _ _).modeFalls rfl
  · split
    · exact (s.readBackEnd_keeps _ _ _).modeFalls rfl
    all_goals exact .refl s
  · exact (s.loaderTakes_keeps _).modeFalls rfl
  · exact (s.hostTakes_keeps _).modeFalls rfl

theorem State.handError_modeFalls (s : State) (who : Requestor) : ModeFalls s (s.handError who) := by
  unfold State.handError
  split
  · exact s.startUpTakes_modeFalls _
  · exact (s.failFetch_keeps _).modeFalls rfl
  · split
    · exact (s.readBackEnd_keeps _ _ _).modeFalls rfl
    all_goals exact .refl s
  · exact s.loaderFails_keeps.modeFalls rfl
  · exact s.hostFails_keeps.modeFalls rfl

theorem State.accessEnd_modeFalls (s : State) (a : Access) : ModeFalls s (s.accessEnd a) := by
  have closed : ModeFalls s s.closePort := s.closePort_keeps.modeFalls rfl
  unfold State.accessEnd
  split
  · exact closed.trans (State.handRead_modeFalls _ _ _)
  · exact closed.trans ((State.handWrite_keeps (s.closePort.putStore _ _)).modeFalls rfl)

theorem State.accessError_modeFalls (s : State) (a : Access) : ModeFalls s (s.accessError a) := by
  have spoiled (t : State) (op : AccessOp) : ModeFalls t (t.spoil op) := by
    cases op <;> exact .inl rfl
  unfold State.accessError
  exact (((((s.reach_keeps _ _).modeFalls rfl).trans ((State.closePort_keeps _).modeFalls rfl)).trans (spoiled _ _)).trans
    ((State.noteFault_keeps _ _ _ _).modeFalls rfl)).trans (State.handError_modeFalls _ _)

theorem State.endAccess_modeFalls {s t : State} {f : State → Access → State} (hf : ∀ a, ModeFalls s (f s a))
    (e : s.endAccess f = .next t) : ModeFalls s t := by
  have settled (u : State) : ModeFalls u u.settle := .inl (u.settle_onlyIn.mode rfl)
  unfold State.endAccess at e
  split at e
  · split at e
    · cases e
      exact (hf _).trans (settled _)
    · cases e
  · cases e
    exact settled s

/-! ## The requests (R164, R167) -/

theorem State.setMode_same {s : State} {m : LineMode} (h : s.lmf.mode = m) (cause : ModeCause) : s.setMode m cause = s :=
  if_pos h

/-- LINE_MODE_SET to STOP is taken in every mode (R164). -/
theorem State.doModeSet_stop (s : State) : s.doModeSet .stop = (s.setMode .stop .lineModeSet).ok [] := by
  unfold State.doModeSet
  cases h : s.lmf.mode with
  | idle | run | pause | stop => rfl

/-- LINE_MODE_SET to IDLE, by the present mode (R164). -/
theorem State.doModeSet_idle (s : State) :
    s.doModeSet .idle =
      match s.lmf.mode with
      | .idle => s.ok []
      | .run | .stop => s.refuse .wrongMode
      | .pause => s.unless s.noneLive .inUse ((s.setMode .idle .lineModeSet).ok []) := by
  unfold State.doModeSet
  cases h : s.lmf.mode with
  | idle => exact congrArg (State.ok · []) (State.setMode_same h _)
  | run | pause | stop => rfl

/-- LINE_MODE_SET to RUN, by the present mode (R164). -/
theorem State.doModeSet_run (s : State) :
    s.doModeSet .run =
      match s.lmf.mode with
      | .idle => s.unless (decide (s.rsc.storeState ≠ .blank)) .storeBlank ((s.setMode .run .lineModeSet).ok [])
      | .run => s.ok []
      | .pause => (s.setMode .run .lineModeSet).ok []
      | .stop => s.refuse .wrongMode := by
  unfold State.doModeSet
  cases h : s.lmf.mode with
  | run => exact congrArg (State.ok · []) (State.setMode_same h _)
  | idle | pause | stop => rfl

/-- LINE_MODE_SET to PAUSE, by the present mode (R164). -/
theorem State.doModeSet_pause (s : State) :
    s.doModeSet .pause =
      match s.lmf.mode with
      | .idle | .stop => s.refuse .wrongMode
      | .run => (s.setMode .pause .lineModeSet).ok []
      | .pause => s.ok [] := by
  unfold State.doModeSet
  cases h : s.lmf.mode with
  | pause => exact congrArg (State.ok · []) (State.setMode_same h _)
  | idle | run | stop => rfl

/-- No record is live. -/
theorem State.noneLive_iff {s : State} :
    s.noneLive = true ↔ ∀ i r, s.rec? i = some r → r.status.isLive = false := by
  simp only [State.noneLive, recIxs, List.all_eq_true, List.mem_finRange, forall_const, Option.isNone_iff_eq_none,
    Option.eq_none_iff_forall_ne_some]
  refine forall_congr' fun i => ⟨fun h r hr => Bool.eq_false_iff.2 fun live => h r (State.live?_eq_some.2 ⟨hr, live⟩), ?_⟩
  intro h r hr
  obtain ⟨found, live⟩ := State.live?_eq_some.1 hr
  rw [h r found] at live
  cases live

/-! ## What a command does to the line mode -/

/-- What a command other than POR and the frames can do to the line mode. -/
inductive ModeStep (c : Instr) (s t : State) : Prop where
  /-- No request asks for it: it stays, becomes STOP, or falls from RUN to PAUSE. -/
  | falls (h : ModeFalls s t)
  | resumes (tag : Byte) (hc : c = .resume .host tag) (before : s.lmf.mode = .stop) (after : t.lmf.mode = .pause)
  | idles (tag : Byte) (hc : c = .lineModeSet .host tag 0x00) (before : s.lmf.mode = .pause) (empty : s.noneLive = true)
      (after : t.lmf.mode = .idle)
  | runs (tag : Byte) (hc : c = .lineModeSet .host tag 0x01) (before : s.lmf.mode = .idle ∨ s.lmf.mode = .pause)
      (after : t.lmf.mode = .run)

/-- The byte that LINE_MODE_SET gives for a mode. -/
theorem modeOf_eq_some {b : Byte} {m : LineMode} (h : modeOf b = some m) : b = BitVec.ofNat 8 (modeCode m) := by
  unfold modeOf at h
  split at h
  · cases h; assumption
  · split at h
    · cases h; assumption
    · split at h
      · cases h; assumption
      · split at h
        · cases h; assumption
        · cases h

/-- LINE_MODE_SET's step of the line mode (R164). -/
theorem State.doModeSet_modeStep {tag b : Byte} {m : LineMode} (hb : modeOf b = some m) {s t : State}
    (ht : t.lmf.mode = (s.doModeSet m).1.lmf.mode) : ModeStep (.lineModeSet .host tag b) s t := by
  have code := modeOf_eq_some hb
  have stays {st : ReplyStatus} {data : List Byte} (e : s.doModeSet m = (s, some (st, data))) :
      ModeStep (.lineModeSet .host tag b) s t := .falls (.inl (by rw [ht, e]))
  have sets (e : s.doModeSet m = (s.setMode m .lineModeSet).ok []) : t.lmf.mode = m := by
    rw [ht, e, State.ok, State.setMode_mode]
  cases m with
  | stop => exact .falls (.inr (.inl (sets s.doModeSet_stop)))
  | idle =>
    have acts := s.doModeSet_idle
    cases hm : s.lmf.mode with
    | idle | run | stop => exact stays (by rw [acts, hm]; rfl)
    | pause =>
      rw [hm] at acts
      by_cases empty : s.noneLive = true
      · exact .idles tag (by rw [code]; rfl) hm empty (sets (acts.trans (if_pos empty)))
      · exact stays (acts.trans (if_neg empty))
  | run =>
    have acts := s.doModeSet_run
    cases hm : s.lmf.mode with
    | run | stop => exact stays (by rw [acts, hm]; rfl)
    | pause =>
      rw [hm] at acts
      exact .runs tag (by rw [code]; rfl) (.inr hm) (sets acts)
    | idle =>
      rw [hm] at acts
      by_cases store : decide (s.rsc.storeState ≠ .blank) = true
      · exact .runs tag (by rw [code]; rfl) (.inl hm) (sets (acts.trans (if_pos store)))
      · exact stays (acts.trans (if_neg store))
  | pause =>
    have acts := s.doModeSet_pause
    cases hm : s.lmf.mode with
    | idle | stop | pause => exact stays (by rw [acts, hm]; rfl)
    | run =>
      rw [hm] at acts
      exact .falls (.inr (.inr ⟨hm, sets acts⟩))

/-- RESUME's step of the line mode (R167). -/
theorem State.doResume_modeStep {tag : Byte} {s t : State} (ht : t.lmf.mode = s.doResume.1.lmf.mode) :
    ModeStep (.resume .host tag) s t := by
  unfold State.doResume at ht
  split at ht
  · exact .falls (.inl ht)
  · split at ht
    · exact .falls (.inl ht)
    · exact .resumes tag rfl (not_not.1 ‹_›) (ht.trans (s.setMode_mode .pause _))

/-- A request that only the Host Link carries does nothing to the line mode, or what its owner does. -/
theorem State.takeRequest_mode {l : Link} {r : Request} (hr : carries .bench (kindOf r) = false) (s : State) (tag : Byte) :
    (s.takeRequest l tag r).settle.lmf.mode = s.lmf.mode ∨
      (l = .host ∧ rangesOk r = true ∧
        (s.takeRequest l tag r).settle.lmf.mode = (s.dispatch .host tag r).1.lmf.mode) := by
  rw [(State.settle_onlyIn _).mode rfl]
  rcases s.takeRequest_acts l tag r with only | ⟨ha, only⟩
  · exact .inl (only.mode rfl)
  · obtain ⟨hc, -, ranges⟩ := wellAsked_iff.1 ha
    cases l with
    | bench => cases hr.symm.trans hc
    | host => exact .inr ⟨rfl, ranges, only.mode rfl⟩

/-- A command that does not touch the line mode. -/
theorem ModeStep.of_frame {c : Instr} {b : Blocks} {s t : State} (e : exec c s = .next t) (hb : partsOf c = some b)
    (hm : b.mode = false) : ModeStep c s t := by
  obtain ⟨u, rfl, only⟩ := commandsKeepTheirFrames.2 c b s t hb e
  exact .falls (.inl ((u.settle_onlyIn.mode rfl).trans (only.mode hm)))

theorem exec_modeStep {c : Instr} {s t : State} (e : exec c s = .next t) (hpor : ∀ f, c ≠ .por f)
    (hframe : ∀ l bytes, c ≠ .frameValid l bytes) (hheld : c ≠ .heldFrameScreen) : ModeStep c s t := by
  have falls {u : State} (h : ModeFalls s u) (e : u.goesOn = .next t) : ModeStep c s t := by
    cases e
    exact .falls (h.trans (.inl (u.settle_onlyIn.mode rfl)))
  cases c with
  | por f => exact absurd rfl (hpor f)
  | frameValid l bytes => exact absurd rfl (hframe l bytes)
  | heldFrameScreen => exact absurd rfl hheld
  | emergencyStop => exact falls s.estopEvent_modeFalls e
  | storeAccessEnd => exact .falls (State.endAccess_modeFalls s.accessEnd_modeFalls e)
  | storeAccessTimeout => exact .falls (State.endAccess_modeFalls s.accessError_modeFalls e)
  | tagReadAttemptEnd p x => exact falls (s.readEnd_modeFalls p x) e
  | transportTimeout i => exact falls (s.moveTimeout_modeFalls i) e
  | carrierMissing p => exact falls (s.carrierMissing_modeFalls p) e
  | thermalSample adc => exact falls (s.thermalSample_modeFalls adc) e
  | lineModeSet l tag b =>
    cases e
    rcases State.takeRequest_mode (l := l) (r := .lineModeSet b) rfl s tag with same | ⟨rfl, ranges, acts⟩
    · exact .falls (.inl same)
    · obtain ⟨m, hm⟩ := Option.isSome_iff_exists.1 ranges
      exact State.doModeSet_modeStep hm (acts.trans (congrArg (fun a : Answer => a.1.lmf.mode)
        (State.withCode_some hm s s.doModeSet)))
  | resume l tag =>
    cases e
    rcases State.takeRequest_mode (l := l) (r := .resume) rfl s tag with same | ⟨rfl, -, acts⟩
    · exact .falls (.inl same)
    · exact State.doResume_modeStep acts
  | emergencyStopRelease | frameDiscard | rxGapTimeout | hostTxDone | benchTxDone | benchSilenceExpiry | storeGrant
  | loadArrival | loadEntryClear | tagWriteAttemptEnd | moveBegin | moveEnd | sourceCleared | carrierLifted | carrierSetBack
  | doneCarrierLifted | benchMoveStart | walkStart | positionerArrival | inspectPositionTimeout | channelResult
  | groupWaitExpiry | resultTimerExpiry | homeReached | homeTimeout | programStart | seekEnd | leadTimerExpiry
  | valveCloseTimer | motionEnd | valveFault | gantryTimeout | gantryHaltReport | starveLimit | entryTransferStart
  | laneEntryEnd | encoderPulse | exitTransferStart | exitTransferEnd | uvSample | warmUpEnd | ballastFault
  | ballastFaultInactive
  | identify | lineStatus | lineConfig | lineClear | faultRead | faultAck | admitCarrier | remove | markClear | carrierRead
  | traceTake | holdPlace | holdRead | holdClaim | holdUnclaim | instructionPost | findingPost | findingRead | benchList
  | holdDispose | cellHome | cellAbort | cellClear | headClear | lampSet | storeRead | storeWrite | recipeCheck
  | slotList => exact .of_frame e rfl rfl

/-- Settles O23, by what the command does to the line mode. -/
theorem modesAreLeftOnlyByTheirRequests : Obligations.ModesAreLeftOnlyByTheirRequests := by
  intro c s t e hpor hframe hheld
  cases exec_modeStep e hpor hframe hheld with
  | falls h =>
    rcases h with same | stop | ⟨run, pause⟩
    · rw [same]
      exact ⟨fun h k => absurd h k, fun h k => absurd h k, fun h k => absurd h k⟩
    · simp [stop]
    · simp [run, pause]
  | resumes tag hc before after => exact ⟨fun _ _ => ⟨after, tag, hc⟩, by simp [after], by simp [after]⟩
  | idles tag hc before empty after =>
    exact ⟨by simp [before], fun _ _ => ⟨before, State.noneLive_iff.1 empty, tag, hc⟩, by simp [after]⟩
  | runs tag hc before after =>
    refine ⟨fun stop => ?_, by simp [after], fun _ _ => ⟨before, tag, hc⟩⟩
    simp [stop] at before

end Sys2Proof.Machine
end

section
/-! PROOF. Screening's refusals in their order, and the requests that only read (R171 to R180). -/

namespace Sys2Proof.Machine

/-! ## The busy rule (R180) -/

/-- The requests that are served while another one is in execution. -/
theorem servedWhileBusy_iff (r : Request) :
    servedWhileBusy r = true ↔ r = .lineStatus ∨ r = .faultRead ∨ r = .lineModeSet 0x03 := by
  cases r with
  | lineModeSet m =>
    have stops : modeOf m = some .stop ↔ m = 0x03 := ⟨modeOf_eq_some, by rintro rfl; rfl⟩
    simpa [servedWhileBusy] using stops
  | _ => simp [servedWhileBusy]

theorem State.busy_host {s : State} (hreq : s.rsc.hostReq.isSome = true) {r : Request} (hr : servedWhileBusy r = false) :
    s.busy .host r = true := by
  simp [State.busy, hreq, hr]

theorem State.busy_free {s : State} (hreq : s.rsc.hostReq = none) (l : Link) (r : Request) : s.busy l r = false := by
  simp [State.busy, hreq]

theorem State.busy_served (s : State) (l : Link) {r : Request} (hr : servedWhileBusy r = true) : s.busy l r = false := by
  simp [State.busy, hr]

/-- Settles O16: not heard, then refused by link, length, range and the busy rule. -/
theorem screeningRefusesInOrder : Obligations.ScreeningRefusesInOrder := by
  refine ⟨fun c l tag r s hc unheard => ?_, fun c l tag r s hc heard => ⟨fun link => ?_, fun link len => ?_,
    fun link len range => ?_, fun host asked busy status read stop => ?_⟩⟩
  all_goals rw [exec_request hc]
  · rw [State.takeRequest_unheard unheard]
  · exact State.takeRequest_notCarried heard tag link
  · exact State.takeRequest_badLength heard tag link len
  · exact State.takeRequest_outOfRange heard tag link len range
  · subst host
    have unserved : servedWhileBusy r = false := by
      rw [Bool.eq_false_iff, ne_eq, servedWhileBusy_iff]
      rintro (rfl | rfl | rfl)
      · exact status rfl
      · exact read rfl
      · exact stop rfl
    exact State.takeRequest_busy heard tag asked (State.busy_host busy unserved)

/-! ## Requests that only read (R25, R44, R154, R171, R174, R175) -/

theorem wellAsked_carrierRead {b : Byte} {i : RecIx} (h : b.toNat = i.val) : wellAsked .host (.carrierRead b) = true :=
  wellAsked_iff.2 ⟨rfl, rfl, decide_eq_true (by omega)⟩

/-- Settles O19, request by request. -/
theorem readingRequestsOnlyReply : Obligations.ReadingRequestsOnlyReply := by
  intro s tag index i hi
  refine ⟨fun heard => ⟨?status, ?faults⟩, fun taken => ⟨?carrier, ?slots⟩, fun heard => ?bench⟩
  case status => exact State.takeRequest_served heard rfl (s.busy_served .host rfl) tag rfl
  case faults => exact State.takeRequest_served heard rfl (s.busy_served .host rfl) tag rfl
  case carrier =>
    exact State.takeRequest_answered taken (wellAsked_carrierRead hi) tag (State.withRec_eq hi s.doCarrierRead)
  case slots => exact State.takeRequest_answered taken rfl tag rfl
  case bench => exact State.takeRequest_served heard rfl rfl tag rfl

/-- The bytes of IDENTIFY's reply (R175). -/
theorem State.doIdentify_eq (s : State) :
    s.doIdentify = s.ok [0x0F, 0x3A, 0x0B, 0x24, 0x01, match s.rsc.storeState with
      | .blank => 0
      | .opened => 1
      | .guarded => 2] := by
  unfold State.doIdentify
  cases s.rsc.storeState with
  | blank | opened | guarded => rfl

/-- Settles O20: served on a free Host Link, BUSY on one that is not, and not carried by the Bench Link. -/
theorem identifyCarriesTheCodes : Obligations.IdentifyCarriesTheCodes := by
  intro s tag
  exact ⟨fun heard free => State.takeRequest_served heard rfl (State.busy_free free .host _) tag s.doIdentify_eq,
    fun heard busy => State.takeRequest_busy heard tag rfl (State.busy_host busy rfl),
    fun heard => State.takeRequest_notCarried heard tag rfl⟩

end Sys2Proof.Machine
end

section
/-! PROOF. LINE_MODE_SET, RESUME, LINE_CONFIG and FAULT_ACK (R164, R167, R168, R171). -/

namespace Sys2Proof.Machine

/-! ## LINE_MODE_SET (R164) -/

theorem modeOf_none {b : Byte} (h : 3 < b.toNat) : modeOf b = none := by
  refine Option.eq_none_iff_forall_ne_some.2 fun m hm => ?_
  have code := modeOf_eq_some hm
  cases m with
  | idle | run | pause | stop =>
    rw [code] at h
    exact absurd h (by decide)

theorem wellAsked_lineModeSet {b : Byte} {m : LineMode} (h : modeOf b = some m) :
    wellAsked .host (.lineModeSet b) = true :=
  wellAsked_iff.2 ⟨rfl, rfl, by rw [rangesOk, h]; rfl⟩

/-- LINE_MODE_SET to a mode other than STOP: BUSY by the busy rule, otherwise what the table says. -/
theorem State.takeRequest_modeSet {s : State} {tag b : Byte} {m : LineMode} (heard : s.hears .host = true)
    (hb : modeOf b = some m) (hm : m ≠ .stop) {u : State} {st : ReplyStatus}
    (acts : s.doModeSet m = (u, some (st, []))) :
    if s.rsc.hostReq.isSome = true then
      (s.takeRequest .host tag (.lineModeSet b)).goesOn = .next (s.answers .host tag (.lineModeSet b) .busy []).settle
    else
      (s.takeRequest .host tag (.lineModeSet b)).goesOn = .next (u.answers .host tag (.lineModeSet b) st []).settle := by
  split
  · refine State.takeRequest_busy heard tag (wellAsked_lineModeSet hb) (State.busy_host ‹_› ?_)
    simp [servedWhileBusy, hb, hm]
  · exact State.takeRequest_served heard (wellAsked_lineModeSet hb)
      (State.busy_free (Option.not_isSome_iff_eq_none.1 ‹_›) .host _) tag
      ((State.withCode_some hb s s.doModeSet).trans acts)

/-- Settles O21, by the mode asked for and then by the present one. -/
theorem modeSetFollowsTheTable : Obligations.ModeSetFollowsTheTable := by
  intro s tag b
  refine ⟨fun heard => State.takeRequest_notCarried heard tag rfl, fun heard => ?_⟩
  intro reply free
  have answered {m : LineMode} (hb : modeOf b = some m) (hm : m ≠ .stop) {u : State} {st : ReplyStatus}
      (acts : s.doModeSet m = (u, some (st, []))) : free (reply u st) := State.takeRequest_modeSet heard hb hm acts
  refine ⟨fun hb => ?bad, ?stop, fun hb => ?idle, fun hb => ?run, fun hb => ?pause⟩
  case bad =>
    exact State.takeRequest_outOfRange heard tag rfl rfl (by rw [rangesOk, modeOf_none hb]; rfl)
  case stop =>
    rintro rfl
    exact State.takeRequest_served heard rfl (s.busy_served .host rfl) tag s.doModeSet_stop
  case idle =>
    have hb : modeOf b = some .idle := by rw [hb]; rfl
    have acts := s.doModeSet_idle
    cases hm : s.lmf.mode with
    | idle | run | stop =>
      rw [hm] at acts
      exact answered hb nofun acts
    | pause =>
      rw [hm] at acts
      have empty : s.noneLive = true ↔ ¬ ∃ i r, s.rec? i = some r ∧ r.status.isLive = true := by
        simp [State.noneLive_iff]
      by_cases live : ∃ i r, s.rec? i = some r ∧ r.status.isLive = true
      · simp only [if_pos live]
        exact answered hb nofun (acts.trans (if_neg (empty.not.2 (not_not.2 live))))
      · simp only [if_neg live]
        exact answered hb nofun (acts.trans (if_pos (empty.2 live)))
  case run =>
    have hb : modeOf b = some .run := by rw [hb]; rfl
    have acts := s.doModeSet_run
    cases hm : s.lmf.mode with
    | run | pause | stop =>
      rw [hm] at acts
      exact answered hb nofun acts
    | idle =>
      rw [hm] at acts
      by_cases blank : s.rsc.storeState = .blank
      · simp only [if_pos blank]
        exact answered hb nofun (acts.trans (if_neg (by simp [blank])))
      · simp only [if_neg blank]
        exact answered hb nofun (acts.trans (if_pos (by simp [blank])))
  case pause =>
    have hb : modeOf b = some .pause := by rw [hb]; rfl
    have acts := s.doModeSet_pause
    cases hm : s.lmf.mode with
    | idle | run | pause | stop =>
      rw [hm] at acts
      exact answered hb nofun acts

/-! ## RESUME (R167) -/

/-- The zones whose fatal condition persists (R121, R122). -/
theorem State.fatalZones_iff (s : State) : (!s.fatalZones.isEmpty) = true ↔
    ∃ z : ZoneIx, s.ctc.zones[z].cond = .lost ∨ ∃ t, s.ctc.zones[z].temp = some t ∧ 2300 < t := by
  have hot (o : Option Int) : tooHot o = true ↔ ∃ t, o = some t ∧ 2300 < t := by
    cases o with
    | none => simp [tooHot]
    | some x => exact decide_eq_true_iff.trans ⟨fun h => ⟨x, rfl, h⟩, by rintro ⟨t, ⟨⟩, h⟩; exact h⟩
  rw [Bool.not_eq_true', Bool.eq_false_iff, ne_eq, List.isEmpty_iff, State.fatalZones, List.filter_eq_nil_iff]
  simp only [Bool.or_eq_true, decide_eq_true_eq, hot, not_forall, not_not, zoneIxs, List.mem_finRange, exists_prop, true_and]

/-- Settles O24, by the mode and by what still forbids the line to leave STOP. -/
theorem resumeNeedsAClearLine : Obligations.ResumeNeedsAClearLine := by
  intro s tag taken fatal
  have answered {u : State} {st : ReplyStatus} {data : List Byte} (acts : s.doResume = (u, some (st, data))) :
      exec (.resume .host tag) s = .next (u.answers .host tag .resume st data).settle :=
    State.takeRequest_answered taken rfl tag acts
  have blocked : (s.lmf.estop || s.lmf.record.fatal || !s.fatalZones.isEmpty) = true ↔
      s.lmf.estop = true ∨ s.lmf.record.fatal = true ∨ fatal := by
    rw [Bool.or_eq_true, Bool.or_eq_true, State.fatalZones_iff, or_assoc]
  refine ⟨fun hm => answered (if_pos hm), fun hm held => ?_, fun hm estop flag zones => ?_⟩
  · exact answered ((if_neg (not_not.2 hm)).trans (if_pos (blocked.2 held)))
  · exact answered ((if_neg (not_not.2 hm)).trans (if_neg fun h =>
      (blocked.1 h).elim (by simp [estop]) fun h => h.elim (by simp [flag]) zones))

/-! ## LINE_CONFIG and FAULT_ACK (R168, R171) -/

theorem rangesOk_lineConfig_iff (x : Byte) (lo : BitVec 16) :
    rangesOk (.lineConfig x lo) = true ↔ (1 ≤ x.toNat ∧ x.toNat ≤ 4) ∧ 1 ≤ lo.toNat ∧ lo.toNat ≤ 2000 := by
  simp only [rangesOk, Bool.and_eq_true, decide_eq_true_eq, and_assoc]

theorem rangesOk_faultAck_iff (v : Byte) : rangesOk (.faultAck v) = true ↔ v ≠ 0 ∧ v.toNat < 8 := by
  simp [rangesOk, BitVec.toNat_eq]

/-- The flags of the classes named are cleared (R171). -/
theorem FaultRecord.acknowledge_eq (r : FaultRecord) (v : Byte) :
    r.acknowledge v = { r with
      correctable := if v.getLsbD 0 then false else r.correctable
      nonfatal := if v.getLsbD 1 then false else r.nonfatal
      fatal := if v.getLsbD 2 then false else r.fatal
      firstFatal := if v.getLsbD 2 then none else r.firstFatal } := by
  have cleared (flag named : Bool) : (flag && !named) = if named then false else flag := by
    cases named <;> simp
  simp only [FaultRecord.acknowledge, cleared]

/-- Settles O25: each request outside its ranges, then what it sets. -/
theorem lineConfigAndFaultAck : Obligations.LineConfigAndFaultAck := by
  refine ⟨fun s tag x lo taken => ?config, fun s tag v taken => ?ack⟩
  case config =>
    intro r ok
    have heard := State.hears_of_takesRequest taken
    have ranges : rangesOk r = true ↔ ok := rangesOk_lineConfig_iff x lo
    have answered {u : State} {st : ReplyStatus} (hok : ok) (acts : s.doLineConfig x.toNat lo.toNat = (u, some (st, []))) :
        exec (.lineConfig .host tag x lo) s = .next (u.answers .host tag r st []).settle :=
      State.takeRequest_answered taken (wellAsked_iff.2 ⟨rfl, rfl, ranges.2 hok⟩) tag acts
    exact ⟨fun bad => State.takeRequest_outOfRange heard tag rfl rfl (Bool.eq_false_iff.2 (mt ranges.1 bad)),
      fun hok hm => answered hok (if_neg (by simp [hm])), fun hok hm => answered hok (if_pos (by simp [hm]))⟩
  case ack =>
    have heard := State.hears_of_takesRequest taken
    refine ⟨fun bad => State.takeRequest_outOfRange heard tag rfl rfl ?_, fun hv hlt => ?_⟩
    · rw [Bool.eq_false_iff, ne_eq, rangesOk_faultAck_iff]
      rintro ⟨hv, hlt⟩
      exact bad.elim hv (by omega)
    · rw [← FaultRecord.acknowledge_eq]
      exact State.takeRequest_answered taken (wellAsked_iff.2 ⟨rfl, rfl, (rangesOk_faultAck_iff v).2 ⟨hv, hlt⟩⟩) tag rfl

end Sys2Proof.Machine
end

section
/-! PROOF. The step, the reset state, POR, and the inputs' and transmitters' own events (R116, R166, R172, R173, R181, R182). -/

namespace Sys2Proof.Machine

/-- Settles O1: `step` by the queue. -/
theorem stepRunsTheFrontCommand : Obligations.StepRunsTheFrontCommand := by
  refine ⟨fun c rest s h => ?_, fun s h => ?_⟩
  · unfold step
    rw [h]
  · have idle : step s = .next s.tick := by
      unfold step
      rw [h]
    exact idle

/-- Settles O12: each event's own update. -/
theorem inputsAndTransmittersOnlyTakeTheirLevel : Obligations.InputsAndTransmittersOnlyTakeTheirLevel := by
  refine ⟨fun s => ⟨rfl, rfl, fun active => ?_, fun clear starting => ?_⟩, fun s => ⟨rfl, rfl⟩⟩
  · exact State.goesOn_congr (if_pos active)
  · exact State.goesOn_congr ((if_neg (by simp [clear])).trans (if_pos starting))

/-! ## The reset state (R172) -/

theorem State.reset_rec (i : RecIx) : State.reset.rec? i = none := by
  simp [State.reset, Ltk.reset, State.rec?]

theorem State.reset_cell (c : CellId) : State.reset.cell c = SprayCell.reset := by
  cases c <;> rfl

/-- Settles O5: no record is in use, every queue and count is empty, and the cells rest. -/
theorem resetKeepsTheLaws : Obligations.ResetKeepsTheLaws := by
  refine ⟨rfl, ⟨Nat.zero_le _, Nat.zero_le _, Nat.zero_le _, Nat.zero_le _, Nat.zero_le _⟩, fun i r hr => ?_, fun c => ?_, rfl⟩
  · rw [State.reset_rec] at hr
    cases hr
  · refine SprayCell.Resting.cellOk ?_
    rw [State.reset_cell]
    exact ⟨rfl, rfl, rfl⟩

/-! ## POR (R172) -/

/-- A byte other than the one that is written reads as before, in any list. -/
theorem storeGet_storePut_of_ne (m : List Host.Cell) {x y : Nat} (v : Byte) (h : y ≠ x) :
    storeGet (storePut m x v) y = storeGet m y := by
  induction m with
  | nil =>
    unfold storePut
    split
    · rfl
    · exact if_neg h
  | cons c m ih =>
    obtain ⟨a, b⟩ := c
    unfold storePut
    split
    · split
      · rfl
      · exact if_neg h
    · split
      next e =>
        have skipped : storeGet ((a, b) :: m) y = storeGet m y := if_neg (e ▸ h)
        rw [skipped]
        split
        · rfl
        · exact if_neg h
      next => simp only [storeGet, ih]

/-- A byte outside the range that is written reads as before, in any list. -/
theorem storeGet_storeWrite_outside (m : List Host.Cell) (o : Nat) {y : Nat} (vs : List Byte)
    (h : y < o ∨ o + vs.length ≤ y) : storeGet (storeWrite m o vs) y = storeGet m y := by
  induction vs generalizing m o with
  | nil => rfl
  | cons v vs ih =>
    rw [List.length_cons] at h
    rw [storeWrite, ih _ _ (by omega), storeGet_storePut_of_ne m v (by omega)]

/-- A page write cut off leaves every byte outside its range (R26, log 8). -/
theorem State.spoil_storeGet (s : State) (op : AccessOp) {a : Nat}
    (h : ∀ o data, op = .write o data → a < o ∨ o + data.length ≤ a) :
    storeGet (s.spoil op).store a = storeGet s.store a := by
  cases op with
  | read o n => rfl
  | write o data =>
    refine storeGet_storeWrite_outside s.store o (unknownBytes s.freeCount data.length) ?_
    simpa [unknownBytes] using h o data rfl

theorem State.powerOn_storeGet (s : State) (fast : Bool) {a : Nat}
    (h : ∀ v, s.rsc.port = some v → ∀ o data, v.op = .write o data → a < o ∨ o + data.length ≤ a) :
    storeGet (s.powerOn fast).store a = storeGet s.store a := by
  unfold State.powerOn
  split
  next v hp => exact s.spoil_storeGet v.op (h v hp)
  next => rfl

/-- Settles O10: the blocks that `State.powerOn` writes, and the store. -/
theorem powerOnResets : Obligations.PowerOnResets := by
  intro fast s
  refine ⟨s.powerOn fast, rfl, s.powerOn_pending fast, fun i => ?records, rfl, rfl, rfl, rfl, rfl, fun k => ?slots, rfl, rfl, rfl,
    rfl, rfl, ⟨_, rfl, rfl, rfl⟩, fun h => ?heads, fun c => ?cells, fun l => ?lanes, rfl, rfl, rfl, rfl, rfl, rfl,
    fun z => ?zones, fun n => ?bench, rfl, rfl, rfl, rfl, rfl, rfl, rfl, rfl, rfl, rfl, rfl, rfl, rfl, rfl, rfl, rfl, rfl,
    fun a h => s.powerOn_storeGet fast h⟩
  case records => exact Vector.getElem_replicate ..
  case slots => exact Vector.getElem_replicate ..
  case heads => cases h with | mask | inspect => exact ⟨rfl, rfl, rfl, rfl⟩
  case cells => cases c with | a | b => exact ⟨rfl, rfl, rfl, rfl, rfl, rfl⟩
  case lanes => cases l with | lane1 | lane2 => exact ⟨rfl, rfl, rfl, rfl⟩
  case zones =>
    have reset : (s.powerOn fast).ctc.zones[z] = ZoneSense.reset := Vector.getElem_replicate ..
    rw [reset]
    exact ⟨rfl, rfl⟩
  case bench => exact Vector.getElem_replicate ..

end Sys2Proof.Machine
end

section
/-! SUPPORT. What a change of the line mode does to moves, heads, cells, lanes and shutter, block by block (R3, R4, R63, R89,
R90, R113, R118). -/

namespace Sys2Proof.Machine

/-! ## Lanes and shutter (R113, R118) -/

theorem State.laneStateNow_eq (s : State) (l : LaneId) :
    s.laneStateNow l =
      if s.lmf.mode = .idle ∨ s.lmf.mode = .stop then .stopped else if s.frontAtExit l then .blocked else .running := by
  unfold State.laneStateNow
  cases s.lmf.mode with
  | idle | run | pause | stop => rfl

/-- Whether a front stands at the exit depends on the lane's order and on the records alone. -/
theorem State.frontAtExit_congr {s t : State} {l : LaneId} (order : (t.lane l).order = (s.lane l).order)
    (ltk : t.ltk = s.ltk) : t.frontAtExit l = s.frontAtExit l := by
  have mm (i : RecIx) : t.mmOf i = s.mmOf i := by
    unfold State.mmOf
    rw [State.rec?_of_ltk ltk]
  unfold State.frontAtExit
  simp only [order, mm]

theorem State.laneStateNow_congr {s t : State} {l : LaneId} (mode : t.lmf.mode = s.lmf.mode)
    (order : (t.lane l).order = (s.lane l).order) (ltk : t.ltk = s.ltk) : t.laneStateNow l = s.laneStateNow l := by
  rw [State.laneStateNow_eq, State.laneStateNow_eq, mode, State.frontAtExit_congr order ltk]

theorem State.deriveLane_lane_of_ne (s : State) {l k : LaneId} (h : k ≠ l) (cause : LaneCause) :
    (s.deriveLane l cause).lane k = s.lane k := by
  rw [State.lane_of_ctc (s.deriveLane_ctc l cause), State.setLane_lane, if_neg h]

/-- Each lane's state and belt are those that the mode and its front give (R113). -/
theorem State.tunnelMode_lane (s : State) (l : LaneId) :
    s.tunnelMode.lane l = ({ s.lane l with state := s.laneStateNow l } : Lane).driven := by
  let first := s.deriveLane .lane1 .lineMode
  let both := first.deriveLane .lane2 .lineMode
  have shown : s.tunnelMode.lane l = both.lane l := by cases l <;> rfl
  rw [shown]
  cases l with
  | lane1 => exact (first.deriveLane_lane_of_ne (by decide) _).trans (s.deriveLane_lane .lane1 _)
  | lane2 =>
    have kept := s.deriveLane_keeps .lane1 .lineMode
    have lane : first.lane .lane2 = s.lane .lane2 := s.deriveLane_lane_of_ne (by decide) _
    refine (first.deriveLane_lane .lane2 _).trans ?_
    rw [lane, State.laneStateNow_congr (kept.mode rfl) (congrArg Lane.order lane) (kept.ltk rfl)]

theorem State.tunnelMode_order (s : State) (l : LaneId) : (s.tunnelMode.lane l).order = (s.lane l).order := by
  rw [State.tunnelMode_lane, Lane.driven_order]

theorem State.tunnelMode_laneState (s : State) (l : LaneId) : (s.tunnelMode.lane l).state =
    if s.lmf.mode = .idle ∨ s.lmf.mode = .stop then .stopped
    else if s.tunnelMode.frontAtExit l then .blocked else .running := by
  rw [State.frontAtExit_congr (s.tunnelMode_order l) (s.tunnelMode_keeps.ltk rfl), ← State.laneStateNow_eq,
    State.tunnelMode_lane, Lane.driven_state]

/-- The shutter follows the lamp and the mode (R118). -/
theorem State.tunnelMode_shutter (s : State) : s.tunnelMode.ctc.shutterOpen =
    decide ((s.ctc.lamp.state = .ready ∨ s.ctc.lamp.state = .low) ∧ s.lmf.mode ≠ .stop) := by
  let first := s.deriveLane .lane1 .lineMode
  let both := first.deriveLane .lane2 .lineMode
  have kept : Keeps { ctc := true, rep := true } s both :=
    (s.deriveLane_keeps .lane1 .lineMode).trans (first.deriveLane_keeps .lane2 .lineMode)
  have derived := (s.deriveLane_rebinds .lane1 .lineMode).trans (first.deriveLane_rebinds .lane2 .lineMode)
  have lamp : both.ctc.lamp = s.ctc.lamp := (congrArg Ctc.lamp derived.ctc :)
  have shown : s.tunnelMode.ctc.shutterOpen =
      ((decide (both.ctc.lamp.state = .ready) || decide (both.ctc.lamp.state = .low)) && decide (both.lmf.mode ≠ .stop)) := rfl
  rw [shown, lamp, kept.mode rfl, Bool.decide_and, Bool.decide_or]

/-! ## Heads (R63) -/

theorem State.abandonWalk_walks (s : State) (h : HeadId) : ((s.abandonWalk h).head h).state.walks = false := by
  unfold State.abandonWalk
  split
  · rw [State.modHead_head]
    rfl
  · exact Bool.eq_false_iff.2 ‹_›

theorem State.abandonWalk_head_of_ne (s : State) {h k : HeadId} (hk : k ≠ h) : (s.abandonWalk h).head k = s.head k := by
  unfold State.abandonWalk
  split
  · rw [State.modHead, State.setHead_head, if_neg hk]
  · rfl

/-- No head walks in STOP. -/
theorem State.headsMode_stop_walks (s : State) (h : HeadId) : ((s.headsMode .stop).head h).state.walks = false := by
  have shown : s.headsMode .stop = (s.abandonWalk .mask).abandonWalk .inspect := rfl
  rw [shown]
  cases h with
  | mask =>
    rw [State.abandonWalk_head_of_ne _ (by decide)]
    exact s.abandonWalk_walks .mask
  | inspect => exact State.abandonWalk_walks _ .inspect

/-! ## Cells (R89, R90) -/

/-- What an operation on one cell brings about in it holds of both when it is done to one after the other. -/
theorem State.bothCells {f : State → CellId → State} {P : SprayCell → Prop} (only : ∀ s c, OnlyCell c s (f s c))
    (own : ∀ s c, P ((f s c).cell c)) (s : State) (c : CellId) : P ((f (f s .a) .b).cell c) := by
  cases c with
  | a =>
    rw [only (f s .a) .b .a nofun]
    exact own s .a
  | b => exact own (f s .a) .b

/-- STOP leaves no program in a cell, and no homing (R89). -/
theorem State.cellStop_cell (s : State) (c : CellId) :
    ((s.cellStop c).cell c).program = none ∧ ((s.cellStop c).cell c).state ≠ .homing := by
  unfold State.cellStop
  split
  · obtain ⟨program, state, -⟩ := s.abandonProgram_cell c ‹_› .stopped none none .ready .stop
    exact ⟨program, by simp [state]⟩
  · rename_i hp
    split
    · rw [State.cellTo_cell, State.modCell_cell]
      obtain ⟨g, due, halted⟩ := (s.cell c).shutAndHalt_eq
      rw [halted]
      exact ⟨hp, nofun⟩
    all_goals
      rename_i hs
      exact ⟨hp, by simp [hs]⟩

theorem State.cellsMode_stop_cell (s : State) (c : CellId) :
    ((s.cellsMode .stop).cell c).program = none ∧ ((s.cellsMode .stop).cell c).state ≠ .homing :=
  State.bothCells (P := fun v => v.program = none ∧ v.state ≠ .homing) State.cellStop_onlyCell State.cellStop_cell s c

/-- A cell after the emergency stop (R90). -/
structure SprayCell.Unhomed (v : SprayCell) : Prop where
  state : v.state = .unhomed
  gantry : v.gantry = none
  valve : v.valveOpen = false
  program : v.program = none
  homeTimer : v.homeTimer = none
  gantryTimer : v.gantryTimer = none

theorem State.cellEmergency_cell (s : State) (c : CellId) : ((s.cellEmergency c).cell c).Unhomed := by
  unfold State.cellEmergency
  split
  · rw [State.modCell_cell]
    obtain ⟨program, state, -⟩ := s.abandonProgram_cell c ‹_› .stopped none none .unhomed .emergencyStop
    exact ⟨state, rfl, rfl, program, rfl, rfl⟩
  · rw [State.cellTo_cell, State.modCell_cell]
    exact ⟨rfl, rfl, rfl, ‹_›, rfl, rfl⟩

theorem State.cellsEmergency_cell (s : State) (c : CellId) : (s.cellsEmergency.cell c).Unhomed :=
  State.bothCells State.cellEmergency_onlyCell State.cellEmergency_cell s c

/-! ## Moves (R3, R4) -/

theorem State.abandonProgram_moves (s : State) (c : CellId) (p : Program) (o : ProgramOutcome)
    (f : Option (FaultCode × Nat)) (z : Option Nat) (next : CellState) (cause : CellCause) :
    (s.abandonProgram c p o f z next cause).ltk.moves = s.ltk.moves := by
  have core := congrArg Ltk.moves (s.abandonProgram_core c p o f z next cause)
  exact core

theorem State.cellStop_moves (s : State) (c : CellId) : (s.cellStop c).ltk.moves = s.ltk.moves := by
  unfold State.cellStop
  split
  · exact s.abandonProgram_moves c _ _ _ _ _ _
  · split
    · rw [State.cellTo_ltk, (s.modCell_keeps c _).ltk rfl]
    all_goals rfl

theorem State.cellEmergency_moves (s : State) (c : CellId) : (s.cellEmergency c).ltk.moves = s.ltk.moves := by
  unfold State.cellEmergency
  split
  · rw [(State.modCell_keeps _ c _).ltk rfl]
    exact s.abandonProgram_moves c _ _ _ _ _ _
  · rw [State.cellTo_ltk, (s.modCell_keeps c _).ltk rfl]

theorem State.recheckFailed_moves (s : State) : s.recheckFailed.ltk.moves = s.ltk.moves := by
  unfold State.recheckFailed
  refine List.foldlRecOn (motive := fun t : State => t.ltk.moves = s.ltk.moves) _ _ rfl fun t ht i _ => ?_
  split
  · split
    · split <;> exact ht
    · exact ht
  · exact ht

/-- A halted or timed-out move driven again (R3, R4). -/
theorem State.redrive_eq (s : State) (v : Move) :
    s.redrive v =
      match v.drive with
      | .driven _ => v
      | .timedOut | .halted => { v with drive := .driven { since := s.now, ms := 20000 } } := by
  unfold State.redrive
  cases v.drive with
  | driven | timedOut | halted => rfl

/-- The moves in flight after a change of mode. -/
theorem State.trackerMode_moves (s : State) (m prev : LineMode) :
    (s.trackerMode m prev).ltk.moves =
      match m with
      | .stop => s.ltk.moves.map fun v => { v with drive := .halted }
      | .run => s.ltk.moves.map s.redrive
      | .pause => if prev = .stop then s.ltk.moves.map s.redrive else s.ltk.moves
      | .idle => s.ltk.moves := by
  cases m with
  | stop | idle => rfl
  | run =>
    have shown : s.trackerMode .run prev = s.redriveMoves.recheckFailed := rfl
    rw [shown, State.recheckFailed_moves]
    rfl
  | pause =>
    unfold State.trackerMode
    dsimp only
    split <;> rfl

/-- A mode entered from one other than STOP that is neither STOP nor RUN leaves the Line Tracker alone. -/
theorem State.trackerMode_still (s : State) {m prev : LineMode} (h : m = .idle ∨ (m = .pause ∧ prev ≠ .stop)) :
    s.trackerMode m prev = s := by
  rcases h with rfl | ⟨rfl, h⟩
  · rfl
  · exact if_neg h

/-! ## LINE_MODE (R163) -/

theorem State.putMode_reports {s : State} (room : s.liu.reports.length < 32) (m : LineMode) (cause : ModeCause) :
    (s.putMode m cause).liu.reports =
      s.liu.reports ++ [{ time := s.now, body := .lineMode m s.lmf.mode s.now cause }] :=
  congrArg (fun u : State => u.liu.reports) (if_pos room)

end Sys2Proof.Machine
end

section
/-! PROOF. A change of the line mode reaches every block, and so does the emergency stop (R3, R4, R63, R89, R90, R113, R118,
R163 to R166). -/

namespace Sys2Proof.Machine

/-- Settles O22, block by block. -/
theorem modeChangesReachTheBlocks : Obligations.ModeChangesReachTheBlocks := by
  intro s m cause changes u
  let put := s.putMode m cause
  let tracked := put.trackerMode m s.lmf.mode
  let headed := tracked.headsMode m
  let celled := headed.cellsMode m
  have shown : u = celled.tunnelMode := if_neg changes
  have putKept : Keeps { rep := true, mode := true } s put := s.putMode_keeps m cause
  have trackedKept : Keeps { ltk := true } put tracked := put.trackerMode_keeps m _
  have headedKept := tracked.headsMode_keeps m
  have celledKept := headed.cellsMode_keeps m
  have tunnelKept := celled.tunnelMode_keeps
  have blocksKept : Keeps { ltk := true, ine := true, scc := true, rep := true } put celled :=
    ((trackedKept.mono rfl).step headedKept rfl).step celledKept rfl
  have ctc : celled.ctc = s.ctc := (blocksKept.ctc rfl).trans (putKept.ctc rfl)
  have mode : celled.lmf.mode = m := (blocksKept.mode rfl).trans (s.putMode_mode m cause)
  have putMoves : put.ltk.moves = s.ltk.moves := congrArg Ltk.moves (putKept.ltk rfl)
  refine ⟨(s.setMode_keeps m cause).onlyIn, s.setMode_mode m cause, fun room => ?reports, ?shutter, fun l => ?lanes,
    fun l => ?belts, ?stop, ?redriven, ?still, fun hm => ⟨?heads, s.setMode_scc hm cause⟩⟩
  case reports =>
    obtain ⟨rest, grown⟩ := blocksKept.grows.trans tunnelKept.grows
    refine ⟨rest, ?_⟩
    rw [shown, ← grown, State.putMode_reports room]
    exact List.append_assoc ..
  case shutter => rw [shown, State.tunnelMode_shutter, ctc, mode]
  case lanes => rw [shown, State.tunnelMode_laneState, mode]
  case belts =>
    rw [shown, State.tunnelMode_lane]
    exact Lane.driven_beltByRule _
  case stop =>
    rintro rfl
    refine ⟨?_, fun h => ?_, fun c => ?_⟩
    · rw [shown, tunnelKept.ltk rfl]
      have cells : celled.ltk.moves = headed.ltk.moves :=
        (State.cellStop_moves _ .b).trans (State.cellStop_moves headed .a)
      rw [cells, headedKept.ltk rfl, ← putMoves]
      exact put.trackerMode_moves .stop _
    · rw [shown, State.head_of_ine ((tunnelKept.ine rfl).trans (celledKept.ine rfl))]
      exact tracked.headsMode_stop_walks h
    · rw [shown, State.cell_of_scc (tunnelKept.scc rfl)]
      exact headed.cellsMode_stop_cell c
  case redriven =>
    intro runs
    have cells : celled.ltk = tracked.ltk := by
      rcases runs with rfl | ⟨rfl, -⟩ <;> rfl
    have moves : tracked.ltk.moves = put.ltk.moves.map put.redrive := by
      refine (put.trackerMode_moves m _).trans ?_
      rcases runs with rfl | ⟨rfl, hs⟩
      · rfl
      · exact if_pos hs
    have now : put.now = s.now := putKept.clock rfl
    rw [shown, tunnelKept.ltk rfl, cells, moves, putMoves]
    refine List.map_congr_left fun v _ => ?_
    have again := put.redrive_eq v
    rw [now] at again
    exact again
  case still =>
    intro hm
    have cells : celled.ltk = tracked.ltk := by
      rcases hm with rfl | ⟨rfl, -⟩ <;> rfl
    have still : tracked = put := put.trackerMode_still hm
    rw [shown, tunnelKept.ltk rfl, cells, still, putKept.ltk rfl]
  case heads =>
    have heads : headed.ine = tracked.ine := by
      cases m with
      | stop => exact absurd rfl hm
      | idle | run | pause => rfl
    rw [shown, tunnelKept.ine rfl, celledKept.ine rfl, heads, trackedKept.ine rfl, putKept.ine rfl]

/-- Settles O11: the emergency stop of `State.emergency`, out of STOP and in it. -/
theorem emergencyStopStops : Obligations.EmergencyStopStops := by
  intro s started clear
  let t := s.setEstop true
  have taken : s.estopEvent = t.emergency := (if_neg (by simp [clear])).trans (if_neg (by simp [started]))
  have kept := t.emergency_keeps
  refine ⟨t.emergency, State.goesOn_congr taken, kept.estop rfl, t.emergency_mode, kept.clock rfl, kept.rsc rfl, kept.hmg rfl,
    fun c => ?cells, fun running => ?rest⟩
  case cells =>
    have unhomed : (t.emergency.cell c).Unhomed := by
      unfold State.emergency
      split
      · exact t.cellsEmergency_cell c
      · rw [State.cell_of_scc ((State.tunnelMode_keeps _).scc rfl)]
        exact State.cellsEmergency_cell _ c
    obtain ⟨state, gantry, valve, program, homeTimer, gantryTimer⟩ := unhomed
    exact ⟨state, gantry, valve, program, homeTimer, gantryTimer⟩
  case rest =>
    let put := t.putMode .stop .emergencyStop
    let headed := put.haltMoves.headsMode .stop
    let celled := headed.cellsEmergency
    have shown : t.emergency = celled.tunnelMode := if_neg running
    have putKept := t.putMode_keeps .stop .emergencyStop
    have headedKept := put.haltMoves.headsMode_keeps .stop
    have celledKept := headed.cellsEmergency_keeps
    have tunnelKept := celled.tunnelMode_keeps
    have ctc : celled.ctc = s.ctc := (celledKept.ctc rfl).trans ((headedKept.ctc rfl).trans (putKept.ctc rfl))
    have mode : celled.lmf.mode = .stop :=
      (celledKept.mode rfl).trans ((headedKept.mode rfl).trans (t.putMode_mode .stop .emergencyStop))
    refine ⟨fun h => ?_, ?_, fun l => ⟨?_, ?_⟩, ?_⟩
    · rw [shown, State.head_of_ine ((tunnelKept.ine rfl).trans (celledKept.ine rfl))]
      exact put.haltMoves.headsMode_stop_walks h
    · have cells : celled.ltk.moves = headed.ltk.moves :=
        (State.cellEmergency_moves _ .b).trans (State.cellEmergency_moves headed .a)
      have putMoves : put.ltk.moves = s.ltk.moves := congrArg Ltk.moves (putKept.ltk rfl)
      rw [shown, tunnelKept.ltk rfl, cells, headedKept.ltk rfl, ← putMoves]
      rfl
    · rw [shown, State.tunnelMode_laneState, mode]
      rfl
    · rw [shown, State.tunnelMode_order, State.lane_of_ctc ctc]
    · rw [shown, State.tunnelMode_shutter, mode]
      simp

end Sys2Proof.Machine
end

section
/-! PROOF. LINE_CLEAR empties the line in STOP (R8, R45, R46, R106, R113, R146, R147, R169). -/

namespace Sys2Proof.Machine

/-! ## The tunnel (R106, R113) -/

theorem State.clearLane_ctc (s : State) (l : LaneId) : (s.clearLane l).ctc = (s.setLane l Lane.reset).ctc := by
  unfold State.clearLane
  dsimp only
  split
  · rw [State.laneReport_ctc]
  · rfl

theorem State.clearLane_tells (s : State) (l : LaneId) : Tells 1 s (s.clearLane l) := by
  unfold State.clearLane
  dsimp only
  split
  · exact (s.setLane_tells l _).trans (State.queueReport_tells _ _)
  · exact (s.setLane_tells l _).mono (by omega)

theorem State.clearTunnel_ctc (s : State) : s.clearTunnel.ctc =
    { s.ctc with
      lane1 := Lane.reset, lane2 := Lane.reset, waiting := none, wetQueue := [], exitHolder := none } := by
  unfold State.clearTunnel
  dsimp only
  rw [State.clearLane_ctc]
  unfold State.setLane
  dsimp only
  rw [State.clearLane_ctc]
  rfl

theorem State.clearTunnel_tells (s : State) : Tells 2 s s.clearTunnel := by
  let emptied : State := { s with ctc := { s.ctc with waiting := none, wetQueue := [], exitHolder := none } }
  have empties : Tells 0 s emptied := Tells.of_eq rfl rfl
  exact (empties.trans (emptied.clearLane_tells .lane1)).trans (State.clearLane_tells _ .lane2)

/-! ## Every block (R169) -/

/-- The blocks before the tunnel is cleared. -/
def State.clearStations (s : State) : State :=
  { s with
    ltk := s.ltk.lineClear, rsc := s.rsc.lineClear
    ine := { mask := s.ine.mask.lineClear, inspect := s.ine.inspect.lineClear }
    scc := { a := s.scc.a.lineClear, b := s.scc.b.lineClear } }

section
variable (s : State)

theorem State.clearBlocks_ltk : s.clearBlocks.ltk = s.ltk.lineClear := s.clearStations.clearTunnel_keeps.ltk rfl

theorem State.clearBlocks_rsc : s.clearBlocks.rsc = s.rsc.lineClear := s.clearStations.clearTunnel_keeps.rsc rfl

theorem State.clearBlocks_head (h : HeadId) : s.clearBlocks.head h = (s.head h).lineClear := by
  have ine : s.clearBlocks.ine = s.clearStations.ine := s.clearStations.clearTunnel_keeps.ine rfl
  rw [State.head_of_ine ine]
  cases h with
  | mask | inspect => rfl

theorem State.clearBlocks_cell (c : CellId) : s.clearBlocks.cell c = { s.cell c with runMark := none } := by
  have scc : s.clearBlocks.scc = s.clearStations.scc := s.clearStations.clearTunnel_keeps.scc rfl
  rw [State.cell_of_scc scc]
  cases c with
  | a | b => rfl

theorem State.clearBlocks_ctc : s.clearBlocks.ctc =
    { s.ctc with
      lane1 := Lane.reset, lane2 := Lane.reset, waiting := none, wetQueue := [], exitHolder := none } :=
  s.clearStations.clearTunnel_ctc

theorem State.clearBlocks_lane (l : LaneId) : s.clearBlocks.lane l = Lane.reset := by
  unfold State.lane
  rw [s.clearBlocks_ctc]
  cases l with
  | lane1 | lane2 => rfl

/-- While the Report Queue has room for both LANE_STATE reports the fault record stays. -/
theorem State.clearBlocks_record (room : s.liu.reports.length < 31) : s.clearBlocks.lmf.record = s.lmf.record :=
  s.clearStations.clearTunnel_tells.record (Nat.succ_le_of_lt (Nat.succ_lt_succ room))

end

/-- The use counts are 0 and the waiting loads' slots EMPTY (R45, log 31). -/
theorem Rsc.lineClear_slots (v : Rsc) (k : SlotIx) :
    v.lineClear.slots[k] =
      match v.slots[k] with
      | .empty => .empty
      | .loading h =>
        if k ∈ (if v.walk.isSome then v.loadList.tail else v.loadList) then .empty else .loading { h with use := 0 }
      | .valid h q p => .valid { h with use := 0 } q p := by
  have slot : v.lineClear.slots[k] =
      if (if v.walk.isSome then v.loadList.tail else v.loadList).contains k then v.slots[k].dropLoad
      else v.slots[k].clearUse := Vector.getElem_ofFn ..
  rw [slot]
  simp only [List.contains_iff_mem]
  cases v.slots[k] with
  | loading h => rfl
  | empty | valid h q p => exact ite_self _

/-- No write in progress has a result left to take (R169). -/
theorem WriteFor.dropped_ne (w : WriteFor) (i : RecIx) :
    w.dropped ≠ .holdMark i true ∧ ∀ d, w.dropped ≠ .reentry i (some d) := by
  cases w with
  | reentry | markClear | holdMark | closing => exact ⟨nofun, nofun⟩

/-! ## The carrier at LOAD (R8) -/

/-- An arrival where no read is in progress. -/
theorem State.beginArrival_unread {s : State} (h : s.readAt .load = none) :
    s.beginArrival = { s with ltk := { s.ltk with
      loadEntry := none
      reads := s.ltk.reads.filter (fun j => decide (j.place ≠ .load))
        ++ [{ place := .load, why := .arrival, attempt := 1 }] } } := by
  have begun := s.beginArrival_eq s.ltk rfl
  rw [h] at begun
  exact begun

/-- The reads that LINE_CLEAR leaves: a carrier at LOAD is read afresh, otherwise the read of an arrival goes on. -/
def State.readsLeft (s : State) : List TagReadJob :=
  if s.present .load then [{ place := .load, why := .arrival, attempt := 1 }]
  else s.ltk.reads.filter fun j => decide (j.place = .load ∧ j.why = .arrival)

/-- The line after LINE_CLEAR. -/
def State.lineCleared (s : State) : State :=
  { s.clearBlocks with ltk := { s.ltk.lineClear with reads := s.readsLeft } }

/-- The arrival taken at LOAD in an emptied line (R169). -/
theorem State.beginArrival_cleared {s : State} {v : Ltk} (hs : s.ltk = v.lineClear) :
    (s.dropRead .load).beginArrival =
      { s with ltk := { v.lineClear with reads := [{ place := .load, why := .arrival, attempt := 1 }] } } := by
  have unread : (v.lineClear.reads.filter fun j => decide (j.place ≠ .load)) = [] := by
    simp +contextual [Ltk.lineClear]
  have dropped : s.dropRead .load = { s with ltk := { v.lineClear with reads := [] } } := by
    unfold State.dropRead State.setReads
    rw [hs, unread]
  rw [dropped, State.beginArrival_unread rfl]
  rfl

theorem State.doLineClear_stop {s : State} (hm : s.lmf.mode = .stop) : s.doLineClear = s.lineCleared.ok [] := by
  have acts : s.doLineClear = (if s.clearBlocks.present .load then (s.clearBlocks.dropRead .load).beginArrival
      else s.clearBlocks).ok [] := if_neg (not_not.2 hm)
  have present : s.clearBlocks.present .load = s.present .load := by
    unfold State.present
    rw [s.clearBlocks_ltk]
    rfl
  rw [acts, present, State.lineCleared, State.readsLeft]
  by_cases there : s.present .load = true
  · rw [if_pos there, if_pos there, State.beginArrival_cleared s.clearBlocks_ltk]
  · rw [if_neg there, if_neg there]
    have same : { s.clearBlocks with ltk := s.ltk.lineClear } = s.clearBlocks := by rw [← s.clearBlocks_ltk]
    exact congrArg (State.ok · []) same.symm

/-- Settles O26: refused outside STOP, and in STOP block by block. -/
theorem lineClearEmptiesTheLine : Obligations.LineClearEmptiesTheLine := by
  intro s tag taken
  have answered {u : State} {st : ReplyStatus} (acts : s.doLineClear = (u, some (st, []))) :
      exec (.lineClear .host tag) s = .next (u.answers .host tag .lineClear st []).settle :=
    State.takeRequest_answered taken rfl tag acts
  refine ⟨fun hm => answered (if_pos hm), fun hm => ⟨s.lineCleared, answered (State.doLineClear_stop hm), ?_⟩⟩
  have only := s.clearBlocks_onlyIn
  have rsc : s.lineCleared.rsc = s.rsc.lineClear := s.clearBlocks_rsc
  have ctc : s.lineCleared.ctc = _ := s.clearBlocks_ctc
  refine ⟨only.mode rfl, only.clock rfl, only.estop rfl, only.link rfl, s.clearBlocks_record, fun i => ?records, rfl, rfl, rfl,
    rfl, fun w hw i => ?writes, ⟨by rw [rsc]; rfl, by rw [rsc]; rfl, fun k => ?slots⟩, by rw [rsc]; rfl, by rw [rsc]; rfl,
    by rw [rsc]; rfl, by rw [rsc]; rfl, fun h => ?heads, s.clearBlocks_cell, fun l => ?lanes, by rw [ctc], by rw [ctc],
    by rw [ctc], by rw [ctc], by rw [ctc], by rw [ctc], fun n => ?bench, rfl⟩
  case records => exact Vector.getElem_replicate ..
  case writes =>
    obtain ⟨j, -, rfl⟩ := List.mem_map.1 hw
    exact j.why.dropped_ne i
  case slots =>
    rw [rsc]
    exact s.rsc.lineClear_slots k
  case heads =>
    have head : s.lineCleared.head h = (s.head h).lineClear := s.clearBlocks_head h
    rw [head]
    exact ⟨rfl, rfl, rfl⟩
  case lanes =>
    have lane : s.lineCleared.lane l = Lane.reset := s.clearBlocks_lane l
    rw [lane]
    exact ⟨rfl, rfl, rfl, rfl, rfl, rfl, rfl⟩
  case bench => exact Vector.getElem_replicate ..

end Sys2Proof.Machine
end

section
/-! SUPPORT. A law that every shared operation keeps lasts through every request and every command: the requests and the
commands are taken apart once, for any such law (R172, R179). -/

namespace Sys2Proof.Machine

/-! ## Updates of the links, and the claims that silence drops -/

theorem Keeps.liuSet (s : State) (v : Liu) (reports : v.reports = s.liu.reports) (lost : v.lost = s.liu.lost)
    (full : v.full = s.liu.full) : Keeps { link := true } s { s with liu := v } :=
  { Keeps.refl { link := true } s with
    link := nofun
    queue := fun _ => ⟨reports, lost, full⟩
    grows := reports ▸ List.prefix_refl _
    reports := fun h => reports ▸ h
    lost := fun h => lost ▸ h }

theorem State.sendReply_keeps (s : State) (l : Link) (r : Reply) : Keeps { link := true } s (s.sendReply l r) := by
  cases l <;> exact Keeps.liuSet s _ rfl rfl rfl

theorem State.setHeld_keeps (s : State) (f : Option Frame) : Keeps { link := true } s (s.setHeld f) :=
  Keeps.liuSet s _ rfl rfl rfl

theorem State.benchHeard_keeps (s : State) : Keeps { link := true } s s.benchHeard := Keeps.liuSet s _ rfl rfl rfl

theorem State.setRx_keeps (s : State) (l : Link) (v : Rx) : Keeps { link := true } s (s.setRx l v) := by
  cases l <;> exact Keeps.liuSet s _ rfl rfl rfl

theorem State.dropClaim_keeps (s : State) (i : RecIx) : Keeps { ltk := true, rep := true } s (s.dropClaim i) := by
  unfold State.dropClaim
  split
  · split
    · split
      · exact s.setClaim_keeps i none
      · exact Keeps.refl _ s
    · exact Keeps.refl _ s
  · exact Keeps.refl _ s

theorem State.benchSilence_keeps (s : State) :
    Keeps { ltk := true, rep := true, link := true, clock := true } s s.benchSilence := by
  unfold State.benchSilence
  split
  · rename_i t _
    have silent := ((s.expire_keeps t).mono rfl).step
      (Keeps.liuSet (s.expire t) { (s.expire t).liu with online := false, silence := none } rfl rfl rfl)
      (b := { ltk := true, rep := true, link := true, clock := true }) rfl
    exact Keeps.foldl _ (fun u i => (u.dropClaim_keeps i).mono rfl) recIxs silent
  · exact Keeps.refl _ s

theorem State.discard_keeps (s : State) (l : Link) (bytes : List Byte) (framing : Bool) :
    Keeps { link := true } s (s.discard l bytes framing) := by
  unfold State.discard
  split
  · exact Keeps.refl _ s
  · dsimp only
    split
    · exact s.setRx_keeps l _
    · exact Keeps.refl _ s

theorem State.rxGap_keeps (s : State) (l : Link) : Keeps { link := true, clock := true } s (s.rxGap l) := by
  unfold State.rxGap
  split
  · exact ((s.reach_keeps _ _).mono rfl).step (State.setRx_keeps _ l _) rfl
  · exact Keeps.refl _ s

theorem State.estopEvent_keeps (s : State) :
    Keeps { ltk := true, ine := true, scc := true, ctc := true, rep := true, mode := true, estop := true } s
      s.estopEvent := by
  unfold State.estopEvent
  split
  · exact Keeps.refl _ s
  · split
    · exact (s.setEstop_keeps true).mono rfl
    · exact s.estopActive_keeps

theorem State.ballastEvent_keeps (s : State) : Keeps { ctc := true, rep := true } s s.ballastEvent := by
  unfold State.ballastEvent
  split
  · exact Keeps.refl _ s
  · exact s.ballastActive_keeps

/-! ## Laws that last -/

/-- ADMIT fills a record within its limits (R6). -/
theorem newRecord_ok (id : TagId) (serial : List Byte) (n : Nat) : RecordOk (newRecord id serial n) := by
  constructor <;> simp [newRecord]

/-- STRIP clears the doses and keeps the other limits (R159). -/
theorem RecordOk.strip {r : CarrierRecord} (ok : RecordOk r) : RecordOk (stripRecord r) :=
  { ok with
    disposed := fun _ e disposed => by
      obtain ⟨v, hv, rfl⟩ := Option.map_eq_some_iff.1 e
      exact ok.disposed v hv disposed
    reasons := fun _ e => by
      obtain ⟨v, hv, rfl⟩ := Option.map_eq_some_iff.1 e
      exact ok.reasons v hv
    thermal := Nat.zero_le _
    uv := Nat.zero_le _ }

/-- A record whose hold a closing disposition has moved to the history (R160, R161). -/
def CarrierRecord.closing (r : CarrierRecord) (e : HistoryEntry) : CarrierRecord :=
  { r with hold := none, history := r.history ++ [e] }

/-- A law that the operations keep: the shared ones, and what some requests, POR, the ends of accesses and the Host
transmitter do beside them. -/
structure Lasting (P : State → Prop) : Prop where
  keeps : ∀ {b : Blocks} {s t : State}, Keeps b s t → P s → P t
  put : ∀ {s : State} (i : RecIx) {r : CarrierRecord}, (RecordLaw s → RecordOk r) → P s → P (s.setRec i (some r))
  closes : ∀ {s : State} {i : RecIx} {r : CarrierRecord}, s.rec? i = some r → r.status = .active →
    ∀ (e : HistoryEntry) (b : ReportBody) (o : DoneOutcome), P s →
      P (((s.setRec i (some (r.closing e))).queueReport b).retire i o)
  clears : ∀ {s : State}, P s → P s.clearBlocks
  resets : ∀ {s : State} (fast : Bool), P s → P (s.powerOn fast)
  sends : ∀ {s : State}, P s → P s.startTx
  stores : ∀ {s : State} (m : List Host.Cell) (n : Nat), P s → P { s with store := m, freeCount := n }

namespace Lasting
variable {P : State → Prop} (law : Lasting P) {s : State} (h : P s)
include law h

/-! ## The requests (R179) -/

theorem doModeSet (m : LineMode) : P (s.doModeSet m).1 := by
  rcases s.doModeSet_state m with e | ⟨x, e⟩
  · rwa [e]
  · rw [e]
    exact law.keeps (s.setMode_keeps x _) h

theorem doResume : P s.doResume.1 := by
  unfold State.doResume
  split
  · exact h
  · split
    · exact h
    · exact law.keeps (s.setMode_keeps .pause .resume) h

theorem doLineClear : P s.doLineClear.1 := by
  unfold State.doLineClear
  split
  · exact h
  · dsimp only [State.ok]
    split
    · exact law.keeps (State.beginArrival_keeps _) (law.keeps (State.dropRead_keeps _ .load) (law.clears h))
    · exact law.clears h

theorem doAdmit (id : TagId) (n : Nat) (serial : List Byte) : P (s.doAdmit id n serial).1 := by
  unfold State.doAdmit
  split
  · exact h
  · split
    · exact h
    · split
      · exact h
      · split
        · exact h
        · rename_i i _
          split
          · exact h
          · split
            · exact h
            · exact law.keeps (State.requestLoad_keeps _ i _)
                (law.keeps (State.setEntry_keeps _ _) (law.put i (fun _ => newRecord_ok id serial n) h))

theorem doRemove (i : RecIx) : P (s.doRemove i).1 := by
  unfold State.doRemove
  split
  · exact h
  · split
    · exact law.keeps (s.modRec_keeps i (fun r => { r with removalPending := true })
        (fun _ ok => ⟨{ ok with }, le_refl _, le_refl _⟩) fun _ h => h) h
    all_goals exact law.keeps (s.retire_keeps i .removed) h

theorem doMarkClear (id : TagId) : P (s.doMarkClear id).1 := by
  unfold State.doMarkClear
  split
  · exact h
  · exact State.unless_state h _ _ (law.keeps (s.askWrite_keeps .load 0 (.markClear id)) h)

theorem doTraceTake (i : RecIx) : P (s.doTraceTake i).1 := by
  unfold State.doTraceTake
  split
  · exact State.unless_state h _ _
      (law.keeps (State.rematch_keeps _ _ _) (law.keeps (s.setRec_keeps i none fun _ e => nomatch e) h))
  · exact h

theorem doHoldPlace (i : RecIx) (v : Severity) : P (s.doHoldPlace i v).1 := by
  unfold State.doHoldPlace
  split
  · split
    case h_1 | h_2 => exact law.keeps (s.raiseReason_keeps i .ordered v) h
    all_goals exact h
  · exact h

theorem doHoldRead (l : Link) (i : RecIx) : P (s.doHoldRead l i).1 := by
  unfold State.doHoldRead
  split
  · exact h
  · cases l with
    | host => exact h
    | bench => exact law.keeps (s.instructionRead_keeps i _) h

theorem doHoldClaim (l : Link) (i : RecIx) : P (s.doHoldClaim l i).1 := by
  unfold State.doHoldClaim
  split
  · exact h
  · split
    · exact law.keeps (s.setClaim_keeps i _) h
    · exact State.unless_state h _ _ h

theorem doHoldUnclaim (l : Link) (i : RecIx) : P (s.doHoldUnclaim l i).1 := by
  unfold State.doHoldUnclaim
  split
  · exact h
  · exact State.unless_state h _ _ (law.keeps (s.setClaim_keeps i none) h)

/-- A text of a hold part posted or read. -/
theorem modHold (i : RecIx) (f : Hold → Hold) (hf : ∀ x, (f x).state = x.state ∧ (f x).reasons = x.reasons) :
    P (s.modHold i f) :=
  law.keeps (s.modHold_keeps i f fun x => HoldStep.of_eq (hf x).1 (hf x).2) h

theorem doInstructionPost (i : RecIx) (text : List Byte) : P (s.doInstructionPost i text).1 := by
  unfold State.doInstructionPost
  split
  · exact h
  · exact State.unless_state h _ _ (law.modHold h i _ fun _ => ⟨rfl, rfl⟩)

theorem doFindingPost (i : RecIx) (text : List Byte) : P (s.doFindingPost i text).1 := by
  unfold State.doFindingPost
  split
  · exact h
  · split
    case h_3 =>
      exact State.unless_state h _ _
        (law.keeps (State.holdChanged_keeps _ i .finding) (law.modHold h i _ fun _ => ⟨rfl, rfl⟩))
    all_goals exact h

theorem doFindingRead (i : RecIx) : P (s.doFindingRead i).1 := by
  unfold State.doFindingRead
  split
  · exact h
  · split
    · exact h
    · exact law.modHold h i _ fun _ => ⟨rfl, rfl⟩

/-- A rework disposition, made before pass 3 (R156, R158). -/
theorem rework {i : RecIx} {r : CarrierRecord} {v : Hold} (hr : s.rec? i = some r) (hv : r.hold = some v) (hp : r.pass ≠ 3)
    (d : Disposition) (l : Link) : P (s.rework i r v d l) := by
  refine law.keeps (State.rematch_keeps _ _ _) (law.keeps (State.holdChanged_keeps _ i _) (law.put i (fun all => ?_) h))
  have disposed : RecordOk { r with hold := some (v.disposed d l s.now) } :=
    (RecStep.disposed hv hp d l s.now (all i r hr)).1
  split
  · exact disposed.strip
  · exact disposed

theorem closeOut {i : RecIx} {r : CarrierRecord} (hr : s.rec? i = some r) (active : r.status = .active) (v : Hold)
    (d : Disposition) (l : Link) (o : DoneOutcome) : P (s.closeOut i r v d l o) := by
  unfold State.closeOut
  dsimp only
  split
  · exact law.keeps (State.askWrite_keeps _ _ _ _) (law.closes hr active _ _ o h)
  · exact law.closes hr active _ _ o h

theorem doHoldDispose (l : Link) (i : RecIx) (d : Disposition) : P (s.doHoldDispose l i d).1 := by
  unfold State.doHoldDispose
  split
  · exact h
  · rename_i e
    obtain ⟨hr, hv⟩ := State.holdOpenTo_some e
    split
    · exact h
    · rename_i active
      split
      · exact h
      · exact law.closeOut h hr (not_not.1 active) _ d l _
      · rename_i permitted rework
        exact law.rework h hr hv (passAllows_rework rework (disposeRefusal_none_passAllows permitted)) d l

theorem doCellHome (c : CellId) : P (s.doCellHome c).1 := by
  unfold State.doCellHome
  split
  · exact h
  · split
    case h_1 => exact law.keeps (s.startHoming_keeps c) h
    all_goals exact h

theorem doCellAbort (c : CellId) : P (s.doCellAbort c).1 := by
  unfold State.doCellAbort
  split
  · exact law.keeps (s.abandonProgram_keeps c _ _ _ _ _ _) h
  · exact h

theorem doCellClear (c : CellId) : P (s.doCellClear c).1 := by
  unfold State.doCellClear
  split
  · exact h
  · exact law.keeps (State.cellTo_keeps _ c _ _ _) (law.keeps (s.modCell_keeps c _) h)

theorem doStoreWrite (tag : Byte) (o : Nat) (data : List Byte) : P (s.doStoreWrite tag o data).1 := by
  unfold State.doStoreWrite
  split
  · exact h
  · exact law.keeps (s.setHostReq_keeps _) h

theorem doRecipeCheck (tag : Byte) (n : Nat) : P (s.doRecipeCheck tag n).1 := by
  unfold State.doRecipeCheck
  dsimp only
  split
  · exact h
  · split
    · exact h
    · split
      · exact h
      · exact law.keeps (s.setHostReq_keeps _) h

theorem dispatch (l : Link) (tag : Byte) (r : Request) : P (s.dispatch l tag r).1 := by
  cases r with
  | identify | lineStatus | faultRead | benchList | slotList => exact h
  | carrierRead i => exact State.withRec_state h i fun _ => h
  | lineModeSet m => exact State.withCode_state h _ fun m _ => law.doModeSet h m
  | resume => exact law.doResume h
  | lineConfig x m => exact State.unless_state h _ _ (law.keeps (s.setLine_keeps _ _) h)
  | lineClear => exact law.doLineClear h
  | faultAck c => exact law.keeps (s.setRecord_keeps _) h
  | admitCarrier id n serial => exact law.doAdmit h id _ serial
  | remove i => exact State.withRec_state h i (law.doRemove h)
  | markClear id => exact law.doMarkClear h id
  | traceTake i => exact State.withRec_state h i (law.doTraceTake h)
  | holdPlace i v => exact State.withRec_state h i fun i => State.withCode_state h _ fun v _ => law.doHoldPlace h i v
  | holdRead i => exact State.withRec_state h i (law.doHoldRead h l)
  | holdClaim i => exact State.withRec_state h i (law.doHoldClaim h l)
  | holdUnclaim i => exact State.withRec_state h i (law.doHoldUnclaim h l)
  | instructionPost i text => exact State.withRec_state h i fun i => law.doInstructionPost h i text
  | findingPost i text => exact State.withRec_state h i fun i => law.doFindingPost h i text
  | findingRead i => exact State.withRec_state h i (law.doFindingRead h)
  | holdDispose i d => exact State.withRec_state h i fun i => State.withCode_state h _ fun d _ => law.doHoldDispose h l i d
  | cellHome c => exact State.withCode_state h _ fun c _ => law.doCellHome h c
  | cellAbort c => exact State.withCode_state h _ fun c _ => law.doCellAbort h c
  | cellClear c => exact State.withCode_state h _ fun c _ => law.doCellClear h c
  | headClear x => exact State.withCode_state h _ fun x _ => law.keeps (s.clearHead_keeps x) h
  | lampSet v => exact State.withCode_state h _ fun on _ => law.keeps (s.lampSet_keeps on) h
  | storeRead o n => exact law.keeps (s.setHostReq_keeps _) h
  | storeWrite o data => exact law.doStoreWrite h tag _ data
  | recipeCheck n => exact law.doRecipeCheck h tag _

/-! ## Frames (R177 to R182) -/

theorem screen (l : Link) (kind tag : Byte) (r : Option Request) : P (s.screen l kind tag r) := by
  have answered : P (s.screenRequest l kind tag r).1 := by
    unfold State.screenRequest
    split
    · exact h
    · split
      · exact h
      · split
        · exact h
        · rename_i q
          split
          · exact h
          · split
            · exact h
            · exact law.dispatch h l tag q
  unfold State.screen
  split
  · exact h
  · unfold Answer.deliver
    split
    · exact law.keeps (State.sendReply_keeps _ l _) answered
    · exact answered

theorem take (l : Link) (f : Frame) (r : Option Request) : P (s.take l f r) := by
  unfold State.take
  split
  · exact h
  · cases l with
    | bench =>
      dsimp only
      split
      · exact h
      · exact law.screen (law.keeps s.benchHeard_keeps h) _ _ _ _
    | host =>
      dsimp only
      split
      · exact h
      · split
        · exact law.keeps (s.setHeld_keeps _) h
        · exact law.screen h _ _ _ _

theorem screenHeld : P s.screenHeld := by
  unfold State.screenHeld
  split
  · split
    · exact h
    · exact law.screen (law.keeps (s.setHeld_keeps none) h) _ _ _ _
  · exact h

theorem receive (l : Link) (bytes : List Byte) : P (s.receive l bytes) := by
  refine List.foldlRecOn bytes _ h fun t ht x _ => ?_
  unfold State.receiveByte
  split
  · exact ht
  · have taken := law.keeps (t.setRx_keeps l (rxByte t.starting t.now (t.freshRx l) x).1) ht
    dsimp only
    split
    · exact law.take taken _ _ _
    · exact taken

/-! ## The ends of accesses (R26) -/

theorem putStore (o : Nat) (data : List Byte) : P (s.putStore o data) := law.stores (storeWrite s.store o data) s.freeCount h

theorem spoil (op : AccessOp) : P (s.spoil op) := by
  cases op with
  | read o n => exact h
  | write o data => exact law.stores (s := s) (storeWrite s.store o _) _ h

theorem accessEnd (a : Access) : P (s.accessEnd a) := by
  have closed := law.keeps s.closePort_keeps h
  unfold State.accessEnd
  split
  · exact law.keeps (State.handRead_keeps _ _ _) closed
  · exact law.keeps (State.handWrite_keeps _) (law.putStore closed _ _)

theorem accessError (a : Access) : P (s.accessError a) := by
  have closed := law.keeps (State.closePort_keeps _) (law.keeps (s.reach_keeps a.since Config.accessMs) h)
  exact law.keeps (State.handError_keeps _ _) (law.keeps (State.noteFault_keeps _ _ _ _) (law.spoil closed a.op))

end Lasting

/-! ## The commands -/

/-- What a command goes on to keeps a law. -/
def LeadsTo (P : State → Prop) (o : Host.Outcome State Fault Refusal) : Prop := ∀ t, o = .next t → P t

/-- The end of an access stops, or goes on from what it does or from the state as it is (log 2, log 30). -/
theorem LeadsTo.endAccess {P : State → Prop} (goesOn : ∀ {u : State}, P u → LeadsTo P u.goesOn) {s : State} (h : P s)
    {f : State → Access → State} (hf : ∀ a, P (f s a)) : LeadsTo P (s.endAccess f) := by
  unfold State.endAccess
  split
  · split
    · exact goesOn (hf _)
    · exact fun _ e => nomatch e
  · exact goesOn h

namespace Lasting
variable {P : State → Prop} (law : Lasting P) {s : State}
include law

theorem goesOn (h : P s) : LeadsTo P s.goesOn := fun t e => by
  cases e
  exact law.sends (law.keeps (State.askFetch_keeps _ .b) (law.keeps (s.askFetch_keeps .a) h))

variable (h : P s)
include h

theorem event {b : Blocks} {u : State} (k : Keeps b s u) : LeadsTo P u.goesOn := law.goesOn (law.keeps k h)

theorem request {c : Instr} {l : Link} {tag : Byte} {r : Request} (hc : c.request? = some (l, tag, r)) :
    LeadsTo P (exec c s) := by
  rw [exec_request hc]
  exact law.goesOn (law.take h _ _ _)

/-- A law that lasts holds after every command. -/
theorem exec (c : Instr) : LeadsTo P (Machine.exec c s) := by
  cases c with
  | por fast => exact law.goesOn (law.resets fast h)
  | storeAccessEnd => exact LeadsTo.endAccess law.goesOn h (law.accessEnd h)
  | storeAccessTimeout => exact LeadsTo.endAccess law.goesOn h (law.accessError h)
  | frameValid l bytes => exact law.goesOn (law.receive h l bytes)
  | heldFrameScreen => exact law.goesOn (law.screenHeld h)
  | emergencyStop => exact law.event h s.estopEvent_keeps
  | emergencyStopRelease => exact law.event h (s.setEstop_keeps false)
  | frameDiscard l bytes framing => exact law.event h (s.discard_keeps l bytes framing)
  | rxGapTimeout l => exact law.event h (s.rxGap_keeps l)
  | hostTxDone | benchTxDone => exact law.event h (Keeps.liuSet s _ rfl rfl rfl)
  | benchSilenceExpiry => exact law.event h s.benchSilence_keeps
  | storeGrant => exact law.event h s.grant_keeps
  | loadArrival => exact law.event h s.loadPresent_keeps
  | tagReadAttemptEnd p x => exact law.event h (s.readEnd_keeps p x)
  | tagWriteAttemptEnd p b => exact law.event h (s.writeEnd_keeps p b)
  | loadEntryClear => exact law.event h s.loadClear_keeps
  | moveBegin i => exact law.event h (s.moveBegin_keeps i)
  | moveEnd i => exact law.event h (s.moveEnd_keeps i)
  | transportTimeout i => exact law.event h (s.moveTimeout_keeps i)
  | sourceCleared p => exact law.event h (s.sourceClear_keeps p)
  | carrierMissing p => exact law.event h (s.carrierMissing_keeps p)
  | carrierLifted p => exact law.event h (s.carrierLifted_keeps p)
  | carrierSetBack p => exact law.event h (s.setBack_keeps p)
  | doneCarrierLifted p => exact law.event h (s.doneLifted_keeps p)
  | benchMoveStart => exact law.event h s.benchMoveStart_keeps
  | walkStart x => exact law.event h (s.startWalk_keeps x)
  | positionerArrival x answers => exact law.event h (s.positionerArrival_keeps x answers)
  | inspectPositionTimeout x => exact law.event h (s.positionTimeout_keeps x)
  | channelResult x k reading => exact law.event h (s.channelResult_keeps x k reading)
  | groupWaitExpiry x => exact law.event h (s.groupWaitExpiry_keeps x)
  | resultTimerExpiry x k => exact law.event h (s.resultTimerExpiry_keeps x k)
  | homeReached x => exact law.event h (s.homeReached_keeps x)
  | homeTimeout x => exact law.event h (s.homeTimeout_keeps x)
  | programStart x => exact law.event h (s.startProgram_keeps x)
  | seekEnd x => exact law.event h (s.seekEnd_keeps x)
  | leadTimerExpiry x => exact law.event h (s.leadExpiry_keeps x)
  | valveCloseTimer x => exact law.event h (s.valveClose_keeps x)
  | motionEnd x => exact law.event h (s.motionEnd_keeps x)
  | gantryTimeout x => exact law.event h (s.gantryTimeout_keeps x)
  | gantryHaltReport x p q r => exact law.event h (s.haltReport_keeps x p q r)
  | starveLimit x => exact law.event h (s.starveLimit_keeps x)
  | valveFault x => exact law.event h (s.valveFault_keeps x)
  | entryTransferStart => exact law.event h s.entryStart_keeps
  | laneEntryEnd l => exact law.event h (s.laneEntryEnd_keeps l)
  | encoderPulse l => exact law.event h (s.encoderPulse_keeps l)
  | exitTransferStart => exact law.event h s.exitGrant_keeps
  | exitTransferEnd => exact law.event h s.exitEnd_keeps
  | uvSample raw => exact law.event h (s.uvSample_keeps raw)
  | thermalSample adc => exact law.event h (s.thermalSample_keeps adc)
  | warmUpEnd => exact law.event h s.warmUpEnd_keeps
  | ballastFault => exact law.event h s.ballastEvent_keeps
  | ballastFaultInactive => exact law.event h (s.setBallast_keeps false)
  | identify | lineStatus | lineModeSet | resume | lineConfig | lineClear | faultRead | faultAck | admitCarrier | remove
  | markClear | carrierRead | traceTake | holdPlace | holdRead | holdClaim | holdUnclaim | instructionPost | findingPost
  | findingRead | benchList | holdDispose | cellHome | cellAbort | cellClear | headClear | lampSet | storeRead | storeWrite
  | recipeCheck | slotList => exact law.request h rfl

end Lasting

end Sys2Proof.Machine
end

section
/-! SUPPORT. The limits of the records, and those of the Report Queue, the lost count and the lanes, as laws that last (R10,
R106, R133, R141, R156, R161, R183). -/

namespace Sys2Proof.Machine

/-! ## Records -/

/-- A record closed by a disposition: its pass has ended, and the history holds one entry more (R160, R161). -/
theorem RecordOk.closed {r : CarrierRecord} (ok : RecordOk r) (active : r.status = .active) (e : HistoryEntry)
    (o : DoneOutcome) : RecordOk ((r.closing e).done o).offLane := by
  have grown : r.history.length + 1 ≤ 3 := (ok.historyLive (by rw [active]; rfl)).trans ok.passHigh
  have done : RecordOk ((r.closing e).done o) :=
    { ok with
      disposed := fun _ h => nomatch h
      history := by simpa [CarrierRecord.done, CarrierRecord.closing] using grown
      historyLive := fun h => nomatch h
      reasons := fun _ h => nomatch h }
  unfold CarrierRecord.offLane
  split
  · exact { done with }
  · exact done

theorem RecordLaw.closes {s : State} {i : RecIx} {r : CarrierRecord} (law : RecordLaw s) (hr : s.rec? i = some r)
    (active : r.status = .active) (e : HistoryEntry) (b : ReportBody) (o : DoneOutcome) :
    RecordLaw (((s.setRec i (some (r.closing e))).queueReport b).retire i o) := by
  intro j q hq
  by_cases hj : j = i
  · subst hj
    have told : ((s.setRec j (some (r.closing e))).queueReport b).rec? j = some (r.closing e) := by simp
    cases (State.retire_rec told o).symm.trans hq
    exact (law j r hr).closed active e o
  · obtain ⟨x, hx, step⟩ := (State.queueReport_keeps _ b).recs.step (State.retire_keeps _ i o) j q hq
    rw [State.setRec_rec?_of_ne s hj] at hx
    exact (step (law j x hx)).1

theorem RecordLaw.of_ltk {s t : State} (law : RecordLaw s) (h : t.ltk = s.ltk) : RecordLaw t := (NoNew.of_ltk h).law law

theorem RecordLaw.of_free {s : State} (h : ∀ i, s.rec? i = none) : RecordLaw s := fun i r hr => by
  rw [h i] at hr
  cases hr

theorem State.startTx_ltk (s : State) : s.startTx.ltk = s.ltk := s.startTx_onlyIn.ltk rfl

theorem recordLaw_lasting : Lasting RecordLaw where
  keeps k law := k.recs.law law
  put {s} i r ok law := fun j q hq => by
    rw [State.setRec_rec] at hq
    split at hq
    · cases hq
      exact ok law
    · exact law j q hq
  closes hr active e b o law := law.closes hr active e b o
  clears _ := .of_free (State.clearBlocks_rec _)
  resets fast _ := .of_free (State.powerOn_rec _ fast)
  sends law := law.of_ltk (State.startTx_ltk _)
  stores _ _ law := law.of_ltk rfl

/-! ## Queues and lanes -/

/-- The limits of the Report Queue, the lost count and the lanes (R106, R183). -/
structure CountsLaw (s : State) : Prop where
  reports : s.liu.reports.length ≤ 32
  lost : s.liu.lost ≤ 255
  lane1 : s.ctc.lane1.bound ≤ 8
  lane2 : s.ctc.lane2.bound ≤ 8

theorem boundLaw_iff {s : State} : BoundLaw s ↔ CountsLaw s ∧ s.placesTaken ≤ 4 :=
  ⟨fun h => ⟨⟨h.reports, h.lost, h.lane1, h.lane2⟩, h.places⟩, fun ⟨h, places⟩ => { h with places }⟩

theorem Keeps.countsLaw {b : Blocks} {s t : State} (k : Keeps b s t) (h : CountsLaw s) : CountsLaw t :=
  ⟨k.reports h.reports, k.lost h.lost, k.bound1 h.lane1, k.bound2 h.lane2⟩

/-- The transmitter shortens the queue, and a report that it takes carries the lost count away (R181, R184). -/
theorem CountsLaw.startTx {s : State} (h : CountsLaw s) : CountsLaw s.startTx := by
  unfold State.startTx
  split
  · exact h
  · split
    · exact { h with }
    · rename_i r rs _ queued
      have shorter : rs.length + 1 ≤ 32 := by simpa [queued] using h.reports
      exact { h with reports := (Nat.le_succ _).trans shorter, lost := Nat.zero_le _ }
    · exact h

theorem countsLaw_lasting : Lasting CountsLaw where
  keeps k h := k.countsLaw h
  put _ _ _ h := { h with }
  closes {s} i r _ _ e b o h :=
    have put : CountsLaw (s.setRec i (some (r.closing e))) := { h with }
    (State.retire_keeps _ i o).countsLaw ((State.queueReport_keeps _ b).countsLaw put)
  clears {s} h :=
    have stations : CountsLaw s.clearStations := { h with }
    { s.clearStations.clearTunnel_keeps.countsLaw stations with }
  resets _ _ := ⟨Nat.zero_le _, Nat.zero_le _, Nat.zero_le _, Nat.zero_le _⟩
  sends h := h.startTx
  stores _ _ h := { h with }

end Sys2Proof.Machine
end

section
/-! SUPPORT. The places of the Host reply store: one is taken for each reply, one is reserved for the request in execution
(R178, R180). -/

namespace Sys2Proof.Machine

theorem State.placesTaken_congr {s t : State} (replies : t.liu.replies = s.liu.replies)
    (req : t.rsc.hostReq = s.rsc.hostReq) : t.placesTaken = s.placesTaken := by
  unfold State.placesTaken
  rw [replies, req]

/-- The places that are taken change by replies and by the host store request alone. -/
theorem OnlyIn.placesTaken {b : Blocks} {s t : State} (h : OnlyIn b s t) (link : b.link = false) (req : b.req = false) :
    t.placesTaken = s.placesTaken :=
  by
  have replies := congrArg Liu.replies (h.link link)
  exact State.placesTaken_congr replies (h.req req)

theorem Keeps.placesTaken {b : Blocks} {s t : State} (h : Keeps b s t) (link : b.link = false) (req : b.req = false) :
    t.placesTaken = s.placesTaken := h.onlyIn.placesTaken link req

/-! ## The request in execution (R41 to R43, R180) -/

section
variable {s : State} (inExecution : s.rsc.hostReq.isSome = true)
include inExecution

theorem State.setHostReq_placesTaken (q : HostReq) : (s.setHostReq (some q)).placesTaken = s.placesTaken := by
  unfold State.placesTaken
  rw [inExecution]
  rfl

/-- The reply of the request that ends takes the place that was reserved for it. -/
theorem State.endHostReq_placesTaken (kind tag : Byte) (st : ReplyStatus) (data : List Byte) :
    (s.endHostReq kind tag st data).placesTaken = s.placesTaken := by
  unfold State.placesTaken
  rw [inExecution]
  simp [State.endHostReq, State.setHostReq, State.modRsc, State.reply]

theorem State.checkTakes_placesTaken (tag : Byte) (w : ChainWalk) (bytes : List Byte) :
    (s.checkTakes tag w bytes).placesTaken = s.placesTaken := by
  unfold State.checkTakes
  split
  · exact State.setHostReq_placesTaken inExecution _
  · exact State.endHostReq_placesTaken inExecution _ _ _ _
  · exact State.endHostReq_placesTaken inExecution _ _ _ _

theorem State.readTakes_placesTaken (tag : Byte) (o n : Nat) (got : List Byte) :
    (s.readTakes tag o n got).placesTaken = s.placesTaken := by
  unfold State.readTakes
  split
  · exact State.setHostReq_placesTaken inExecution _
  · exact State.endHostReq_placesTaken inExecution _ _ _ _

theorem State.writeLost_placesTaken (tag : Byte) (o : Nat) (data : List Byte) :
    (s.writeLost tag o data).placesTaken = s.placesTaken := by
  unfold State.writeLost
  split
  · exact State.setHostReq_placesTaken inExecution _
  · exact State.endHostReq_placesTaken inExecution _ _ _ _

/-- A page write, or the read-back after a failed one, puts bytes into the directory copy and ends the request. -/
theorem State.endHostReq_afterDir_placesTaken (d : Vector Byte 256) (kind tag : Byte) (st : ReplyStatus)
    (data : List Byte) : ((s.modRsc fun v => { v with dir := d }).endHostReq kind tag st data).placesTaken = s.placesTaken :=
  State.endHostReq_placesTaken (s := s.modRsc fun v => { v with dir := d }) inExecution kind tag st data

theorem State.grantWrite_placesTaken (tag : Byte) (o : Nat) (data : List Byte) :
    (s.grantWrite tag o data).placesTaken = s.placesTaken := by
  unfold State.grantWrite
  split
  · exact State.endHostReq_placesTaken inExecution _ _ _ _
  · rfl

end

section
variable (s : State)

theorem State.hostTakes_placesTaken (bytes : List Byte) : (s.hostTakes bytes).placesTaken = s.placesTaken := by
  unfold State.hostTakes
  split
  · rename_i req
    exact State.readTakes_placesTaken (by rw [req]; rfl) _ _ _ _
  · rename_i req
    exact State.checkTakes_placesTaken (by rw [req]; rfl) _ _ _
  · rfl
  · rfl

theorem State.hostFails_placesTaken : s.hostFails.placesTaken = s.placesTaken := by
  unfold State.hostFails
  split
  · rename_i req
    exact State.endHostReq_placesTaken (by rw [req]; rfl) _ _ _ _
  · rename_i req
    exact State.endHostReq_placesTaken (by rw [req]; rfl) _ _ _ _
  · rename_i req
    exact State.writeLost_placesTaken (by rw [req]; rfl) _ _ _
  · rfl

theorem State.handWrite_placesTaken : s.handWrite.placesTaken = s.placesTaken := by
  unfold State.handWrite
  split
  · rename_i req
    exact State.endHostReq_afterDir_placesTaken (by rw [req]; rfl) _ _ _ _ _
  all_goals rfl

theorem State.handRead_placesTaken (who : Requestor) (bytes : List Byte) :
    (s.handRead who bytes).placesTaken = s.placesTaken := by
  unfold State.handRead
  cases who with
  | startUp => exact (s.startUpTakes_keeps _).placesTaken rfl rfl
  | fetch c => exact (s.landFetch_keeps c bytes).placesTaken rfl rfl
  | loader => exact (s.loaderTakes_keeps bytes).placesTaken rfl rfl
  | host => exact s.hostTakes_placesTaken bytes
  | readBack =>
    dsimp only
    split
    · rename_i req
      exact State.endHostReq_afterDir_placesTaken (by rw [req]; rfl) _ _ _ _ _
    all_goals rfl

theorem State.handError_placesTaken (who : Requestor) : (s.handError who).placesTaken = s.placesTaken := by
  unfold State.handError
  cases who with
  | startUp => exact (s.startUpTakes_keeps _).placesTaken rfl rfl
  | fetch c => exact (s.failFetch_keeps c).placesTaken rfl rfl
  | loader => exact s.loaderFails_keeps.placesTaken rfl rfl
  | host => exact s.hostFails_placesTaken
  | readBack =>
    dsimp only
    split
    · rename_i req
      exact State.endHostReq_afterDir_placesTaken (by rw [req]; rfl) _ _ _ _ _
    all_goals rfl

theorem State.grantHost_placesTaken : s.grantHost.placesTaken = s.placesTaken := by
  unfold State.grantHost
  split
  case h_2 req => exact State.grantWrite_placesTaken (by rw [req]; rfl) _ _ _
  all_goals rfl

theorem State.grant_placesTaken : s.grant.placesTaken = s.placesTaken := by
  unfold State.grant
  split
  · rfl
  · split
    · exact s.grantStartUp_keeps.placesTaken rfl rfl
    · exact (s.grantFetch_keeps _).placesTaken rfl rfl
    · exact s.grantHost_placesTaken
    · exact s.grantHost_placesTaken
    · exact s.grantLoader_keeps.placesTaken rfl rfl
    · rfl

theorem State.accessEnd_placesTaken (a : Access) : (s.accessEnd a).placesTaken = s.placesTaken := by
  unfold State.accessEnd
  split
  · exact State.handRead_placesTaken _ _ _
  · exact State.handWrite_placesTaken _

theorem State.accessError_placesTaken (a : Access) : (s.accessError a).placesTaken = s.placesTaken := by
  unfold State.accessError
  rw [State.handError_placesTaken, (State.noteFault_keeps _ _ _ _).placesTaken rfl rfl]
  have spoiled (t : State) : (t.spoil a.op).placesTaken = t.placesTaken := by cases a.op <;> rfl
  rw [spoiled, (State.closePort_keeps _).placesTaken rfl rfl]
  exact (s.reach_keeps _ _).placesTaken rfl rfl

end

/-! ## Requests (R179, R180) -/

theorem noBody_eq_some {q r : Request} {body : List Byte} (h : noBody q body = some r) : r = q := by
  cases body with
  | nil => exact (Option.some.inj h).symm
  | cons => cases h

theorem oneByte_eq_some {f : Byte → Request} {body : List Byte} {r : Request} (h : oneByte f body = some r) :
    ∃ b, r = f b := by
  unfold oneByte at h
  split at h
  · exact ⟨_, (Option.some.inj h).symm⟩
  · cases h

/-- The request that a frame's body forms is of the frame's kind. -/
theorem requestOf_kind {kind : Byte} {body : List Byte} {r : Request} (h : requestOf kind body = some r) :
    kindOf r = kind := by
  unfold requestOf at h
  obtain ⟨h, -⟩ := Option.filter_eq_some_iff.1 h
  have coded {n : Nat} (code : kind.toNat = n) (hn : (kindOf r).toNat = n) : kindOf r = kind :=
    BitVec.eq_of_toNat_eq (hn.trans code.symm)
  split at h
  case h_32 => cases h
  case h_1 | h_2 | h_4 | h_6 | h_7 | h_22 | h_31 =>
    cases noBody_eq_some h
    exact coded ‹_› rfl
  case h_5 | h_9 | h_11 | h_14 | h_18 | h_20 | h_21 | h_28 | h_29 =>
    split at h
    · cases h
      exact coded ‹_› rfl
    · cases h
  all_goals
    obtain ⟨b, rfl⟩ := oneByte_eq_some h
    exact coded ‹_› rfl

/-- The places taken once an answer is delivered on the Host Link: an answer that is ready takes one. -/
def Answer.placesTaken (a : Answer) : Nat := a.1.placesTaken + a.2.isSome.toNat

theorem Answer.deliver_host_placesTaken (a : Answer) (kind tag : Byte) :
    (a.deliver .host kind tag).placesTaken = a.placesTaken := by
  unfold Answer.deliver Answer.placesTaken
  split
  · rename_i ready
    rw [ready]
    simp [State.sendReply, State.placesTaken, Nat.add_right_comm]
  · rename_i later
    rw [later]
    rfl

theorem Answer.deliver_bench_placesTaken (a : Answer) (kind tag : Byte) :
    (a.deliver .bench kind tag).placesTaken = a.1.placesTaken := by
  unfold Answer.deliver
  split <;> rfl

theorem State.refuse_placesTaken (s : State) (st : ReplyStatus) : (s.refuse st).placesTaken = s.placesTaken + 1 := rfl

/-- But for the three store requests, a request leaves the places as they are, whatever its reply will take. -/
theorem State.dispatch_placesTaken (s : State) (l : Link) (tag : Byte) {r : Request} (hr : (partsOfRequest r).req = false) :
    (s.dispatch l tag r).1.placesTaken = s.placesTaken :=
  (s.dispatch_onlyIn l tag r).placesTaken (by cases r <;> rfl) hr

/-- A request that the busy rule lets pass takes one place at most, for its reply or while it is in execution. -/
theorem State.dispatch_placesTaken_le {s : State} {r : Request} (hb : s.busy .host r = false) (tag : Byte) :
    (s.dispatch .host tag r).placesTaken ≤ s.placesTaken + 1 := by
  have begun (q : HostReq) (idle : s.rsc.hostReq = none) :
      Answer.placesTaken (s.setHostReq (some q), none) ≤ s.placesTaken + 1 := by
    simp [Answer.placesTaken, State.placesTaken, State.setHostReq, State.modRsc, idle]
  have idle (hr : servedWhileBusy r = false) : s.rsc.hostReq = none := by simpa [State.busy, hr] using hb
  have apart (hr : (partsOfRequest r).req = false) : (s.dispatch .host tag r).placesTaken ≤ s.placesTaken + 1 := by
    unfold Answer.placesTaken
    rw [s.dispatch_placesTaken .host tag hr]
    exact Nat.add_le_add_left (Bool.toNat_le _) _
  cases r with
  | storeRead o n => exact begun _ (idle rfl)
  | storeWrite o data =>
    show (s.doStoreWrite tag o.toNat data).placesTaken ≤ s.placesTaken + 1
    unfold State.doStoreWrite
    split
    · exact le_refl _
    · exact begun _ (idle rfl)
  | recipeCheck n =>
    show (s.doRecipeCheck tag n.toNat).placesTaken ≤ s.placesTaken + 1
    unfold State.doRecipeCheck
    dsimp only
    split
    · exact le_refl _
    · split
      · exact le_refl _
      · split
        · exact le_refl _
        · exact begun _ (idle rfl)
  | _ => exact apart rfl

/-! ## Frames (R177 to R179) -/

/-- A frame screened on the Host Link takes one place at most. -/
theorem State.screen_host_placesTaken (s : State) (kind tag : Byte) (r : Option Request) :
    (s.screen .host kind tag r).placesTaken ≤ s.placesTaken + 1 := by
  unfold State.screen
  split
  · exact Nat.le_succ _
  · rw [Answer.deliver_host_placesTaken]
    unfold State.screenRequest
    split
    · exact le_refl _
    · split
      · exact le_refl _
      · split
        · exact le_refl _
        · split
          · exact le_refl _
          · split
            · exact le_refl _
            · exact State.dispatch_placesTaken_le (Bool.eq_false_iff.2 ‹_›) tag

/-- The Bench Link carries no store request (R179). -/
theorem carries_bench_req {r : Request} (h : carries .bench (kindOf r) = true) : (partsOfRequest r).req = false := by
  cases r with
  | storeRead | storeWrite | recipeCheck => cases h
  | _ => rfl

/-- A frame screened on the Bench Link takes no place. -/
theorem State.screen_bench_placesTaken (s : State) {kind : Byte} (tag : Byte) {r : Option Request}
    (hr : ∀ q, r = some q → kindOf q = kind) : (s.screen .bench kind tag r).placesTaken = s.placesTaken := by
  unfold State.screen
  split
  · rfl
  · rw [Answer.deliver_bench_placesTaken]
    unfold State.screenRequest
    split
    · rfl
    · split
      · rfl
      · rename_i carried
        split
        · rfl
        · rename_i q
          split
          · rfl
          · split
            · rfl
            · refine s.dispatch_placesTaken .bench tag (carries_bench_req ?_)
              rw [hr q rfl]
              simpa using carried

theorem State.take_placesTaken_le {s : State} (places : s.placesTaken ≤ 4) (l : Link) {f : Frame} {r : Option Request}
    (hr : ∀ q, r = some q → kindOf q = f.kind) : (s.take l f r).placesTaken ≤ 4 := by
  unfold State.take
  split
  · exact places
  · cases l with
    | bench =>
      dsimp only
      split
      · exact places
      · exact (s.benchHeard.screen_bench_placesTaken f.tag hr).trans_le places
    | host =>
      dsimp only
      split
      · exact places
      · split
        · exact places
        · rename_i free
          exact (s.screen_host_placesTaken f.kind f.tag r).trans (Nat.not_le.1 free)

theorem State.takeRequest_placesTaken_le {s : State} (places : s.placesTaken ≤ 4) (l : Link) (tag : Byte) (r : Request) :
    (s.takeRequest l tag r).placesTaken ≤ 4 := by
  refine State.take_placesTaken_le places l fun q hq => ?_
  split at hq
  · cases hq
    rfl
  · cases hq

theorem State.screenHeld_placesTaken_le {s : State} (places : s.placesTaken ≤ 4) : s.screenHeld.placesTaken ≤ 4 := by
  unfold State.screenHeld
  split
  · split
    · exact places
    · rename_i f _ free
      exact ((s.setHeld none).screen_host_placesTaken f.kind f.tag _).trans (Nat.not_le.1 free)
  · exact places

theorem State.receive_placesTaken_le {s : State} (places : s.placesTaken ≤ 4) (l : Link) (bytes : List Byte) :
    (s.receive l bytes).placesTaken ≤ 4 := by
  have setRx (t : State) (v : Rx) : (t.setRx l v).placesTaken = t.placesTaken := by cases l <;> rfl
  refine List.foldlRecOn (motive := fun t : State => t.placesTaken ≤ 4) bytes _ places fun t ht x _ => ?_
  unfold State.receiveByte
  split
  · exact ht
  · dsimp only
    split
    · exact State.take_placesTaken_le ((setRx t _).trans_le ht) l fun q hq => requestOf_kind hq
    · exact (setRx t _).trans_le ht

/-! ## The commands -/

theorem State.startTx_placesTaken_le (s : State) : s.startTx.placesTaken ≤ s.placesTaken := by
  unfold State.startTx
  split
  · exact le_refl _
  · split
    · rename_i queued
      simp [State.placesTaken, queued]
    · exact le_refl _
    · exact le_refl _

theorem State.settle_placesTaken_le (s : State) : s.settle.placesTaken ≤ s.placesTaken := by
  refine (State.startTx_placesTaken_le _).trans_eq ?_
  rw [(State.askFetch_keeps _ .b).placesTaken rfl rfl, (s.askFetch_keeps .a).placesTaken rfl rfl]

/-- The reply store holds at most four replies, the reserved place counted (R178). -/
def PlacesLaw (s : State) : Prop := s.placesTaken ≤ 4

theorem PlacesLaw.goesOn {s : State} (h : PlacesLaw s) : LeadsTo PlacesLaw s.goesOn := fun t e => by
  cases e
  exact s.settle_placesTaken_le.trans h

/-- An event that leaves the replies and the host store request as they are. -/
theorem PlacesLaw.event {s t : State} (h : PlacesLaw s) (e : t.placesTaken = s.placesTaken) : LeadsTo PlacesLaw t.goesOn :=
  PlacesLaw.goesOn (e.trans_le h)

/-- A command whose parts are neither the links nor the host store request. -/
theorem PlacesLaw.apart {s : State} (h : PlacesLaw s) {c : Instr} (link : (commandParts c).link = false)
    (req : (commandParts c).req = false) : LeadsTo PlacesLaw (exec c s) := by
  obtain ⟨u, e, only⟩ := exec_goesOnWithin s c (by rintro f rfl; cases link) (by rintro rfl; cases link)
    (by rintro rfl; cases link)
  rw [e]
  exact h.event (only.placesTaken link req)

theorem State.setRx_placesTaken (s : State) (l : Link) (v : Rx) : (s.setRx l v).placesTaken = s.placesTaken := by
  cases l <;> rfl

theorem State.discard_placesTaken (s : State) (l : Link) (bytes : List Byte) (framing : Bool) :
    (s.discard l bytes framing).placesTaken = s.placesTaken := by
  unfold State.discard
  split
  · rfl
  · dsimp only
    split
    · exact s.setRx_placesTaken l _
    · rfl

theorem State.rxGap_placesTaken (s : State) (l : Link) : (s.rxGap l).placesTaken = s.placesTaken := by
  unfold State.rxGap
  split
  · exact (State.setRx_placesTaken _ l _).trans ((s.reach_keeps _ _).placesTaken rfl rfl)
  · rfl

theorem State.benchSilence_placesTaken (s : State) : s.benchSilence.placesTaken = s.placesTaken := by
  unfold State.benchSilence
  split
  · exact List.foldlRecOn (motive := fun t : State => t.placesTaken = s.placesTaken) recIxs _
      ((s.expire_keeps _).placesTaken rfl rfl) fun t ht i _ => ((t.dropClaim_keeps i).placesTaken rfl rfl).trans ht
  · rfl

theorem PlacesLaw.exec {s : State} (h : PlacesLaw s) (c : Instr) : LeadsTo PlacesLaw (exec c s) := by
  have request {c : Instr} {l : Link} {tag : Byte} {r : Request} (hc : c.request? = some (l, tag, r)) :
      LeadsTo PlacesLaw (Machine.exec c s) := by
    rw [exec_request hc]
    exact PlacesLaw.goesOn (State.takeRequest_placesTaken_le h l tag r)
  cases c with
  | por fast => exact PlacesLaw.goesOn (Nat.zero_le 4)
  | storeAccessEnd => exact LeadsTo.endAccess PlacesLaw.goesOn h fun a => (s.accessEnd_placesTaken a).trans_le h
  | storeAccessTimeout => exact LeadsTo.endAccess PlacesLaw.goesOn h fun a => (s.accessError_placesTaken a).trans_le h
  | storeGrant => exact h.event s.grant_placesTaken
  | frameValid l bytes => exact PlacesLaw.goesOn (State.receive_placesTaken_le h l bytes)
  | heldFrameScreen => exact PlacesLaw.goesOn (State.screenHeld_placesTaken_le h)
  | frameDiscard l bytes framing => exact h.event (s.discard_placesTaken l bytes framing)
  | rxGapTimeout l => exact h.event (s.rxGap_placesTaken l)
  | hostTxDone => exact h.event (t := s.hostTxDone) rfl
  | benchTxDone => exact h.event (t := s.benchTxDone) rfl
  | benchSilenceExpiry => exact h.event s.benchSilence_placesTaken
  | identify | lineStatus | lineModeSet | resume | lineConfig | lineClear | faultRead | faultAck | admitCarrier | remove
  | markClear | carrierRead | traceTake | holdPlace | holdRead | holdClaim | holdUnclaim | instructionPost | findingPost
  | findingRead | benchList | holdDispose | cellHome | cellAbort | cellClear | headClear | lampSet | storeRead | storeWrite
  | recipeCheck | slotList => exact request rfl
  | _ => exact h.apart rfl rfl

end Sys2Proof.Machine
end

section
/-! PROOF. Every step keeps the store's list canonical and the limits of queues, lanes and records (R10, R106, R133, R141,
R156, R161, R178, R183). -/

namespace Sys2Proof.Machine

/-! ## The store's list (log 7, log 8) -/

/-- The store's list has its canonical form. -/
def StoreLaw (s : State) : Prop := storeWf s.store = true

theorem StoreLaw.of_store {s t : State} (h : StoreLaw s) (e : t.store = s.store) : StoreLaw t := by
  unfold StoreLaw
  rw [e]
  exact h

theorem StoreLaw.goesOn {s : State} (h : StoreLaw s) : LeadsTo StoreLaw s.goesOn := fun t e => by
  cases e
  exact h.of_store s.settle_onlyIn.store

theorem StoreLaw.putStore {s : State} (h : StoreLaw s) (o : Nat) (data : List Byte) : StoreLaw (s.putStore o data) :=
  storeWrite_wf s.store o data h

theorem StoreLaw.spoil {s : State} (h : StoreLaw s) (op : AccessOp) : StoreLaw (s.spoil op) := by
  cases op with
  | read o n => exact h
  | write o data => exact h.putStore o _

theorem StoreLaw.powerOn {s : State} (h : StoreLaw s) (fast : Bool) : StoreLaw (s.powerOn fast) := by
  unfold State.powerOn
  split
  · exact h.spoil _
  · exact h

theorem StoreLaw.accessEnd {s : State} (h : StoreLaw s) (a : Access) : StoreLaw (s.accessEnd a) := by
  unfold State.accessEnd
  split
  · exact h.of_store (State.handRead_keeps s.closePort _ _).store
  · rename_i o data _
    have put : StoreLaw (s.closePort.putStore o data) := StoreLaw.putStore (s := s.closePort) h o data
    exact put.of_store (State.handWrite_keeps _).store

theorem StoreLaw.accessError {s : State} (h : StoreLaw s) (a : Access) : StoreLaw (s.accessError a) := by
  have closed : StoreLaw (s.reach a.since Config.accessMs).closePort := h.of_store (s.reach_keeps _ _).store
  have spoiled := closed.spoil a.op
  exact spoiled.of_store ((State.handError_keeps _ _).store.trans (State.noteFault_keeps _ _ _ _).store)

theorem StoreLaw.exec {s : State} (h : StoreLaw s) (c : Instr) : LeadsTo StoreLaw (exec c s) := by
  rcases exec_cases c s with ⟨fast, rfl⟩ | rfl | rfl | ⟨u, e, only⟩
  · exact (h.powerOn fast).goesOn
  · exact LeadsTo.endAccess StoreLaw.goesOn h h.accessEnd
  · exact LeadsTo.endAccess StoreLaw.goesOn h h.accessError
  · rw [e]
    exact (h.of_store only.store).goesOn

/-! ## Steps -/

/-- The clock counts one ms. -/
theorem State.tick_keeps (s : State) : Keeps { clock := true } s s.tick := s.atTime_keeps _

/-- A law of all but the queue of commands that every command and the clock keep is kept by every step. -/
theorem step_keeps_law {P : State → Prop} (pending : ∀ (s : State) (v : List Instr), P s → P { s with pending := v })
    (exec : ∀ (s : State) (c : Instr), P s → LeadsTo P (exec c s)) (tick : ∀ s : State, P s → P s.tick) {s t : State}
    (h : P s) (e : step s = .next t) : P t := by
  unfold step at e
  split at e
  · exact exec _ _ (pending s _ h) t e
  · cases e
    exact tick s h

theorem Lasting.step {P : State → Prop} (law : Lasting P)
    (pending : ∀ (s : State) (v : List Instr), P s → P { s with pending := v }) {s t : State} (h : P s)
    (e : step s = .next t) : P t :=
  step_keeps_law pending (fun _ c h => law.exec h c) (fun s h => law.keeps s.tick_keeps h) h e

/-- Settles O6: the store by its writes, the limits of the queues, lanes and records through every operation, the places of
the reply store by the requests. -/
theorem stepsKeepTheLimits : Obligations.StepsKeepTheLimits := by
  refine ⟨fun s t h e => ?store, fun s t h e => ?bounds, fun s t h e => ?records⟩
  case store => exact step_keeps_law (P := StoreLaw) (fun _ _ h => h) (fun _ c h => h.exec c) (fun _ h => h) h e
  case bounds =>
    obtain ⟨counts, places⟩ := boundLaw_iff.1 h
    have placed : PlacesLaw t :=
      step_keeps_law (P := PlacesLaw) (fun _ _ h => h) (fun _ c h => h.exec c) (fun _ h => h) places e
    exact boundLaw_iff.2 ⟨countsLaw_lasting.step (fun _ _ h => { h with }) counts e, placed⟩
  case records => exact recordLaw_lasting.step (fun _ _ h => h) h e

end Sys2Proof.Machine
end

section
/-! PROOF. The Report Queue counts what it loses, and silence on the Bench Link drops its claims (R151, R183, R185, R186). -/

namespace Sys2Proof.Machine

/-! ## The Report Queue (R183, R185) -/

theorem satInc_lost (n : Nat) : satInc Config.lostMax n = min (n + 1) 255 := rfl

/-- Settles O18: room in the queue, and the discards with the full flag set and clear. -/
theorem fullQueueCountsLostReports : Obligations.FullQueueCountsLostReports := by
  intro s b
  have discards (none : 32 ≤ s.liu.reports.length) : ¬ s.liu.reports.length < Config.reportQueueMax := Nat.not_lt.2 none
  refine ⟨fun room => if_pos room, fun none full => ?again, fun none clear => ?first⟩
  case again =>
    unfold State.queueReport
    rw [if_neg (discards none), if_pos full]
    rfl
  case first =>
    have twice : satInc Config.lostMax (satInc Config.lostMax s.liu.lost) = min (s.liu.lost + 2) 255 := by
      rw [satInc_lost, satInc_lost]
      omega
    unfold State.queueReport
    rw [if_neg (discards none), if_neg (by rw [clear]; nofun), ← twice]
    rfl

/-! ## The claims of live records (R151) -/

/-- A record without the claim of the Bench Link. -/
def CarrierRecord.benchUnclaimed (r : CarrierRecord) : CarrierRecord :=
  { r with hold := r.hold.map fun h => if h.claim = some .bench then { h with claim := none } else h }

/-- What silence on the Bench Link leaves of an entry of the table. -/
def State.afterSilence (s : State) (i : RecIx) : Option CarrierRecord :=
  match s.live? i with
  | some r => some r.benchUnclaimed
  | none => s.rec? i

theorem State.live?_congr {s t : State} {i : RecIx} (h : t.rec? i = s.rec? i) : t.live? i = s.live? i := by
  unfold State.live?
  rw [h]

theorem State.afterSilence_congr {s t : State} {i : RecIx} (h : t.rec? i = s.rec? i) :
    t.afterSilence i = s.afterSilence i := by
  unfold State.afterSilence
  rw [State.live?_congr h, h]

theorem State.afterSilence_of_live {s : State} {i : RecIx} {r : CarrierRecord} (h : s.live? i = some r) :
    s.afterSilence i = some r.benchUnclaimed := by
  unfold State.afterSilence
  rw [h]

theorem CarrierRecord.benchUnclaimed_of_claimed {r : CarrierRecord} {h : Hold} (hh : r.hold = some h)
    (claimed : h.claim = some .bench) : r.benchUnclaimed = { r with hold := some { h with claim := none } } := by
  simp [CarrierRecord.benchUnclaimed, hh, claimed]

theorem CarrierRecord.benchUnclaimed_of_unclaimed {r : CarrierRecord}
    (unclaimed : ∀ h, r.hold = some h → h.claim ≠ some .bench) : r.benchUnclaimed = r := by
  unfold CarrierRecord.benchUnclaimed
  rcases hh : r.hold with _ | h
  · rw [Option.map_none, ← hh]
  · rw [Option.map_some, if_neg (unclaimed h hh), ← hh]

/-- Either a live record loses the Bench Link's claim, with its report, or nothing happens. -/
theorem State.dropClaim_cases (s : State) (i : RecIx) :
    (s.dropClaim i = s ∧ s.afterSilence i = s.rec? i) ∨
      ∃ r b, s.afterSilence i = some r ∧ s.dropClaim i = (s.setRec i (some r)).queueReport b := by
  unfold State.dropClaim
  split
  · rename_i r live
    obtain ⟨hr, -⟩ := State.live?_some live
    have kept (unclaimed : ∀ h, r.hold = some h → h.claim ≠ some .bench) : s.afterSilence i = s.rec? i := by
      rw [State.afterSilence_of_live live, CarrierRecord.benchUnclaimed_of_unclaimed unclaimed, hr]
    split
    · rename_i h hh
      split
      · rename_i claimed
        refine .inr ⟨_, _, ?_, State.setClaim_eq hr hh none⟩
        rw [State.afterSilence_of_live live, CarrierRecord.benchUnclaimed_of_claimed hh claimed]
      · rename_i unclaimed
        refine .inl ⟨rfl, kept fun g hg => ?_⟩
        cases hh.symm.trans hg
        exact unclaimed
    · rename_i hh
      exact .inl ⟨rfl, kept fun g hg => nomatch hh.symm.trans hg⟩
  · rename_i gone
    refine .inl ⟨rfl, ?_⟩
    unfold State.afterSilence
    rw [gone]

theorem State.dropClaim_rec (s : State) (i j : RecIx) :
    (s.dropClaim i).rec? j = if j = i then s.afterSilence i else s.rec? j := by
  rcases s.dropClaim_cases i with ⟨same, kept⟩ | ⟨r, b, after, drops⟩
  · rw [same, kept]
    split
    · rename_i e
      rw [e]
    · rfl
  · rw [drops, State.queueReport_rec?, State.setRec_rec, after]

/-- The claims dropped index by index: each entry as the drop at its own index leaves it. -/
theorem State.foldl_dropClaim_rec {is : List RecIx} (once : is.Nodup) (s : State) (j : RecIx) :
    (is.foldl State.dropClaim s).rec? j = if j ∈ is then s.afterSilence j else s.rec? j := by
  induction is generalizing s with
  | nil => rfl
  | cons i is ih =>
    obtain ⟨hi, once⟩ := List.nodup_cons.1 once
    rw [List.foldl_cons, ih once]
    by_cases hj : j = i
    · subst hj
      rw [if_neg hi, if_pos List.mem_cons_self, s.dropClaim_rec, if_pos rfl]
    · have same : (s.dropClaim i).rec? j = s.rec? j := (s.dropClaim_rec i j).trans (if_neg hj)
      rw [State.afterSilence_congr same, same]
      simp [hj]

/-- What is no update of the links leaves the presence, its timer and the replies as they are. -/
theorem Keeps.links {b : Blocks} {s t : State} (k : Keeps b s t) (hb : b.link = false) :
    t.liu.online = s.liu.online ∧ t.liu.silence = s.liu.silence ∧ t.liu.replies = s.liu.replies := by
  have rest := k.link hb
  exact ⟨(congrArg Liu.online rest :), (congrArg Liu.silence rest :), (congrArg Liu.replies rest :)⟩

/-- The state in which the claims are dropped: SILENT, the timer stopped (R186). -/
def State.silenced (s : State) (t : Timer) : State :=
  { s.expire t with liu := { (s.expire t).liu with online := false, silence := none } }

theorem State.benchSilence_running {s : State} {t : Timer} (h : s.liu.silence = some t) :
    s.benchSilence = recIxs.foldl State.dropClaim (s.silenced t) := by
  unfold State.benchSilence
  rw [h]
  rfl

/-- Settles O17: without a timer, and with one the presence, then the claims record by record. -/
theorem silenceDropsBenchClaims : Obligations.SilenceDropsBenchClaims := by
  intro s
  refine ⟨fun stopped => State.goesOn_congr ?stopped, fun t running => ⟨_, rfl, s.benchSilence_onlyIn, ?running⟩⟩
  case stopped =>
    unfold State.benchSilence
    rw [stopped]
  case running =>
    rw [State.benchSilence_running running]
    have dropped : Keeps { ltk := true, rep := true } (s.silenced t) (recIxs.foldl State.dropClaim (s.silenced t)) :=
      Keeps.foldl _ State.dropClaim_keeps recIxs (Keeps.refl _ _)
    obtain ⟨online, silence, replies⟩ := dropped.links rfl
    obtain ⟨-, -, before⟩ := (s.expire_keeps t).links rfl
    refine ⟨online, silence, replies.trans before, fun i => ?_⟩
    have once : recIxs.Nodup := List.nodup_finRange 24
    have listed : i ∈ recIxs := List.mem_finRange i
    rw [State.foldl_dropClaim_rec once, if_pos listed]
    exact State.afterSilence_congr (State.rec?_of_ltk (s.expire_ltk t) i)

end Sys2Proof.Machine
end

section
/-! SUPPORT. A request's body read back as the request, and a frame's bytes taken by a receiver that hunts (R177, R188,
R190). -/

namespace Sys2Proof.Machine

/-! ## Request bodies (R190) -/

/-- A field of a number and the byte below it. -/
theorem append_nextByte {w k m n : Nat} (v : BitVec w) (h : m = k + 8) :
    v.extractLsb' m n ++ v.extractLsb' k 8 = v.extractLsb' k (n + 8) :=
  BitVec.extractLsb'_append_extractLsb'_eq_extractLsb' h

theorem num16_bytes (v : BitVec 16) : v.extractLsb' 8 8 ++ v.extractLsb' 0 8 = v :=
  (append_nextByte v rfl).trans BitVec.extractLsb'_eq_self

theorem num24_bytes (v : BitVec 24) : num24 (v.extractLsb' 16 8) (v.extractLsb' 8 8) (v.extractLsb' 0 8) = v := by
  unfold num24
  rw [append_nextByte (k := 8) v rfl]
  exact (append_nextByte v rfl).trans BitVec.extractLsb'_eq_self

theorem num64_bytes (v : TagId) :
    num64 (v.extractLsb' 56 8) (v.extractLsb' 48 8) (v.extractLsb' 40 8) (v.extractLsb' 32 8) (v.extractLsb' 24 8)
      (v.extractLsb' 16 8) (v.extractLsb' 8 8) (v.extractLsb' 0 8) = v := by
  unfold num64
  rw [append_nextByte (k := 48) v rfl, append_nextByte (k := 40) v rfl, append_nextByte (k := 32) v rfl,
    append_nextByte (k := 24) v rfl, append_nextByte (k := 16) v rfl, append_nextByte (k := 8) v rfl]
  exact (append_nextByte v rfl).trans BitVec.extractLsb'_eq_self

/-- The body of a request carries it, when its length is one that the kind allows. -/
theorem requestOf_bodyOf (r : Request) : requestOf (kindOf r) (bodyOf r) = if r.lengthOk then some r else none := by
  have carried (q : Request) (h : q = r) : (some q).filter Request.lengthOk = if r.lengthOk then some r else none := by
    rw [h]
    exact Option.filter_some
  cases r with
  | lineConfig x m => exact carried _ (congrArg (Request.lineConfig x) (num16_bytes m))
  | admitCarrier t n serial => exact carried _ (congrArg (Request.admitCarrier · n serial) (num64_bytes t))
  | markClear t => exact carried _ (congrArg Request.markClear (num64_bytes t))
  | storeRead o n => exact carried _ (congrArg (Request.storeRead · n) (num24_bytes o))
  | storeWrite o d => exact carried _ (congrArg (Request.storeWrite · d) (num24_bytes o))
  | _ => exact carried _ rfl

theorem State.takeFrame_frameOf (s : State) (l : Link) (tag : Byte) (r : Request) :
    s.takeFrame l (frameOf tag r) = s.takeRequest l tag r :=
  congrArg (s.take l (frameOf tag r)) (requestOf_bodyOf r)

/-- The body of a request of an allowed length fits a frame. -/
theorem bodyOf_length_le {r : Request} (h : r.lengthOk = true) : (bodyOf r).length ≤ 240 := by
  cases r with
  | admitCarrier | instructionPost | findingPost | storeWrite =>
    simp only [Request.lengthOk, Bool.and_eq_true, decide_eq_true_eq] at h
    simp only [bodyOf, bytes24, bytes64, List.length_append, List.length_cons, List.length_nil]
    omega
  | _ => simp [bodyOf, bytes16, bytes24, bytes64]

/-! ## The receiver (R177) -/

/-- The payload of a frame that is not whole yet is kept. -/
theorem rxRun_body (starting : Bool) (now : LineTime) (early : Bool) (len : Byte) (xs got : List Byte)
    (short : got.length + xs.length < len.toNat + 2) :
    rxRun starting now (.body early now len got) xs = (.body early now len (got ++ xs), []) := by
  induction xs generalizing got with
  | nil => simp [rxRun]
  | cons x xs ih =>
    have more : (got ++ [x]).length < len.toNat + 2 := by simp at short ⊢; omega
    have taken : rxByte starting now (.body early now len got) x = (.body early now len (got ++ [x]), none) := if_pos more
    rw [rxRun, taken, ih (got ++ [x]) (by simp at short ⊢; omega)]
    simp

/-- The start byte and a length byte in its range lead to BODY. -/
theorem rxRun_begins (starting : Bool) (now : LineTime) {len : Byte} (low : 2 ≤ len.toNat) (high : len.toNat ≤ 242)
    (xs : List Byte) :
    rxRun starting now .hunt (0xC5 :: len :: xs) = rxRun starting now (.body starting now len []) xs := by
  simp [rxRun, rxByte, low, high]

theorem Frame.lengthByte_toNat {f : Frame} (h : f.body.length ≤ 240) : f.lengthByte.toNat = f.body.length + 2 := by
  unfold Frame.lengthByte
  rw [BitVec.toNat_ofNat, Nat.mod_eq_of_lt (by omega)]

/-- A frame's payload with its CRC gives the frame. -/
theorem frameIn_bytes {f : Frame} (h : f.body.length ≤ 240) :
    frameIn f.lengthByte (f.kind :: f.tag :: f.body ++ Frame.bytes.bytes16Of (crc16 f.covered)) = some f := by
  have size : f.lengthByte.toNat = (f.kind :: f.tag :: f.body).length := Frame.lengthByte_toNat h
  unfold frameIn
  rw [size, List.take_left, List.drop_left]
  exact if_pos (num16_bytes (crc16 f.covered)).symm

/-! ## Bytes taken on a link -/

/-- A receiver that a byte finds as it is: in HUNT, or with its last byte at the present line time. -/
def Rx.FreshAt (now : LineTime) (v : Rx) : Prop := v.last = none ∨ v.last = some now

theorem rxByte_fresh (starting : Bool) (now : LineTime) (v : Rx) (b : Byte) : (rxByte starting now v b).1.FreshAt now := by
  unfold rxByte
  split
  · split
    · exact .inr rfl
    · exact .inl rfl
  · split
    · exact .inr rfl
    · exact .inl rfl
  · dsimp only
    split
    · exact .inr rfl
    · exact .inl rfl

theorem Rx.eq_hunt {v : Rx} (h : v.last = none) : v = .hunt := by
  cases v with
  | hunt => rfl
  | length | body => cases h

theorem State.since_now (s : State) : s.since s.now = 0 := by simp [State.since]

section
variable (s : State) (l : Link)

@[simp] theorem State.setRx_rx (v : Rx) : (s.setRx l v).rx l = v := by cases l <;> rfl

@[simp] theorem State.setRx_setRx (v w : Rx) : (s.setRx l v).setRx l w = s.setRx l w := by cases l <;> rfl

@[simp] theorem State.setRx_starting (v : Rx) : (s.setRx l v).starting = s.starting := by cases l <;> rfl

@[simp] theorem State.setRx_now (v : Rx) : (s.setRx l v).now = s.now := by cases l <;> rfl

@[simp] theorem State.setRx_deaf (v : Rx) : (s.setRx l v).deaf l = s.deaf l := by cases l <;> rfl

variable {s l}

theorem State.setRx_self {v : Rx} (h : s.rx l = v) : s.setRx l v = s := by
  subst h
  cases l <;> rfl

/-- A receiver whose last byte came no more than 20 ms ago stays in its state. -/
theorem State.freshRx_of_last {last : LineTime} (h : (s.rx l).last = some last) (soon : s.since last ≤ 20) :
    s.freshRx l = s.rx l := by
  unfold State.freshRx
  rw [h]
  exact if_pos (Nat.lt_succ_of_le soon)

theorem State.freshRx_setRx {v : Rx} (fresh : v.FreshAt s.now) : (s.setRx l v).freshRx l = v := by
  rcases fresh with none | now
  · unfold State.freshRx
    rw [State.setRx_rx, none]
    exact (Rx.eq_hunt none).symm
  · rw [State.freshRx_of_last (by rw [State.setRx_rx]; exact now) (by
      rw [← State.setRx_now s l v, State.since_now]
      exact Nat.zero_le 20), State.setRx_rx]

variable (hears : s.deaf l = false)
include hears

/-- A byte moves the receiver, and the frame that it completes is taken. -/
theorem State.receiveByte_setRx {v w : Rx} (fresh : v.FreshAt s.now) {b : Byte} {f : Option Frame}
    (byte : rxByte s.starting s.now v b = (w, f)) :
    State.receiveByte l (s.setRx l v) b = f.elim (s.setRx l w) ((s.setRx l w).takeFrame l) := by
  unfold State.receiveByte
  rw [if_neg (by rw [State.setRx_deaf, hears]; nofun), State.setRx_starting, State.setRx_now, State.freshRx_setRx fresh, byte]
  dsimp only
  rw [State.setRx_setRx]
  cases f <;> rfl

/-- Bytes that complete no frame only move the receiver. -/
theorem State.receive_quiet {v w : Rx} (fresh : v.FreshAt s.now) {bytes : List Byte}
    (quiet : rxRun s.starting s.now v bytes = (w, [])) : (s.setRx l v).receive l bytes = s.setRx l w ∧ w.FreshAt s.now := by
  induction bytes generalizing v with
  | nil =>
    cases quiet
    exact ⟨rfl, fresh⟩
  | cons b bs ih =>
    obtain ⟨moved, silent⟩ := Prod.mk.inj quiet
    obtain ⟨none, rest⟩ := List.append_eq_nil_iff.1 silent
    have taken : rxByte s.starting s.now v b = ((rxByte s.starting s.now v b).1, Option.none) :=
      Prod.ext rfl (Option.toList_eq_nil_iff.1 none)
    have byte := State.receiveByte_setRx hears fresh taken
    obtain ⟨received, still⟩ := ih (rxByte_fresh s.starting s.now v b) (Prod.ext moved rest)
    refine ⟨?_, still⟩
    rw [← received]
    exact congrArg (List.foldl (State.receiveByte l) · bs) byte

end

/-- While the V24 transmits, its Bench Link receiver takes no bytes (R176). -/
theorem State.receive_deaf {s : State} {l : Link} (deaf : s.deaf l = true) (bytes : List Byte) : s.receive l bytes = s :=
  List.foldlRecOn (motive := fun t => t = s) bytes _ rfl fun t ht _ _ => by
    rw [ht]
    exact if_pos deaf

/-- Until start-up ends, and on the Bench Link while the V24 transmits, a frame has no effect (R172, R176). -/
theorem State.take_unheard {s : State} {l : Link} (h : s.starting = true ∨ s.deaf l = true) (f : Frame)
    (r : Option Request) : s.take l f r = s := by
  unfold State.take
  by_cases starting : s.starting = true
  · exact if_pos starting
  · have deaf := h.resolve_left starting
    simp only [State.deaf, Bool.and_eq_true, decide_eq_true_eq] at deaf
    obtain ⟨rfl, sending⟩ := deaf
    rw [if_neg starting]
    exact if_pos sending

/-- The bytes of a frame, taken one by one by a receiver that hunts, are the frame taken (log 28). -/
theorem State.receive_frame {s : State} {l : Link} (hunts : s.rx l = .hunt) {f : Frame} (fits : f.body.length ≤ 240) :
    s.receive l f.bytes = s.takeFrame l f := by
  by_cases deaf : s.deaf l = true
  · rw [State.receive_deaf deaf]
    exact (State.take_unheard (.inr deaf) f _).symm
  · have hears := Bool.eq_false_iff.2 deaf
    have size := Frame.lengthByte_toNat fits
    let hi := (crc16 f.covered).extractLsb' 8 8
    let lo := (crc16 f.covered).extractLsb' 0 8
    let payload := f.kind :: f.tag :: f.body ++ [hi]
    let rx : Rx := .body s.starting s.now f.lengthByte payload
    have bytes : f.bytes = (0xC5 :: f.lengthByte :: payload) ++ [lo] := by
      simp [Frame.bytes, Frame.covered, Frame.bytes.bytes16Of, payload, hi, lo]
    have run : rxRun s.starting s.now .hunt (0xC5 :: f.lengthByte :: payload) = (rx, []) := by
      rw [rxRun_begins _ _ (by omega) (by omega)]
      exact rxRun_body _ _ _ _ payload [] (by simp [payload]; omega)
    have whole : frameIn f.lengthByte (payload ++ [lo]) = some f := by
      rw [List.append_assoc]
      exact frameIn_bytes fits
    have ends : rxByte s.starting s.now rx lo = (.hunt, if s.starting then none else some f) := by
      rw [← whole]
      exact if_neg (by simp [payload]; omega)
    obtain ⟨received, fresh⟩ := State.receive_quiet hears (.inl rfl) run
    rw [State.setRx_self hunts] at received
    have last : s.receive l f.bytes = State.receiveByte l (s.setRx l rx) lo := by
      rw [← received, bytes]
      exact List.foldl_append
    rw [last, State.receiveByte_setRx hears fresh ends, State.setRx_self hunts]
    by_cases starting : s.starting = true
    · rw [if_pos starting]
      exact (State.take_unheard (.inl starting) f _).symm
    · rw [if_neg starting]
      rfl

end Sys2Proof.Machine
end

section
/-! PROOF. Frames: those that carry a request, those that carry none, the discarded ones, and the one that a full reply
store holds (R177 to R179, R186). -/

namespace Sys2Proof.Machine

/-- Settles O13: the frame received is the frame taken, and its body read back is the request. -/
theorem frameRunsTheRequestItCarries : Obligations.FrameRunsTheRequestItCarries := by
  intro c l tag r s hc length hunts
  rw [exec_request hc, ← s.takeFrame_frameOf l tag r]
  exact State.goesOn_congr (State.receive_frame hunts (bodyOf_length_le length))

/-! ## Frames of no request kind (R179) -/

/-- A link that hears a frame screens it (R177, R186). -/
theorem State.take_heard {s : State} {l : Link} (h : s.hears l = true) (f : Frame) (r : Option Request) :
    s.take l f r = (s.heard l).screen l f.kind f.tag r := by
  unfold State.take
  cases l with
  | host =>
    simp only [State.hears, Bool.and_eq_true, Bool.not_eq_true', decide_eq_true_eq, Option.isNone_iff_eq_none] at h
    obtain ⟨started, none, free⟩ := h
    rw [if_neg (by simp [started])]
    dsimp only
    rw [if_neg (by simp [none]), if_neg (by omega)]
    rfl
  | bench =>
    simp only [State.hears, Bool.and_eq_true, Bool.not_eq_true', Option.isNone_iff_eq_none] at h
    obtain ⟨started, free⟩ := h
    rw [if_neg (by simp [started])]
    dsimp only
    rw [if_neg (by simp [free])]
    rfl

/-- A kind that no request has is discarded from 0x80 on, and otherwise answered UNKNOWN_KIND (R179). -/
theorem State.screen_unassigned (s : State) (l : Link) {kind : Byte} (unassigned : kind ∉ requestKinds) (tag : Byte)
    (r : Option Request) :
    s.screen l kind tag r =
      if 0x80 ≤ kind.toNat then s
      else s.sendReply l { kind := kind, tag := tag, status := .unknownKind, data := [] } := by
  have refused : s.screenRequest l kind tag r = s.refuse .unknownKind := if_pos (by simpa using unassigned)
  unfold State.screen
  rw [refused]
  rfl

/-! ## Discards and gaps (R177) -/

theorem State.discard_framing {s : State} {l : Link} (hears : s.deaf l = false) (bytes : List Byte) :
    s.discard l bytes true = s.setRx l .hunt := by
  unfold State.discard
  rw [if_neg (by rw [hears]; nofun)]
  rfl

/-- A byte that ends a frame without completing one. -/
theorem State.discard_byte {s : State} {l : Link} (hears : s.deaf l = false) {last : LineTime}
    (some : (s.rx l).last = some last) (soon : s.since last ≤ 20) {b : Byte}
    (ends : rxByte s.starting s.now (s.rx l) b = (.hunt, none)) : s.discard l [b] false = s.setRx l .hunt := by
  have run : rxRun s.starting s.now (s.freshRx l) [b] = (.hunt, []) := by
    rw [State.freshRx_of_last some soon, rxRun, ends]
    rfl
  unfold State.discard
  rw [if_neg (by rw [hears]; nofun), run]
  rfl

/-- Settles O14: the kinds that no request has, then each way in which a frame is discarded. -/
theorem framesOfNoRequestAreDropped : Obligations.FramesOfNoRequestAreDropped := by
  refine ⟨fun s l f hears hunts fits unassigned => ?unassigned, fun s l => ⟨fun bytes hears => ?framing,
    fun len got b early last hears rx soon whole bad => ?crc, fun b early last hears rx soon outside => ?length,
    fun last since => ?gap⟩⟩
  case unassigned =>
    have acts : s.receive l f.bytes = if 0x80 ≤ f.kind.toNat then s.heard l
        else (s.heard l).sendReply l { kind := f.kind, tag := f.tag, status := .unknownKind, data := [] } := by
      rw [State.receive_frame hunts fits, State.takeFrame, State.take_heard hears, State.screen_unassigned _ _ unassigned]
    refine (State.goesOn_congr acts).trans ?_
    split <;> rfl
  case framing => exact State.goesOn_congr (State.discard_framing hears bytes)
  case crc =>
    refine State.goesOn_congr (State.discard_byte hears (by rw [rx]; rfl) soon ?_)
    rw [rx]
    have full : ¬ (got ++ [b]).length < len.toNat + 2 := by simp; omega
    refine (if_neg full).trans ?_
    rw [bad, ite_self]
  case length =>
    refine State.goesOn_congr (State.discard_byte hears (by rw [rx]; rfl) soon ?_)
    rw [rx]
    exact if_neg (by omega)
  case gap =>
    refine State.goesOn_congr ?_
    unfold State.rxGap
    rw [since]
    rfl

/-! ## The held frame (R178) -/

theorem State.screenHeld_of_full {s : State} (full : 4 ≤ s.placesTaken) : s.screenHeld = s := by
  unfold State.screenHeld
  split
  · exact if_pos full
  · rfl

theorem State.screenHeld_of_none {s : State} (none : s.liu.held = none) : s.screenHeld = s := by
  unfold State.screenHeld
  rw [none]

/-- With a place free the held frame of a request is screened as the request is. -/
theorem State.screenHeld_frameOf {s : State} {tag : Byte} {r : Request} (held : s.liu.held = some (frameOf tag r))
    (free : s.placesTaken < 4) (started : s.starting = false) :
    (s.setHeld none).hears .host = true ∧ s.screenHeld = (s.setHeld none).takeRequest .host tag r := by
  have hears : (s.setHeld none).hears .host = true := by
    have places : (s.setHeld none).placesTaken < 4 := free
    have start : (s.setHeld none).starting = false := started
    simp [State.hears, start, Config.replyPlaces, places]
  refine ⟨hears, ?_⟩
  unfold State.screenHeld
  rw [held]
  dsimp only
  rw [if_neg (show ¬ Config.replyPlaces ≤ s.placesTaken from Nat.not_le.2 free), State.takeRequest_heard hears,
    ← requestOf_bodyOf]
  rfl

/-- Settles O15: a full reply store, a frame already held, a place free, and nothing to screen. -/
theorem fullReplyStoreHoldsOneFrame : Obligations.FullReplyStoreHoldsOneFrame := by
  intro c tag r s hc length started screened
  refine ⟨fun none full => ?holds, fun held => ?discards, fun held free => ?screens, fun held free => ?status,
    fun _ full => State.goesOn_congr (State.screenHeld_of_full full),
    fun none => State.goesOn_congr (State.screenHeld_of_none none)⟩
  case holds =>
    rw [exec_request hc]
    refine State.goesOn_congr ?_
    unfold State.takeRequest State.take
    rw [if_neg (by simp [started])]
    dsimp only
    rw [if_neg (by simp [none])]
    exact if_pos full
  case discards =>
    rw [exec_request hc]
    refine State.goesOn_congr ?_
    unfold State.takeRequest State.take
    rw [if_neg (by simp [started])]
    exact if_pos held
  case screens =>
    rw [exec_request hc]
    exact State.goesOn_congr (State.screenHeld_frameOf held free started).2
  case status =>
    obtain ⟨hears, screens⟩ := State.screenHeld_frameOf held free started
    refine (State.goesOn_congr screens).trans ?_
    exact State.takeRequest_served hears rfl (State.busy_served _ .host rfl) tag rfl

end Sys2Proof.Machine
end
